-- ==== Sys2Proof/Word.lean ====
section
/-! DEFINITION. The sizes of R4 and the plainest arithmetic on them. -/

namespace Sys2Proof

/-- A byte (R4). -/
abbrev Byte := BitVec 8
/-- A word used alone is 64 bits (R4). -/
abbrev Word := BitVec 64
/-- A vector lane or FP32 value: a single (R4, R63). -/
abbrev Lane := BitVec 32
/-- A register field of an instruction (R20). -/
abbrev Reg := BitVec 5

end Sys2Proof
end

