-- ==== Sys2Proof/Syntax.lean ====
section
/-! DEFINITION. The instructions and events of the IL-24: one constructor per row of spec/opcode_table.json, in the
table's order. An encoded instruction carries its predicate (R14, R15) and the fields of its format (R19) at their
widths; an event row, which is no word of a program, carries what names the occurrence (the thread, the request, the
host's or the link's data). -/

namespace Sys2Proof

/-- The predicate of an instruction word (R14): PRED.N and PRED.F. -/
structure Pred where
  n : BitVec 1
  f : BitVec 4
  deriving DecidableEq, Repr

/-- The always predicate: N = 0, F = 15 (R15). -/
def Pred.always : Pred := ⟨0, 15⟩

/-- A thread, named by the slot that holds it: a physical core number and a slot 0-7 (R63, R155). -/
structure ThreadRef where
  core : Nat
  slot : Nat
  deriving DecidableEq, Repr

/-- A band, named by context, launch number and band number (R299). -/
structure BandRef where
  ctx : Nat
  launch : Nat
  band : Nat
  deriving DecidableEq, Repr

/-- A launch, named by context and launch number (R298). -/
structure LaunchRef where
  ctx : Nat
  launch : Nat
  deriving DecidableEq, Repr

/-- A fabric transaction: the header fields of R360, the oldest outstanding tag that every request carries (R362), the
source context that a grant names (R366), and the payload words. -/
structure FabTx where
  op : BitVec 6
  src : BitVec 16
  ctx : BitVec 12
  sctx : BitVec 12
  operand : BitVec 8
  tag : BitVec 40
  stream : BitVec 5
  oldest : BitVec 40
  addr : Word
  payload : List Word
  deriving DecidableEq, Repr

/-- A firmware image to be verified (R340): its bytes, its Ed448 signature, the public key it comes with, and its rollback
index. -/
structure BootImage where
  image : List (BitVec 8)
  sig : List (BitVec 8)
  key : List (BitVec 8)
  rollback : Nat
  deriving DecidableEq, Repr

/-- Every row of the table of operations and events. -/
inductive Instr where
  /-- ADD (R104). Writes the wrapping sum of two scalar registers to the destination. -/
  | add (p : Pred) (d : BitVec 5) (a : BitVec 5) (b : BitVec 5)
  /-- SUB (R104). Writes the wrapping difference of two scalar registers to the destination. -/
  | sub (p : Pred) (d : BitVec 5) (a : BitVec 5) (b : BitVec 5)
  /-- AND (R104). Writes the bitwise AND of two scalar registers. -/
  | and (p : Pred) (d : BitVec 5) (a : BitVec 5) (b : BitVec 5)
  /-- OR (R104). Writes the bitwise OR of two scalar registers. -/
  | or (p : Pred) (d : BitVec 5) (a : BitVec 5) (b : BitVec 5)
  /-- XOR (R104). Writes the bitwise XOR of two scalar registers. -/
  | xor (p : Pred) (d : BitVec 5) (a : BitVec 5) (b : BitVec 5)
  /-- ANDN (R104). Writes A AND NOT B. -/
  | andn (p : Pred) (d : BitVec 5) (a : BitVec 5) (b : BitVec 5)
  /-- SHL (R104). Shifts A left by B modulo 64. -/
  | shl (p : Pred) (d : BitVec 5) (a : BitVec 5) (b : BitVec 5)
  /-- SHR (R104). Shifts A right logically by B modulo 64. -/
  | shr (p : Pred) (d : BitVec 5) (a : BitVec 5) (b : BitVec 5)
  /-- SAR (R104). Shifts A right arithmetically by B modulo 64. -/
  | sar (p : Pred) (d : BitVec 5) (a : BitVec 5) (b : BitVec 5)
  /-- ROR (R104). Rotates A right by B modulo 64. -/
  | ror (p : Pred) (d : BitVec 5) (a : BitVec 5) (b : BitVec 5)
  /-- MIN_S64 (R104). Writes the signed minimum of two registers. -/
  | minS64 (p : Pred) (d : BitVec 5) (a : BitVec 5) (b : BitVec 5)
  /-- MIN_Z64 (R104). Writes the unsigned minimum of two registers. -/
  | minZ64 (p : Pred) (d : BitVec 5) (a : BitVec 5) (b : BitVec 5)
  /-- MAX_S64 (R104). Writes the signed maximum of two registers. -/
  | maxS64 (p : Pred) (d : BitVec 5) (a : BitVec 5) (b : BitVec 5)
  /-- MAX_Z64 (R104). Writes the unsigned maximum of two registers. -/
  | maxZ64 (p : Pred) (d : BitVec 5) (a : BitVec 5) (b : BitVec 5)
  /-- ADDS_S64 (R104). Writes the signed sum clamped to the 64-bit range. -/
  | addsS64 (p : Pred) (d : BitVec 5) (a : BitVec 5) (b : BitVec 5)
  /-- SUBS_S64 (R104). Writes the signed difference clamped to the 64-bit range. -/
  | subsS64 (p : Pred) (d : BitVec 5) (a : BitVec 5) (b : BitVec 5)
  /-- MUL (R105). Writes the low 64 bits of the product. -/
  | mul (p : Pred) (d : BitVec 5) (a : BitVec 5) (b : BitVec 5)
  /-- MULH_S64 (R105). Writes the high half of the signed product. -/
  | mulhS64 (p : Pred) (d : BitVec 5) (a : BitVec 5) (b : BitVec 5)
  /-- MULH_Z64 (R105). Writes the high half of the unsigned product. -/
  | mulhZ64 (p : Pred) (d : BitVec 5) (a : BitVec 5) (b : BitVec 5)
  /-- DIV_S64 (R105). Writes the signed quotient truncated toward zero, all-ones on division by zero. -/
  | divS64 (p : Pred) (d : BitVec 5) (a : BitVec 5) (b : BitVec 5)
  /-- DIV_Z64 (R105). Writes the unsigned quotient, all-ones on division by zero. -/
  | divZ64 (p : Pred) (d : BitVec 5) (a : BitVec 5) (b : BitVec 5)
  /-- REM_S64 (R105). Writes the signed remainder, the dividend on division by zero. -/
  | remS64 (p : Pred) (d : BitVec 5) (a : BitVec 5) (b : BitVec 5)
  /-- REM_Z64 (R105). Writes the unsigned remainder, the dividend on division by zero. -/
  | remZ64 (p : Pred) (d : BitVec 5) (a : BitVec 5) (b : BitVec 5)
  /-- CLZ (R106). Counts leading zero bits. -/
  | clz (p : Pred) (d : BitVec 5) (a : BitVec 5)
  /-- CTZ (R106). Counts trailing zero bits. -/
  | ctz (p : Pred) (d : BitVec 5) (a : BitVec 5)
  /-- POPC (R106). Counts one bits. -/
  | popc (p : Pred) (d : BitVec 5) (a : BitVec 5)
  /-- BREV (R106). Reverses the bit order. -/
  | brev (p : Pred) (d : BitVec 5) (a : BitVec 5)
  /-- BSWAP (R106). Reverses the byte order. -/
  | bswap (p : Pred) (d : BitVec 5) (a : BitVec 5)
  /-- BFX_Z (R107). Extracts a zero-extended bit field described by B. -/
  | bfxZ (p : Pred) (d : BitVec 5) (a : BitVec 5) (b : BitVec 5)
  /-- BFX_S (R107). Extracts a sign-extended bit field described by B. -/
  | bfxS (p : Pred) (d : BitVec 5) (a : BitVec 5) (b : BitVec 5)
  /-- BFI (R107). Inserts A into a bit field of D described by B. -/
  | bfi (p : Pred) (d : BitVec 5) (a : BitVec 5) (b : BitVec 5)
  /-- EXT_S8 (R106). Sign-extends the low 8 bits. -/
  | extS8 (p : Pred) (d : BitVec 5) (a : BitVec 5)
  /-- EXT_S16 (R106). Sign-extends the low 16 bits. -/
  | extS16 (p : Pred) (d : BitVec 5) (a : BitVec 5)
  /-- EXT_S32 (R106). Sign-extends the low 32 bits. -/
  | extS32 (p : Pred) (d : BitVec 5) (a : BitVec 5)
  /-- EXT_Z8 (R106). Zero-extends the low 8 bits. -/
  | extZ8 (p : Pred) (d : BitVec 5) (a : BitVec 5)
  /-- EXT_Z16 (R106). Zero-extends the low 16 bits. -/
  | extZ16 (p : Pred) (d : BitVec 5) (a : BitVec 5)
  /-- EXT_Z32 (R106). Zero-extends the low 32 bits. -/
  | extZ32 (p : Pred) (d : BitVec 5) (a : BitVec 5)
  /-- CMP_EQ (R108). Writes all-ones or zero to a flag, optionally ANDed, if A equals B. -/
  | cmpEq (p : Pred) (d : BitVec 5) (a : BitVec 5) (b : BitVec 5)
  /-- CMP_NE (R108). Writes a flag for A not equal to B. -/
  | cmpNe (p : Pred) (d : BitVec 5) (a : BitVec 5) (b : BitVec 5)
  /-- CMP_LT_S64 (R108). Writes a flag for signed A less than B. -/
  | cmpLtS64 (p : Pred) (d : BitVec 5) (a : BitVec 5) (b : BitVec 5)
  /-- CMP_LT_Z64 (R108). Writes a flag for unsigned A less than B. -/
  | cmpLtZ64 (p : Pred) (d : BitVec 5) (a : BitVec 5) (b : BitVec 5)
  /-- CMP_LE_S64 (R108). Writes a flag for signed A at most B. -/
  | cmpLeS64 (p : Pred) (d : BitVec 5) (a : BitVec 5) (b : BitVec 5)
  /-- CMP_LE_Z64 (R108). Writes a flag for unsigned A at most B. -/
  | cmpLeZ64 (p : Pred) (d : BitVec 5) (a : BitVec 5) (b : BitVec 5)
  /-- ADDL (R109). Adds a zero-extended 15-bit immediate to D. -/
  | addl (p : Pred) (d : BitVec 5) (i : BitVec 15)
  /-- ADDI (R109). Adds a sign-extended 10-bit immediate to A. -/
  | addi (p : Pred) (d : BitVec 5) (a : BitVec 5) (i : BitVec 10)
  /-- ANDI (R109). ANDs A with a sign-extended 10-bit immediate. -/
  | andi (p : Pred) (d : BitVec 5) (a : BitVec 5) (i : BitVec 10)
  /-- ORI (R109). ORs A with a sign-extended 10-bit immediate. -/
  | ori (p : Pred) (d : BitVec 5) (a : BitVec 5) (i : BitVec 10)
  /-- XORI (R109). XORs A with a sign-extended 10-bit immediate. -/
  | xori (p : Pred) (d : BitVec 5) (a : BitVec 5) (i : BitVec 10)
  /-- SHLI (R109). Shifts A left by an immediate count. -/
  | shli (p : Pred) (d : BitVec 5) (a : BitVec 5) (c : BitVec 6)
  /-- SHRI (R109). Shifts A right logically by an immediate count. -/
  | shri (p : Pred) (d : BitVec 5) (a : BitVec 5) (c : BitVec 6)
  /-- SARI (R109). Shifts A right arithmetically by an immediate count. -/
  | sari (p : Pred) (d : BitVec 5) (a : BitVec 5) (c : BitVec 6)
  /-- RORI (R109). Rotates A right by an immediate count. -/
  | rori (p : Pred) (d : BitVec 5) (a : BitVec 5) (c : BitVec 6)
  /-- CMPI_EQ (R108). Writes a flag for A equal to a 7-bit signed immediate. -/
  | cmpiEq (p : Pred) (d : BitVec 5) (a : BitVec 5) (i : BitVec 7)
  /-- CMPI_NE (R108). Writes a flag for A not equal to the immediate. -/
  | cmpiNe (p : Pred) (d : BitVec 5) (a : BitVec 5) (i : BitVec 7)
  /-- CMPI_LT_S64 (R108). Writes a flag for signed A less than the immediate. -/
  | cmpiLtS64 (p : Pred) (d : BitVec 5) (a : BitVec 5) (i : BitVec 7)
  /-- CMPI_LT_Z64 (R108). Writes a flag for unsigned A less than the immediate. -/
  | cmpiLtZ64 (p : Pred) (d : BitVec 5) (a : BitVec 5) (i : BitVec 7)
  /-- CMPI_LE_S64 (R108). Writes a flag for signed A at most the immediate. -/
  | cmpiLeS64 (p : Pred) (d : BitVec 5) (a : BitVec 5) (i : BitVec 7)
  /-- CMPI_LE_Z64 (R108). Writes a flag for unsigned A at most the immediate. -/
  | cmpiLeZ64 (p : Pred) (d : BitVec 5) (a : BitVec 5) (i : BitVec 7)
  /-- CMPI_GT_S64 (R108). Writes a flag for signed A greater than the immediate. -/
  | cmpiGtS64 (p : Pred) (d : BitVec 5) (a : BitVec 5) (i : BitVec 7)
  /-- CMPI_GT_Z64 (R108). Writes a flag for unsigned A greater than the immediate. -/
  | cmpiGtZ64 (p : Pred) (d : BitVec 5) (a : BitVec 5) (i : BitVec 7)
  /-- LI (R109). Loads a sign-extended 15-bit immediate. -/
  | li (p : Pred) (d : BitVec 5) (i : BitVec 15)
  /-- LIS (R109). Shifts D left by 15 and ORs in a 15-bit immediate. -/
  | lis (p : Pred) (d : BitVec 5) (i : BitVec 15)
  /-- ADDPC (R109). Writes PC plus four times a signed 15-bit displacement. -/
  | addpc (p : Pred) (d : BitVec 5) (i : BitVec 15)
  /-- ADDPCH (R109). Writes the 32 KiB PC page plus a signed immediate shifted by 15. -/
  | addpch (p : Pred) (d : BitVec 5) (i : BitVec 15)
  /-- FADD_D (R111). Adds two FP64 values with one rounding. -/
  | faddD (p : Pred) (d : BitVec 5) (a : BitVec 5) (b : BitVec 5)
  /-- FSUB_D (R111). Subtracts two FP64 values. -/
  | fsubD (p : Pred) (d : BitVec 5) (a : BitVec 5) (b : BitVec 5)
  /-- FMUL_D (R111). Multiplies two FP64 values. -/
  | fmulD (p : Pred) (d : BitVec 5) (a : BitVec 5) (b : BitVec 5)
  /-- FDIV_D (R111). Divides two FP64 values over four rotations. -/
  | fdivD (p : Pred) (d : BitVec 5) (a : BitVec 5) (b : BitVec 5)
  /-- FSQRT_D (R111). Computes an FP64 square root. -/
  | fsqrtD (p : Pred) (d : BitVec 5) (a : BitVec 5)
  /-- FMIN_D (R111). Writes the FP64 minimumNumber. -/
  | fminD (p : Pred) (d : BitVec 5) (a : BitVec 5) (b : BitVec 5)
  /-- FMAX_D (R111). Writes the FP64 maximumNumber. -/
  | fmaxD (p : Pred) (d : BitVec 5) (a : BitVec 5) (b : BitVec 5)
  /-- FABS_D (R111). Clears the FP64 sign bit. -/
  | fabsD (p : Pred) (d : BitVec 5) (a : BitVec 5)
  /-- FNEG_D (R111). Inverts the FP64 sign bit. -/
  | fnegD (p : Pred) (d : BitVec 5) (a : BitVec 5)
  /-- FADD_F (R111). Adds two FP32 values. -/
  | faddF (p : Pred) (d : BitVec 5) (a : BitVec 5) (b : BitVec 5)
  /-- FSUB_F (R111). Subtracts two FP32 values. -/
  | fsubF (p : Pred) (d : BitVec 5) (a : BitVec 5) (b : BitVec 5)
  /-- FMUL_F (R111). Multiplies two FP32 values. -/
  | fmulF (p : Pred) (d : BitVec 5) (a : BitVec 5) (b : BitVec 5)
  /-- FDIV_F (R111). Divides two FP32 values over two rotations. -/
  | fdivF (p : Pred) (d : BitVec 5) (a : BitVec 5) (b : BitVec 5)
  /-- FSQRT_F (R111). Computes an FP32 square root. -/
  | fsqrtF (p : Pred) (d : BitVec 5) (a : BitVec 5)
  /-- FMIN_F (R111). Writes the FP32 minimumNumber. -/
  | fminF (p : Pred) (d : BitVec 5) (a : BitVec 5) (b : BitVec 5)
  /-- FMAX_F (R111). Writes the FP32 maximumNumber. -/
  | fmaxF (p : Pred) (d : BitVec 5) (a : BitVec 5) (b : BitVec 5)
  /-- FABS_F (R111). Clears the FP32 sign bit. -/
  | fabsF (p : Pred) (d : BitVec 5) (a : BitVec 5)
  /-- FNEG_F (R111). Inverts the FP32 sign bit. -/
  | fnegF (p : Pred) (d : BitVec 5) (a : BitVec 5)
  /-- FMA_D (R112). Computes D plus A times B in FP64 with one rounding. -/
  | fmaD (p : Pred) (d : BitVec 5) (a : BitVec 5) (b : BitVec 5)
  /-- FMS_D (R112). Computes D minus A times B in FP64 with one rounding. -/
  | fmsD (p : Pred) (d : BitVec 5) (a : BitVec 5) (b : BitVec 5)
  /-- FMA_F (R112). Computes D plus A times B in FP32 with one rounding. -/
  | fmaF (p : Pred) (d : BitVec 5) (a : BitVec 5) (b : BitVec 5)
  /-- FMS_F (R112). Computes D minus A times B in FP32 with one rounding. -/
  | fmsF (p : Pred) (d : BitVec 5) (a : BitVec 5) (b : BitVec 5)
  /-- FCMP_EQ_D (R113). Writes a flag for FP64 equality. -/
  | fcmpEqD (p : Pred) (d : BitVec 5) (a : BitVec 5) (b : BitVec 5)
  /-- FCMP_LT_D (R113). Writes a flag for FP64 less than. -/
  | fcmpLtD (p : Pred) (d : BitVec 5) (a : BitVec 5) (b : BitVec 5)
  /-- FCMP_LE_D (R113). Writes a flag for FP64 less or equal. -/
  | fcmpLeD (p : Pred) (d : BitVec 5) (a : BitVec 5) (b : BitVec 5)
  /-- FCMP_UN_D (R113). Writes a flag for FP64 unordered. -/
  | fcmpUnD (p : Pred) (d : BitVec 5) (a : BitVec 5) (b : BitVec 5)
  /-- FCMP_EQ_F (R113). Writes a flag for FP32 equality. -/
  | fcmpEqF (p : Pred) (d : BitVec 5) (a : BitVec 5) (b : BitVec 5)
  /-- FCMP_LT_F (R113). Writes a flag for FP32 less than. -/
  | fcmpLtF (p : Pred) (d : BitVec 5) (a : BitVec 5) (b : BitVec 5)
  /-- FCMP_LE_F (R113). Writes a flag for FP32 less or equal. -/
  | fcmpLeF (p : Pred) (d : BitVec 5) (a : BitVec 5) (b : BitVec 5)
  /-- FCMP_UN_F (R113). Writes a flag for FP32 unordered. -/
  | fcmpUnF (p : Pred) (d : BitVec 5) (a : BitVec 5) (b : BitVec 5)
  /-- CVT_F_D (R116). Converts FP64 to FP32. -/
  | cvtFD (p : Pred) (d : BitVec 5) (a : BitVec 5) (r : BitVec 5)
  /-- CVT_D_F (R116). Converts FP32 to FP64 exactly. -/
  | cvtDF (p : Pred) (d : BitVec 5) (a : BitVec 5)
  /-- CVT_D_S64 (R116). Converts a signed 64-bit integer to FP64. -/
  | cvtDS64 (p : Pred) (d : BitVec 5) (a : BitVec 5) (r : BitVec 5)
  /-- CVT_D_Z64 (R116). Converts an unsigned 64-bit integer to FP64. -/
  | cvtDZ64 (p : Pred) (d : BitVec 5) (a : BitVec 5) (r : BitVec 5)
  /-- CVT_S64_D (R116). Converts FP64 to a saturated signed integer. -/
  | cvtS64D (p : Pred) (d : BitVec 5) (a : BitVec 5) (r : BitVec 5)
  /-- CVT_Z64_D (R116). Converts FP64 to a saturated unsigned integer. -/
  | cvtZ64D (p : Pred) (d : BitVec 5) (a : BitVec 5) (r : BitVec 5)
  /-- CVT_F_S64 (R116). Converts a signed 64-bit integer to FP32. -/
  | cvtFS64 (p : Pred) (d : BitVec 5) (a : BitVec 5) (r : BitVec 5)
  /-- CVT_S64_F (R116). Converts FP32 to a saturated signed integer. -/
  | cvtS64F (p : Pred) (d : BitVec 5) (a : BitVec 5) (r : BitVec 5)
  /-- CVT_F_Z64 (R116). Converts an unsigned 64-bit integer to FP32. -/
  | cvtFZ64 (p : Pred) (d : BitVec 5) (a : BitVec 5) (r : BitVec 5)
  /-- CVT_Z64_F (R116). Converts FP32 to a saturated unsigned integer. -/
  | cvtZ64F (p : Pred) (d : BitVec 5) (a : BitVec 5) (r : BitVec 5)
  /-- FCLASS_D (R114). Writes a one-hot class of an FP64 value. -/
  | fclassD (p : Pred) (d : BitVec 5) (a : BitVec 5)
  /-- FCLASS_F (R114). Writes a one-hot class of an FP32 value. -/
  | fclassF (p : Pred) (d : BitVec 5) (a : BitVec 5)
  /-- BR (R119). Branches PC-relative by a 20-bit displacement. -/
  | br (p : Pred) (i : BitVec 20)
  /-- CALL (R119). Writes the return address to s1 and branches PC-relative. -/
  | call (p : Pred) (i : BitVec 20)
  /-- JMP (R119). Jumps to the address in A after target checks. -/
  | jmp (p : Pred) (a : BitVec 5)
  /-- CALLR (R119). Writes the return address to D and jumps to A. -/
  | callr (p : Pred) (d : BitVec 5) (a : BitVec 5)
  /-- LOOP (R119). Decrements D and branches while it is not zero. -/
  | loop (p : Pred) (d : BitVec 5) (i : BitVec 15)
  /-- BANY (R119). Branches if any bit of a flag is set. -/
  | bany (p : Pred) (g : BitVec 4) (i : BitVec 15)
  /-- BALL (R119). Branches if every bit of a flag is set. -/
  | ball (p : Pred) (g : BitVec 4) (i : BitVec 15)
  /-- MFS (R120). Reads a special register into a scalar register. -/
  | mfs (p : Pred) (d : BitVec 5) (c : BitVec 15)
  /-- MTS (R120). Writes a scalar register to a special register that has no behaviour of its own. -/
  | mts (p : Pred) (d : BitVec 5) (c : BitVec 15)
  /-- ERET (R123). Returns from trap mode to trap.pc after target checks. -/
  | eret (p : Pred)
  /-- BRK (R122). Raises BREAK, or stops the thread for a debugger. -/
  | brk (p : Pred)
  /-- HALT (R124). Waits for the thread's memory activity to finish and ends the thread. -/
  | halt (p : Pred)
  /-- DRAIN_ST (R126). Waits until every earlier store-queue entry is performed or recorded. -/
  | drainSt (p : Pred)
  /-- FENCE_I (R127). Drains stores, invalidates the instruction cache and refetches. -/
  | fenceI (p : Pred)
  /-- TLBW_WRITE_ENTRY (R282). TLBW OP 0 writes a second-level TLB entry and releases covered misses. -/
  | tlbwWriteEntry (p : Pred) (a : BitVec 5) (b : BitVec 5)
  /-- TLBW_INVALIDATE_PAGE (R282). TLBW OP 1 removes a page's entries of a context, unless pinned. -/
  | tlbwInvalidatePage (p : Pred) (a : BitVec 5) (b : BitVec 5)
  /-- TLBW_FAIL_MISS (R282). TLBW OP 2 fails an outstanding miss with the given cause. -/
  | tlbwFailMiss (p : Pred) (a : BitVec 5) (b : BitVec 5)
  /-- TLBW_INVALIDATE_CONTEXT (R282). TLBW OP 3 removes every page entry of a context. -/
  | tlbwInvalidateContext (p : Pred) (a : BitVec 5) (b : BitVec 5)
  /-- SLEEP (R129). Suspends a control-privileged thread until its slot's event bit is set. -/
  | sleep (p : Pred)
  /-- NOP (R125). Occupies one rotation with no effect. -/
  | nop (p : Pred)
  /-- TRAP (R122). Raises SOFT with a 10-bit code. -/
  | trap (p : Pred) (i : BitVec 10)
  /-- LD (R193). Reads 8 bytes ignoring the full/empty bit. -/
  | ld (p : Pred) (t : BitVec 5) (b : BitVec 5) (l : BitVec 4) (o : BitVec 6)
  /-- LD_S32 (R193). Reads 4 bytes sign-extended. -/
  | ldS32 (p : Pred) (t : BitVec 5) (b : BitVec 5) (l : BitVec 4) (o : BitVec 6)
  /-- LD_Z32 (R193). Reads 4 bytes zero-extended. -/
  | ldZ32 (p : Pred) (t : BitVec 5) (b : BitVec 5) (l : BitVec 4) (o : BitVec 6)
  /-- LD_S16 (R193). Reads 2 bytes sign-extended. -/
  | ldS16 (p : Pred) (t : BitVec 5) (b : BitVec 5) (l : BitVec 4) (o : BitVec 6)
  /-- LD_Z16 (R193). Reads 2 bytes zero-extended. -/
  | ldZ16 (p : Pred) (t : BitVec 5) (b : BitVec 5) (l : BitVec 4) (o : BitVec 6)
  /-- LD_S8 (R193). Reads 1 byte sign-extended. -/
  | ldS8 (p : Pred) (t : BitVec 5) (b : BitVec 5) (l : BitVec 4) (o : BitVec 6)
  /-- LD_Z8 (R193). Reads 1 byte zero-extended. -/
  | ldZ8 (p : Pred) (t : BitVec 5) (b : BitVec 5) (l : BitVec 4) (o : BitVec 6)
  /-- ST (R193). Queues an 8-byte plain store that leaves the bit unchanged. -/
  | st (p : Pred) (t : BitVec 5) (b : BitVec 5) (o : BitVec 6)
  /-- ST_32 (R193). Queues a 4-byte plain store. -/
  | st32 (p : Pred) (t : BitVec 5) (b : BitVec 5) (o : BitVec 6)
  /-- ST_16 (R193). Queues a 2-byte plain store. -/
  | st16 (p : Pred) (t : BitVec 5) (b : BitVec 5) (o : BitVec 6)
  /-- ST_8 (R193). Queues a 1-byte plain store. -/
  | st8 (p : Pred) (t : BitVec 5) (b : BitVec 5) (o : BitVec 6)
  /-- LD_W (R193). Waits until the word is full and reads it, an acquire. -/
  | ldW (p : Pred) (t : BitVec 5) (b : BitVec 5) (l : BitVec 4) (o : BitVec 6)
  /-- LD_T (R193). Waits until the word is full, reads it and empties it, an acquire. -/
  | ldT (p : Pred) (t : BitVec 5) (b : BitVec 5) (l : BitVec 4) (o : BitVec 6)
  /-- ST_F (R193). Waits until the word is empty, writes it and fills it, a release. -/
  | stF (p : Pred) (t : BitVec 5) (b : BitVec 5) (o : BitVec 6)
  /-- ST_S (R193). Writes the word and sets it full without waiting, a release. -/
  | stS (p : Pred) (t : BitVec 5) (b : BitVec 5) (o : BitVec 6)
  /-- FE_PROBE (R193). Reads the full/empty bit of a word. -/
  | feProbe (p : Pred) (t : BitVec 5) (b : BitVec 5) (l : BitVec 4) (o : BitVec 6)
  /-- FE_CLR (R193). Empties a word's full/empty bit, leaving its data. -/
  | feClr (p : Pred) (b : BitVec 5) (o : BitVec 6)
  /-- AMO_ADD (R201). Takes the word, adds the operand, fills it and returns the old value. -/
  | amoAdd (p : Pred) (x : BitVec 5) (y : BitVec 5) (l : BitVec 4)
  /-- AMO_AND (R201). Atomic AND returning the old value. -/
  | amoAnd (p : Pred) (x : BitVec 5) (y : BitVec 5) (l : BitVec 4)
  /-- AMO_OR (R201). Atomic OR returning the old value. -/
  | amoOr (p : Pred) (x : BitVec 5) (y : BitVec 5) (l : BitVec 4)
  /-- AMO_XOR (R201). Atomic XOR returning the old value. -/
  | amoXor (p : Pred) (x : BitVec 5) (y : BitVec 5) (l : BitVec 4)
  /-- AMO_MIN_S64 (R201). Atomic signed minimum returning the old value. -/
  | amoMinS64 (p : Pred) (x : BitVec 5) (y : BitVec 5) (l : BitVec 4)
  /-- AMO_MAX_S64 (R201). Atomic signed maximum returning the old value. -/
  | amoMaxS64 (p : Pred) (x : BitVec 5) (y : BitVec 5) (l : BitVec 4)
  /-- AMO_MIN_Z64 (R201). Atomic unsigned minimum returning the old value. -/
  | amoMinZ64 (p : Pred) (x : BitVec 5) (y : BitVec 5) (l : BitVec 4)
  /-- AMO_MAX_Z64 (R201). Atomic unsigned maximum returning the old value. -/
  | amoMaxZ64 (p : Pred) (x : BitVec 5) (y : BitVec 5) (l : BitVec 4)
  /-- AMO_SWAP (R201). Atomic swap returning the old value. -/
  | amoSwap (p : Pred) (x : BitVec 5) (y : BitVec 5) (l : BitVec 4)
  /-- AMO_CAS (R201). Atomic compare-and-swap with expected value in X and new value in X+1. -/
  | amoCas (p : Pred) (x : BitVec 4) (y : BitVec 5) (l : BitVec 4)
  /-- RED_ADD (R202). Hands an add reduction to the core's reduction agent. -/
  | redAdd (p : Pred) (x : BitVec 5) (y : BitVec 5)
  /-- RED_AND (R202). Hands an AND reduction to the reduction agent. -/
  | redAnd (p : Pred) (x : BitVec 5) (y : BitVec 5)
  /-- RED_OR (R202). Hands an OR reduction to the reduction agent. -/
  | redOr (p : Pred) (x : BitVec 5) (y : BitVec 5)
  /-- RED_MIN_S64 (R202). Hands a signed minimum reduction to the agent. -/
  | redMinS64 (p : Pred) (x : BitVec 5) (y : BitVec 5)
  /-- RED_MAX_S64 (R202). Hands a signed maximum reduction to the agent. -/
  | redMaxS64 (p : Pred) (x : BitVec 5) (y : BitVec 5)
  /-- RED_MIN_Z64 (R202). Hands an unsigned minimum reduction to the agent. -/
  | redMinZ64 (p : Pred) (x : BitVec 5) (y : BitVec 5)
  /-- RED_MAX_Z64 (R202). Hands an unsigned maximum reduction to the agent. -/
  | redMaxZ64 (p : Pred) (x : BitVec 5) (y : BitVec 5)
  /-- RFENCE (R203). Waits until the thread's pending reductions reach zero. -/
  | rfence (p : Pred)
  /-- CP_PLAIN (R209). Queues a copy that leaves destination bits unchanged. -/
  | cpPlain (p : Pred) (d : BitVec 5) (a : BitVec 5) (b : BitVec 5)
  /-- CP_COPY (R209). Queues a copy that carries full/empty bits. -/
  | cpCopy (p : Pred) (d : BitVec 5) (a : BitVec 5) (b : BitVec 5)
  /-- CP_FILL (R209). Queues a copy that sets destination words full. -/
  | cpFill (p : Pred) (d : BitVec 5) (a : BitVec 5) (b : BitVec 5)
  /-- CP_NEED (R209). Queues a copy that ends at the first empty source word. -/
  | cpNeed (p : Pred) (d : BitVec 5) (a : BitVec 5) (b : BitVec 5)
  /-- CP_TAKE (R209). Queues a copy that empties each source word. -/
  | cpTake (p : Pred) (d : BitVec 5) (a : BitVec 5) (b : BitVec 5)
  /-- CBATCH (R210). Closes the thread's queued copies into a numbered batch. -/
  | cbatch (p : Pred) (d : BitVec 5)
  /-- CWAIT (R210). Waits until copy batches up to the given number complete. -/
  | cwait (p : Pred) (a : BitVec 5)
  /-- XFENCE (R211). Waits until earlier accesses are performed so later engine commands see them. -/
  | xfence (p : Pred)
  /-- V_ADD (R133). Adds 32-bit lanes. -/
  | vAdd (p : Pred) (d : BitVec 5) (a : BitVec 5) (b : BitVec 5)
  /-- V_SUB (R133). Subtracts 32-bit lanes. -/
  | vSub (p : Pred) (d : BitVec 5) (a : BitVec 5) (b : BitVec 5)
  /-- V_MUL (R133). Multiplies lanes, low 32 bits. -/
  | vMul (p : Pred) (d : BitVec 5) (a : BitVec 5) (b : BitVec 5)
  /-- V_MULH_S32 (R133). Writes the high half of signed lane products. -/
  | vMulhS32 (p : Pred) (d : BitVec 5) (a : BitVec 5) (b : BitVec 5)
  /-- V_MULH_Z32 (R133). Writes the high half of unsigned lane products. -/
  | vMulhZ32 (p : Pred) (d : BitVec 5) (a : BitVec 5) (b : BitVec 5)
  /-- V_AND (R133). Lane-wise AND. -/
  | vAnd (p : Pred) (d : BitVec 5) (a : BitVec 5) (b : BitVec 5)
  /-- V_OR (R133). Lane-wise OR. -/
  | vOr (p : Pred) (d : BitVec 5) (a : BitVec 5) (b : BitVec 5)
  /-- V_XOR (R133). Lane-wise XOR. -/
  | vXor (p : Pred) (d : BitVec 5) (a : BitVec 5) (b : BitVec 5)
  /-- V_SHL (R133). Lane-wise shift left. -/
  | vShl (p : Pred) (d : BitVec 5) (a : BitVec 5) (b : BitVec 5)
  /-- V_SHR (R133). Lane-wise logical shift right. -/
  | vShr (p : Pred) (d : BitVec 5) (a : BitVec 5) (b : BitVec 5)
  /-- V_SAR (R133). Lane-wise arithmetic shift right. -/
  | vSar (p : Pred) (d : BitVec 5) (a : BitVec 5) (b : BitVec 5)
  /-- V_MIN_S32 (R133). Lane-wise signed minimum. -/
  | vMinS32 (p : Pred) (d : BitVec 5) (a : BitVec 5) (b : BitVec 5)
  /-- V_MIN_Z32 (R133). Lane-wise unsigned minimum. -/
  | vMinZ32 (p : Pred) (d : BitVec 5) (a : BitVec 5) (b : BitVec 5)
  /-- V_MAX_S32 (R133). Lane-wise signed maximum. -/
  | vMaxS32 (p : Pred) (d : BitVec 5) (a : BitVec 5) (b : BitVec 5)
  /-- V_MAX_Z32 (R133). Lane-wise unsigned maximum. -/
  | vMaxZ32 (p : Pred) (d : BitVec 5) (a : BitVec 5) (b : BitVec 5)
  /-- V_ADDS_S32 (R133). Lane-wise saturating signed add. -/
  | vAddsS32 (p : Pred) (d : BitVec 5) (a : BitVec 5) (b : BitVec 5)
  /-- V_SUBS_S32 (R133). Lane-wise saturating signed subtract. -/
  | vSubsS32 (p : Pred) (d : BitVec 5) (a : BitVec 5) (b : BitVec 5)
  /-- V_ABS_S32 (R133). Lane-wise signed absolute value. -/
  | vAbsS32 (p : Pred) (d : BitVec 5) (a : BitVec 5)
  /-- V_FADD_F (R134). FP32 lane add. -/
  | vFaddF (p : Pred) (d : BitVec 5) (a : BitVec 5) (b : BitVec 5)
  /-- V_FSUB_F (R134). FP32 lane subtract. -/
  | vFsubF (p : Pred) (d : BitVec 5) (a : BitVec 5) (b : BitVec 5)
  /-- V_FMUL_F (R134). FP32 lane multiply. -/
  | vFmulF (p : Pred) (d : BitVec 5) (a : BitVec 5) (b : BitVec 5)
  /-- V_FDIV_F (R134). FP32 lane divide over four rotations. -/
  | vFdivF (p : Pred) (d : BitVec 5) (a : BitVec 5) (b : BitVec 5)
  /-- V_FSQRT_F (R134). FP32 lane square root. -/
  | vFsqrtF (p : Pred) (d : BitVec 5) (a : BitVec 5)
  /-- V_FMIN_F (R134). FP32 lane minimumNumber. -/
  | vFminF (p : Pred) (d : BitVec 5) (a : BitVec 5) (b : BitVec 5)
  /-- V_FMAX_F (R134). FP32 lane maximumNumber. -/
  | vFmaxF (p : Pred) (d : BitVec 5) (a : BitVec 5) (b : BitVec 5)
  /-- V_FABS_F (R134). Clears lane sign bits. -/
  | vFabsF (p : Pred) (d : BitVec 5) (a : BitVec 5)
  /-- V_FNEG_F (R134). Inverts lane sign bits. -/
  | vFnegF (p : Pred) (d : BitVec 5) (a : BitVec 5)
  /-- V_FMA_F (R134). FP32 lane fused multiply-add into D. -/
  | vFmaF (p : Pred) (d : BitVec 5) (a : BitVec 5) (b : BitVec 5)
  /-- V_FMS_F (R134). FP32 lane fused multiply-subtract from D. -/
  | vFmsF (p : Pred) (d : BitVec 5) (a : BitVec 5) (b : BitVec 5)
  /-- V_FADD_H (R135). Packed FP16 add. -/
  | vFaddH (p : Pred) (d : BitVec 5) (a : BitVec 5) (b : BitVec 5)
  /-- V_FMUL_H (R135). Packed FP16 multiply. -/
  | vFmulH (p : Pred) (d : BitVec 5) (a : BitVec 5) (b : BitVec 5)
  /-- V_FMA_H (R135). Packed FP16 fused multiply-add. -/
  | vFmaH (p : Pred) (d : BitVec 5) (a : BitVec 5) (b : BitVec 5)
  /-- V_FADD_B (R135). Packed BF16 add. -/
  | vFaddB (p : Pred) (d : BitVec 5) (a : BitVec 5) (b : BitVec 5)
  /-- V_FMUL_B (R135). Packed BF16 multiply. -/
  | vFmulB (p : Pred) (d : BitVec 5) (a : BitVec 5) (b : BitVec 5)
  /-- V_FMA_B (R135). Packed BF16 fused multiply-add. -/
  | vFmaB (p : Pred) (d : BitVec 5) (a : BitVec 5) (b : BitVec 5)
  /-- V_FADD_D (R136). FP64 element add over four rotations. -/
  | vFaddD (p : Pred) (d : BitVec 5) (a : BitVec 5) (b : BitVec 5)
  /-- V_FSUB_D (R136). FP64 element subtract. -/
  | vFsubD (p : Pred) (d : BitVec 5) (a : BitVec 5) (b : BitVec 5)
  /-- V_FMUL_D (R136). FP64 element multiply. -/
  | vFmulD (p : Pred) (d : BitVec 5) (a : BitVec 5) (b : BitVec 5)
  /-- V_FMA_D (R136). FP64 element fused multiply-add. -/
  | vFmaD (p : Pred) (d : BitVec 5) (a : BitVec 5) (b : BitVec 5)
  /-- V_FMIN_D (R136). FP64 element minimumNumber. -/
  | vFminD (p : Pred) (d : BitVec 5) (a : BitVec 5) (b : BitVec 5)
  /-- V_FMAX_D (R136). FP64 element maximumNumber. -/
  | vFmaxD (p : Pred) (d : BitVec 5) (a : BitVec 5) (b : BitVec 5)
  /-- V_FDIV_D (R136). FP64 element divide over sixteen rotations. -/
  | vFdivD (p : Pred) (d : BitVec 5) (a : BitVec 5) (b : BitVec 5)
  /-- V_FSQRT_D (R136). FP64 element square root. -/
  | vFsqrtD (p : Pred) (d : BitVec 5) (a : BitVec 5)
  /-- V_CMP_EQ (R137). Writes flag bits for lane equality. -/
  | vCmpEq (p : Pred) (d : BitVec 5) (a : BitVec 5) (b : BitVec 5)
  /-- V_CMP_NE (R137). Writes flag bits for lane inequality. -/
  | vCmpNe (p : Pred) (d : BitVec 5) (a : BitVec 5) (b : BitVec 5)
  /-- V_CMP_LT_S32 (R137). Writes flag bits for signed lane less than. -/
  | vCmpLtS32 (p : Pred) (d : BitVec 5) (a : BitVec 5) (b : BitVec 5)
  /-- V_CMP_LT_Z32 (R137). Writes flag bits for unsigned lane less than. -/
  | vCmpLtZ32 (p : Pred) (d : BitVec 5) (a : BitVec 5) (b : BitVec 5)
  /-- V_CMP_LE_S32 (R137). Writes flag bits for signed lane less or equal. -/
  | vCmpLeS32 (p : Pred) (d : BitVec 5) (a : BitVec 5) (b : BitVec 5)
  /-- V_CMP_LE_Z32 (R137). Writes flag bits for unsigned lane less or equal. -/
  | vCmpLeZ32 (p : Pred) (d : BitVec 5) (a : BitVec 5) (b : BitVec 5)
  /-- V_FCMP_EQ_F (R137). Writes flag bits for FP32 lane equality. -/
  | vFcmpEqF (p : Pred) (d : BitVec 5) (a : BitVec 5) (b : BitVec 5)
  /-- V_FCMP_LT_F (R137). Writes flag bits for FP32 lane less than. -/
  | vFcmpLtF (p : Pred) (d : BitVec 5) (a : BitVec 5) (b : BitVec 5)
  /-- V_FCMP_LE_F (R137). Writes flag bits for FP32 lane less or equal. -/
  | vFcmpLeF (p : Pred) (d : BitVec 5) (a : BitVec 5) (b : BitVec 5)
  /-- V_FCMP_UN_F (R137). Writes flag bits for FP32 lane unordered. -/
  | vFcmpUnF (p : Pred) (d : BitVec 5) (a : BitVec 5) (b : BitVec 5)
  /-- V_CVT_F_S32 (R140). Converts signed 32-bit lanes to FP32. -/
  | vCvtFS32 (p : Pred) (d : BitVec 5) (a : BitVec 5) (r : BitVec 5)
  /-- V_CVT_S32_F (R140). Converts FP32 lanes to saturated signed 32-bit. -/
  | vCvtS32F (p : Pred) (d : BitVec 5) (a : BitVec 5) (r : BitVec 5)
  /-- V_CVT_H_F (R140). Narrows FP32 lanes to packed FP16. -/
  | vCvtHF (p : Pred) (d : BitVec 5) (a : BitVec 5) (r : BitVec 5)
  /-- V_CVT_F_H (R140). Widens FP16 elements to FP32 lanes. -/
  | vCvtFH (p : Pred) (d : BitVec 5) (a : BitVec 5)
  /-- V_CVT_B_F (R140). Narrows FP32 lanes to packed BF16. -/
  | vCvtBF (p : Pred) (d : BitVec 5) (a : BitVec 5) (r : BitVec 5)
  /-- V_CVT_F_B (R140). Widens BF16 elements to FP32 lanes. -/
  | vCvtFB (p : Pred) (d : BitVec 5) (a : BitVec 5)
  /-- V_CVT_E43_F (R140). Narrows FP32 lanes to E4M3 bytes. -/
  | vCvtE43F (p : Pred) (d : BitVec 5) (a : BitVec 5) (r : BitVec 5)
  /-- V_CVT_F_E43 (R140). Widens E4M3 bytes to FP32 lanes. -/
  | vCvtFE43 (p : Pred) (d : BitVec 5) (a : BitVec 5)
  /-- V_CVT_E52_F (R140). Narrows FP32 lanes to E5M2 bytes. -/
  | vCvtE52F (p : Pred) (d : BitVec 5) (a : BitVec 5) (r : BitVec 5)
  /-- V_CVT_F_E52 (R140). Widens E5M2 bytes to FP32 lanes. -/
  | vCvtFE52 (p : Pred) (d : BitVec 5) (a : BitVec 5)
  /-- V_CVT_D_F (R140). Widens FP32 lanes to FP64 elements. -/
  | vCvtDF (p : Pred) (d : BitVec 5) (a : BitVec 5)
  /-- V_CVT_F_D (R140). Narrows FP64 elements to FP32 lanes 0–15. -/
  | vCvtFD (p : Pred) (d : BitVec 5) (a : BitVec 5) (r : BitVec 5)
  /-- V_MOV (R141). Copies lanes, acting as a select under a predicate. -/
  | vMov (p : Pred) (d : BitVec 5) (a : BitVec 5)
  /-- V_BCAST (R141). Broadcasts the low 32 bits of a scalar to lanes. -/
  | vBcast (p : Pred) (d : BitVec 5) (a : BitVec 5)
  /-- V_PERM (R141). Permutes lanes by indices in B. -/
  | vPerm (p : Pred) (d : BitVec 5) (a : BitVec 5) (b : BitVec 5)
  /-- V_REV (R141). Reverses lane order. -/
  | vRev (p : Pred) (d : BitVec 5) (a : BitVec 5)
  /-- V_ROT (R141). Rotates lanes by a scalar count. -/
  | vRot (p : Pred) (d : BitVec 5) (a : BitVec 5) (b : BitVec 5)
  /-- V_INS (R141). Inserts a scalar into one lane. -/
  | vIns (p : Pred) (d : BitVec 5) (a : BitVec 5) (b : BitVec 5)
  /-- V_EXT (R142). Extracts one enabled lane into a scalar. -/
  | vExt (p : Pred) (d : BitVec 5) (a : BitVec 5) (b : BitVec 5)
  /-- V_FIRST (R142). Writes the lowest enabled lane, or all-ones if none. -/
  | vFirst (p : Pred) (d : BitVec 5) (a : BitVec 5)
  /-- V_RSUM_F (R143). Tree-sums FP32 lanes into a scalar. -/
  | vRsumF (p : Pred) (d : BitVec 5) (a : BitVec 5)
  /-- V_RSUM_S32 (R143). Tree-sums integer lanes into a scalar. -/
  | vRsumS32 (p : Pred) (d : BitVec 5) (a : BitVec 5)
  /-- V_RMIN_F (R143). Reduces FP32 lanes to their minimum. -/
  | vRminF (p : Pred) (d : BitVec 5) (a : BitVec 5)
  /-- V_RMAX_F (R143). Reduces FP32 lanes to their maximum. -/
  | vRmaxF (p : Pred) (d : BitVec 5) (a : BitVec 5)
  /-- V_RMIN_S32 (R143). Reduces lanes to their signed minimum. -/
  | vRminS32 (p : Pred) (d : BitVec 5) (a : BitVec 5)
  /-- V_RMAX_S32 (R143). Reduces lanes to their signed maximum. -/
  | vRmaxS32 (p : Pred) (d : BitVec 5) (a : BitVec 5)
  /-- V_RAND (R143). Reduces lanes by AND. -/
  | vRand (p : Pred) (d : BitVec 5) (a : BitVec 5)
  /-- V_RBOR (R143). Reduces lanes by OR. -/
  | vRbor (p : Pred) (d : BitVec 5) (a : BitVec 5)
  /-- V_RXOR (R143). Reduces lanes by XOR. -/
  | vRxor (p : Pred) (d : BitVec 5) (a : BitVec 5)
  /-- V_J4DEC (R145). Decodes one J4 block into FP32 lanes. -/
  | vJ4dec (p : Pred) (d : BitVec 5) (a : BitVec 5) (b : BitVec 5)
  /-- V_J4ENC (R147). Encodes FP32 lanes into one J4 block and side pair. -/
  | vJ4enc (p : Pred) (d : BitVec 5) (a : BitVec 5) (b : BitVec 5)
  /-- V_BADDQ (R148). Adds register-form J4 blocks and re-encodes them. -/
  | vBaddq (p : Pred) (d : BitVec 5) (a : BitVec 5) (r : BitVec 5)
  /-- V_LD (R149). Loads 128 contiguous bytes into a vector register. -/
  | vLd (p : Pred) (t : BitVec 5) (b : BitVec 5) (l : BitVec 4) (o : BitVec 6)
  /-- V_ST (R150). Queues a 128-byte contiguous vector store. -/
  | vSt (p : Pred) (t : BitVec 5) (b : BitVec 5) (o : BitVec 6)
  /-- V_LDS (R149). Loads lanes at a byte stride. -/
  | vLds (p : Pred) (x : BitVec 5) (y : BitVec 5) (l : BitVec 4) (s : BitVec 5)
  /-- V_STS (R150). Queues a strided vector store. -/
  | vSts (p : Pred) (x : BitVec 5) (y : BitVec 5) (s : BitVec 5)
  /-- V_GATHER (R149). Loads lanes at indexed addresses. -/
  | vGather (p : Pred) (x : BitVec 5) (y : BitVec 5) (l : BitVec 4) (k : BitVec 5)
  /-- V_SCATTER (R150). Queues an indexed vector store. -/
  | vScatter (p : Pred) (x : BitVec 5) (y : BitVec 5) (k : BitVec 5)
  /-- F_AND (R153). ANDs two flags bit by bit under the mask. -/
  | fAnd (p : Pred) (d : BitVec 5) (a : BitVec 5) (b : BitVec 5)
  /-- F_OR (R153). ORs two flags. -/
  | fOr (p : Pred) (d : BitVec 5) (a : BitVec 5) (b : BitVec 5)
  /-- F_XOR (R153). XORs two flags. -/
  | fXor (p : Pred) (d : BitVec 5) (a : BitVec 5) (b : BitVec 5)
  /-- F_ANDN (R153). Writes A AND NOT B on flags. -/
  | fAndn (p : Pred) (d : BitVec 5) (a : BitVec 5) (b : BitVec 5)
  /-- F_NOT (R153). Inverts a flag. -/
  | fNot (p : Pred) (d : BitVec 5) (a : BitVec 5)
  /-- F_SET (R153). Copies the low 32 bits of a scalar into a flag. -/
  | fSet (p : Pred) (d : BitVec 5) (a : BitVec 5)
  /-- F_GET (R154). Copies a masked flag into a scalar. -/
  | fGet (p : Pred) (d : BitVec 5) (a : BitVec 5)
  /-- F_POPC (R154). Counts the set bits of a masked flag. -/
  | fPopc (p : Pred) (d : BitVec 5) (a : BitVec 5)
  /-- PUB (R165). Opens the core's channel with the thread as publisher at a depth class. -/
  | pub (i : BitVec 10)
  /-- ENDPUB (R166). Closes the publication; members leave and fetch from the next PC. -/
  | endpub
  /-- SUBSCRIBE (R167). Subscribes the thread to a channel, waiting for a publisher. -/
  | subscribe (a : BitVec 5)
  /-- JOIN (R170). Returns an away thread to its channel at a rendezvous. -/
  | join (k : BitVec 5)
  /-- RDV (R171). Publisher waits until members have executed it and the away count is zero. -/
  | rdv (k : BitVec 5)
  /-- CH_SYNC (R168). Publisher waits until every member has executed it. -/
  | chSync
  /-- SQKILL (R173). Halts the publisher and members of a channel's squad. -/
  | sqkill (p : Pred) (a : BitVec 5)
  /-- LEAVE (R169). A member whose flag is set leaves the squad and fetches at the target. -/
  | leave (g : BitVec 4) (k : BitVec 5) (i : BitVec 10)
  /-- PORTCFG (R179). Writes port.cfg after core checks and outbound drain. -/
  | portcfg (p : Pred) (a : BitVec 5)
  /-- SEND (R184). Reserves space in a core's mailbox ring and reads the message. -/
  | send (p : Pred) (a : BitVec 5) (b : BitVec 5)
  /-- BTAG (R181). Branches if the inbound queue's head tag matches a key. -/
  | btag (p : Pred) (d : BitVec 5) (i : BitVec 15)
  /-- MX_CTX (R222). Checks and queues a new term-array format context. -/
  | mxCtx (p : Pred) (x : BitVec 5)
  /-- MX_LDB (R223). Queues a load of a B tile image into a weight-buffer slot. -/
  | mxLdb (p : Pred) (y : BitVec 5) (k : BitVec 5)
  /-- MX_SETB (R225). Queues recoding of a slot into a cell plane. -/
  | mxSetb (p : Pred) (q : BitVec 2) (k : BitVec 5)
  /-- MX_MMA (R227). Queues a matrix multiply of A rows into an accumulator tile. -/
  | mxMma (p : Pred) (x : BitVec 5) (y : BitVec 5) (q : BitVec 2) (w : BitVec 1)
  /-- MX_ZERO (R228). Queues clearing of an accumulator tile. -/
  | mxZero (p : Pred) (w : BitVec 1)
  /-- MX_DRAIN (R233). Queues a converted drain of a tile through the handler. -/
  | mxDrain (p : Pred) (x : BitVec 5) (y : BitVec 5) (w : BitVec 1)
  /-- MX_DRAIN_RAW (R233). Queues a raw 36-bit drain of a tile through the handler. -/
  | mxDrainRaw (p : Pred) (x : BitVec 5) (y : BitVec 5) (w : BitVec 1)
  /-- HRESV (R232). Reserves a vacant slot of the core for drain handlers. -/
  | hresv (p : Pred) (x : BitVec 5) (l : BitVec 4)
  /-- ROWOUT (R236). Writes the handler's row v0–v7 and ends the row. -/
  | rowout (p : Pred) (x : BitVec 5) (y : BitVec 5)
  /-- MX_BATCH (R238). Closes the thread's queued commands into a batch. -/
  | mxBatch (p : Pred) (x : BitVec 5) (l : BitVec 4)
  /-- MX_WAIT (R238). Waits until command batches up to n complete. -/
  | mxWait (p : Pred) (x : BitVec 5)
  /-- MX_CNT (R231). Queues a read of a column group's term counters into a vector register. -/
  | mxCnt (p : Pred) (x : BitVec 5) (l : BitVec 4) (g : BitVec 4)
  /-- BAR_CFG (R260). Sends a new count to a cluster barrier. -/
  | barCfg (p : Pred) (a : BitVec 5) (k : BitVec 4)
  /-- BAR_ARRIVE (R261). Sends one release arrival to a barrier and continues. -/
  | barArrive (p : Pred) (k : BitVec 4)
  /-- BAR_WAIT (R262). Waits for the pending or current generation to complete. -/
  | barWait (p : Pred) (k : BitVec 4)
  /-- BAR_SYNC (R263). Arrives unless already pending, then waits. -/
  | barSync (p : Pred) (k : BitVec 4)
  /-- TICKET (R267). Claims and increments a full ticket word. -/
  | ticket (p : Pred) (x : BitVec 5) (y : BitVec 5) (l : BitVec 4)
  /-- TICKET_BC (R268). Claims a ticket and broadcasts it to tkt.last of the cluster. -/
  | ticketBc (p : Pred) (x : BitVec 5) (y : BitVec 5) (l : BitVec 4)
  /-- FENCE_S (R257). Waits for earlier accesses and takes a place in the fence order for a scope. -/
  | fenceS (p : Pred) (a : BitVec 5)
  /-- GO (R293). Migrates the thread to the arrival core of an address. -/
  | go (p : Pred) (a : BitVec 5)
  /-- LAUNCH (R298). Posts a launch record and waits for the dispatcher to accept it. -/
  | launch (p : Pred) (d : BitVec 5) (a : BitVec 5)
  /-- IDEM_BEGIN (R307). Enters an idempotent region with a snapshot and output window. -/
  | idemBegin (p : Pred) (a : BitVec 5)
  /-- IDEM_END (R307). Leaves the idempotent region. -/
  | idemEnd (p : Pred)
  /-- XFER (R371). Checks a transfer descriptor and hands it to an I/O-die engine. -/
  | xfer (p : Pred) (x : BitVec 5)
  /-- BQ_POP (R378). Claims the next ready block index of a block queue. -/
  | bqPop (p : Pred) (x : BitVec 5) (y : BitVec 5) (l : BitVec 4)
  /-- ROTATION (R157). Each rotation places every slot in one class and counts it. -/
  | rotation
  /-- CHANNEL_INSTRUCTION_DUE (R162). A published instruction becomes due to a member d rotations after issue. -/
  | channelInstructionDue (m : ThreadRef)
  /-- RESULT_WRITE (R21). An outstanding register result arrives and is written. -/
  | resultWrite (t : ThreadRef) (id : Nat)
  /-- STORE_FAULT (R206). An undelivered store-fault record is delivered at the thread's next issue. -/
  | storeFault (t : ThreadRef)
  /-- WITHDRAWAL (R198). An exhausted fe.budget sends a withdrawal for the parked request. -/
  | withdrawal (id : Nat)
  /-- WITHDRAWAL_ARRIVAL (R198). A withdrawal reaches the holder, which removes the request if still queued. -/
  | withdrawalArrival (id : Nat)
  /-- FE_TIMEOUT (R198). The holder's withdrawal confirmation returns and the thread traps. -/
  | feTimeout (id : Nat)
  /-- FE_TIMEOUT_REPORT (R306). The dispatcher resumes eligible lower-priority saved bands on an FE_TIMEOUT. -/
  | feTimeoutReport (prio : Nat)
  /-- CH_TIMEOUT (R387). An exhausted ch.budget raises CH_TIMEOUT. -/
  | chTimeout (t : ThreadRef)
  /-- BAR_TIMEOUT (R262). An exhausted bar.budget raises BAR_TIMEOUT. -/
  | barTimeout (t : ThreadRef)
  /-- CONDITIONAL_REQUEST_ARRIVAL (R195). A full/empty request reaches its holder and is performed or queued. -/
  | conditionalRequestArrival (id : Nat)
  /-- PARK_RESEND (R286). A request refused for a full park list is resent by the requester. -/
  | parkResend (id : Nat)
  /-- PLAIN_ACCESS_ARRIVAL (R193). A plain, ST.S, FE.CLR or FE.PROBE access is performed at its holder. -/
  | plainAccessArrival (id : Nat) (lane : Nat)
  /-- ATOMIC_TAKE_GRANT (R201). An atomic's take is granted, the core computes and sends the fill. -/
  | atomicTakeGrant (id : Nat)
  /-- ATOMIC_FILL_ARRIVAL (R196). An atomic's fill ends its hold and releases deferred requests. -/
  | atomicFillArrival (id : Nat)
  /-- REDUCTION_PERFORM (R202). The reduction agent takes, computes and fills a word or records a fault. -/
  | reductionPerform (id : Nat)
  /-- STORE_LEAVE (R204). The oldest store-queue entry leaves for its checks. -/
  | storeLeave (t : ThreadRef)
  /-- STORE_CHECK (R204). A departed store finishes translation checks and is performed or recorded. -/
  | storeCheck (t : ThreadRef)
  /-- TLB_MISS (R280). The translation unit sends a miss message to the service core's ring. -/
  | tlbMiss (unit : Nat)
  /-- COPY_WORD (R209). The copy unit moves one word of a copy or ends it with a record. -/
  | copyWord (core : Nat) (id : Nat)
  /-- MBOX_RESERVE (R185). Space for a message is reserved in a mailbox ring, with a PAD if wrapping. -/
  | mboxReserve (t : ThreadRef)
  /-- MBOX_DELIVERY (R184). The mailbox unit writes payload words then fills the header. -/
  | mboxDelivery (core : Nat)
  /-- PORT_WORD_ACCEPT (R180). An outbound port word is accepted into the receiver's inbound queue. -/
  | portWordAccept (t : ThreadRef)
  /-- PUB_ACCEPT (R165). A waiting PUB opens the freed channel. -/
  | pubAccept (t : ThreadRef)
  /-- RDV_COMPLETE (R171). A rendezvous completes and releases waiting JOINs. -/
  | rdvComplete (t : ThreadRef)
  /-- CH_SYNC_COMPLETE (R168). A channel sync completes and the publisher resumes. -/
  | chSyncComplete (t : ThreadRef)
  /-- PUBLICATION_END (R178). A publication ends without ENDPUB and members resume at the resume PC. -/
  | publicationEnd (core : Nat)
  /-- SQKILL_TARGET_HALT (R173). A squad target halts at its boundary after SQKILL's cut-off. -/
  | sqkillTargetHalt (t : ThreadRef)
  /-- ARRAY_GRANT (R220). The term array grants the next ready array command round-robin. -/
  | arrayGrant (cluster : Nat) (hold : Nat)
  /-- POWER_HOLD (R220). A power hold placed before a grant expires. -/
  | powerHold (cluster : Nat)
  /-- MX_CTX_APPLY (R221). A queued format context applies on reaching the queue head. -/
  | mxCtxApply (core : Nat)
  /-- MX_ZERO_BEGIN (R228). A queued MX.ZERO begins and clears the tile. -/
  | mxZeroBegin (core : Nat)
  /-- MX_LDB_LOAD (R223). A queued MX.LDB reads a B image into its slot or fails it. -/
  | mxLdbLoad (core : Nat)
  /-- MX_SETB_COMPLETE (R225). MX.SETB's last step replaces the plane's cells, tag and step table. -/
  | mxSetbComplete (cluster : Nat)
  /-- MX_MMA_COMPLETE (R221). An MX.MMA completes with every element and counter written. -/
  | mxMmaComplete (cluster : Nat)
  /-- MX_CNT_WRITE (R231). A queued MX.CNT writes the counters into its vector register. -/
  | mxCntWrite (core : Nat)
  /-- DRAIN_ROW_ENTER (R233). A tile row enters the drain buffer when it has room. -/
  | drainRowEnter (core : Nat)
  /-- DRAIN_DISPATCH (R235). A buffered row is dispatched to the idle handler thread. -/
  | drainDispatch (core : Nat)
  /-- DRAIN_DONE_FILL (R236). After all ROWOUT writes the array fills the done word. -/
  | drainDoneFill (core : Nat)
  /-- DRAIN_FAIL (R237). A failed write or halted handler ends the drain with FAIL. -/
  | drainFail (core : Nat)
  /-- BAR_CFG_ARRIVAL (R260). A BAR.CFG reaches the barrier unit and sets the count or next count. -/
  | barCfgArrival (id : Nat)
  /-- BARRIER_ARRIVAL (R261). An arrival reaches the barrier unit and may complete the generation. -/
  | barrierArrival (id : Nat)
  /-- PENNANT_RECORD_WRITE (R271). A held pennant is written once its log record is freed. -/
  | pennantRecordWrite (cluster : Nat) (unit : Nat)
  /-- POST (R324). A host write to POST posts a launch record and sets POSTSTAT. -/
  | post (ctx : Nat) (size : Nat) (a : (BitVec 64))
  /-- LAUNCH_ACCEPT (R298). The dispatcher accepts a posted launch and assigns its number. -/
  | launchAccept
  /-- BAND_PLACE (R299). The dispatcher places a pending band on qualifying cores. -/
  | bandPlace
  /-- BAND_START (R301). A fully granted band starts its threads in one rotation. -/
  | bandStart (b : BandRef)
  /-- PREEMPT (R303). The dispatcher pre-empts victim bands for a higher-priority band. -/
  | preempt
  /-- BAND_SAVE (R310). A victim band's threads and cores are saved to the save area. -/
  | bandSave (b : BandRef)
  /-- BAND_RESUME (R305). A saved band resumes on its original cores and slots. -/
  | bandResume (b : BandRef)
  /-- BAND_END (R316). A band whose threads and work are done releases its grants. -/
  | bandEnd (b : BandRef)
  /-- LAUNCH_END (R317). A finished or lost launch has its STATUS filled. -/
  | launchEnd (l : LaunchRef)
  /-- MIGRATION_DEPARTURE (R289). A migrating thread drains and sends its carry set as one packet. -/
  | migrationDeparture (t : ThreadRef)
  /-- MIGRATION_ARRIVAL (R292). A migration packet enters the core's arrival queue or the overflow ring. -/
  | migrationArrival (id : Nat)
  /-- MIGRATION_INSTALL (R292). The head packet is installed in the lowest free slot. -/
  | migrationInstall (core : Nat)
  /-- OVERFLOW_REFILL (R292). A packet moves from the overflow ring to its core's queue. -/
  | overflowRefill (die : Nat)
  /-- PORT_CFG_WRITE (R179). An MTS to port.cfg acts as PORTCFG. -/
  | portCfgWrite (t : ThreadRef) (v : (BitVec 64))
  /-- RNG_WRITE (R120). An MTS to rng stores the value, or 1 when it is 0. -/
  | rngWrite (t : ThreadRef) (v : (BitVec 64))
  /-- MBOX_BASE_WRITE (R182). A write to mbox.base or mbox.size resets HEAD and TAIL after delivery. -/
  | mboxBaseWrite (core : Nat)
  /-- MBOX_HEAD_WRITE (R182). A write to mbox.head below SIZE advances the consumer offset. -/
  | mboxHeadWrite (core : Nat) (v : (BitVec 64))
  /-- CTX_ACTIVATE (R330). A ctl.ctxact write with bit 63 activates a context entry after checks. -/
  | ctxActivate
  /-- CTX_DEACTIVATE (R330). A ctl.ctxact write without bit 63 deactivates a context. -/
  | ctxDeactivate
  /-- CTL_EVPEND_CLEAR (R334). A write of ones to ctl.evpend clears pending event bits. -/
  | ctlEvpendClear (t : ThreadRef) (v : (BitVec 64))
  /-- CTL_TIMER_WRITE (R334). A write to ctl.timer arms or disarms the slot's timer. -/
  | ctlTimerWrite (t : ThreadRef) (v : (BitVec 64))
  /-- TIMER (R335). The beat reaches ctl.timer and TIMER is posted. -/
  | timer (t : ThreadRef)
  /-- PWR_FSTEP_WRITE (R320). A write to pwr.fstep sets the beat-group frequency step. -/
  | pwrFstepWrite
  /-- ERR_COUNT_READ (R334). A read of err.corr or err.uncorr returns and clears the count. -/
  | errCountRead (t : ThreadRef) (uncorr : Bool) (d : (BitVec 5))
  /-- KEY_GENERATE (R337). key.cmd OP 0 fills a key slot from the random source. -/
  | keyGenerate
  /-- KEY_ERASE (R337). key.cmd OP 1 zeroes and invalidates a key slot. -/
  | keyErase
  /-- POWER_CHECK (R353). Every 1,024 rotations measured power is compared and the step lowered if over. -/
  | powerCheck (watts : Nat) (temp : Nat)
  /-- CURRENT_TRIP (R342). Rail current over limit for 10 µs forces step 0. -/
  | currentTrip
  /-- THERMAL_TRIP (R342). A sensor at 115 °C removes package power. -/
  | thermalTrip
  /-- COLD_RESET (R355). Power-on reset of the whole package. -/
  | coldReset
  /-- PACKAGE_RESET (R355). Resets every die, keeping far memory and accepted launches. -/
  | packageReset
  /-- DIE_RESET (R355). Resets one compute die while others run on. -/
  | dieReset (die : Nat)
  /-- BOOT_STAGE (R356). Bring-up advances BOOTSTAT to the next stage. -/
  | bootStage (images : List BootImage) (trained tested : Bool)
  /-- DIE_FENCE (R351). An irrecoverably failed die is fenced and its bands lost. -/
  | dieFence (die : Nat)
  /-- SCRUB (R349). Near and far memory are scrubbed every 24 hours. -/
  | scrub
  /-- PROFILER_SUM (R346). Every 65,536 rotations counters are summed per context. -/
  | profilerSum (die : Nat)
  /-- DEBUG_CHALLENGE (R344). The debug window requests a random challenge. -/
  | debugChallenge
  /-- DEBUG_SIGNATURE (R344). A signature write is checked and may unlock firmware debug. -/
  | debugSignature (sig : (List (BitVec 8)))
  /-- DEBUG_STOP (R343). A kernel debug session stops a thread at its next boundary. -/
  | debugStop (t : ThreadRef)
  /-- DEBUG_IMAGE_ACCESS (R343). A session reads or writes a stopped thread's save image. -/
  | debugImageAccess (t : ThreadRef) (off : Nat) (wr : (Option (BitVec 64)))
  /-- DEBUG_RESUME (R343). A session resumes a stopped thread. -/
  | debugResume (t : ThreadRef)
  /-- BREAKPOINT_SET (R343). A session sets a PC breakpoint for a context. -/
  | breakpointSet (ctx : Nat) (idx : Nat) (pc : (Option (BitVec 64)))
  /-- DOORBELL (R323). A write to the firmware mailbox doorbell posts HOST. -/
  | doorbell
  /-- HDM_PLAIN_WRITE (R326). A host write through the plain alias writes data only. -/
  | hdmPlainWrite (port : Nat) (o : Nat) (data : (List (BitVec 8)))
  /-- HDM_FILL_WRITE (R326). A host write through the fill alias writes and sets full, a release. -/
  | hdmFillWrite (port : Nat) (o : Nat) (data : (List (BitVec 8)))
  /-- HDM_EMPTY_WRITE (R326). A host write through the empty alias writes and sets empty. -/
  | hdmEmptyWrite (port : Nat) (o : Nat) (data : (List (BitVec 8)))
  /-- HDM_READ (R326). A host read of the aperture returns data ignoring the bit. -/
  | hdmRead (port : Nat) (o : Nat) (size : Nat)
  /-- BAR2_ACCESS (R322). A host access through BAR2 reaches the far-memory aperture plainly. -/
  | bar2Access (port : Nat) (o : Nat) (size : Nat) (wr : (Option (List (BitVec 8))))
  /-- LINK_INIT (R357). A fabric link comes up and peers exchange fabric identities. -/
  | linkInit (port : Nat) (peer : (BitVec 16))
  /-- FLIT_RECEIVE (R359). A received flit is accepted in order or dropped with a NAK. -/
  | flitReceive (port : Nat) (flit : (List (BitVec 8)))
  /-- NAK (R359). A received NAK makes the sender replay from ACK + 1. -/
  | nak (port : Nat) (ack : (BitVec 12))
  /-- LINK_FAIL (R359). A link without progress for 2^20 rotations is declared failed. -/
  | linkFail (port : Nat)
  /-- FAB_LOAD (R368). A remote load request is performed at the home. -/
  | fabLoad (tx : FabTx)
  /-- FAB_STORE (R368). A remote plain store request is performed at the home. -/
  | fabStore (tx : FabTx)
  /-- FAB_LD_W (R368). A remote LD.W parks at the home's holder. -/
  | fabLdW (tx : FabTx)
  /-- FAB_LD_T (R368). A remote LD.T parks at the home's holder. -/
  | fabLdT (tx : FabTx)
  /-- FAB_ST_F (R368). A remote ST.F parks at the home's holder. -/
  | fabStF (tx : FabTx)
  /-- FAB_ST_S (R368). A remote ST.S is performed at the home. -/
  | fabStS (tx : FabTx)
  /-- FAB_FE_CLR (R368). A remote FE.CLR is performed at the home. -/
  | fabFeClr (tx : FabTx)
  /-- FAB_FE_PROBE (R368). A remote FE.PROBE is performed at the home. -/
  | fabFeProbe (tx : FabTx)
  /-- FAB_AMO (R368). A remote atomic is taken, computed and filled at the home once. -/
  | fabAmo (tx : FabTx)
  /-- FAB_RED (R368). A remote reduction is performed at the home. -/
  | fabRed (tx : FabTx)
  /-- FAB_WITHDRAW (R368). A remote withdraw removes a parked request or returns its reply. -/
  | fabWithdraw (tx : FabTx)
  /-- FAB_REPLY (R362). A reply reaches the source and completes the request. -/
  | fabReply (tx : FabTx)
  /-- FAB_TMO (R363). A request's TMO expires and it is resent or abandoned. -/
  | fabTmo (id : Nat)
  /-- XFER_WRITE (R361). A bulk XFER write transaction is performed at the home. -/
  | xferWrite (tx : FabTx)
  /-- XFER_READ (R361). A bulk XFER read transaction is served at the home. -/
  | xferRead (tx : FabTx)
  /-- XFER_READ_DATA (R361). XFER read data arrives at the engine. -/
  | xferReadData (tx : FabTx)
  /-- XFER_COMPLETE (R372). After all element writes the engine fills the completion word. -/
  | xferComplete (id : Nat)
  /-- XFER_FAIL (R374). An XFER stops at a failing element and records the failure. -/
  | xferFail (id : Nat)
  /-- MASTHEAD_POST (R377). The masthead dispatcher takes MHPOST and places the band. -/
  | mastheadPost (ctx : Nat)
  /-- GANG_POST (R380). The gang unit takes GPOST and sends prepares. -/
  | gangPost (ctx : Nat)
  /-- PREPARE (R380). A member checks and keeps a prepared record and acknowledges. -/
  | prepare (tx : FabTx)
  /-- ACKNOWLEDGE (R380). The leader collects a member acknowledgement and may decide commit. -/
  | acknowledge (tx : FabTx)
  /-- GANG_TIMEOUT (R380). TIMEOUT without all acknowledgements fills DECISION with abort. -/
  | gangTimeout (gang : Nat)
  /-- COMMIT (R380). A member posts its prepared record on commit. -/
  | commit (tx : FabTx)
  /-- ABORT (R380). A member discards its prepared record and fills STATUS. -/
  | abort (tx : FabTx)
  /-- QUERY (R382). The leader answers a member query with DECISION or pending. -/
  | query (tx : FabTx)
  /-- GANG_QUERY_TIMER (R382). A member without a decision sends query every TIMEOUT. -/
  | gangQueryTimer (idx : Nat)
  /-- DECISION (R382). A member receives the leader's decision answer. -/
  | decision (tx : FabTx)
  /-- RETIRE (R361). A gang retire control transaction is received. -/
  | retire (tx : FabTx)
  /-- INSTRUCTION_FETCH (R156). An instruction word missed in the instruction cache, or waiting on a not-present page, arrives and the slot may issue again or take a fetch fault at the target. -/
  | instructionFetch (t : ThreadRef)
  /-- HOST_WRITE_ACK (R257). The host acknowledges an earlier device write to host memory, releasing a FENCE.S with SYS that waits for it. -/
  | hostWriteAck (id : Nat)
  /-- XFER_ELEMENT (R372). The I/O-die engine reads one source element of an XFER and writes it at its destination, or requantises a J4 block, in device memory. -/
  | xferElement (id : Nat)
  /-- DECISION_REPEAT (R380). The leader's gang unit sends commit or abort again to a member that has not yet acknowledged it. -/
  | decisionRepeat (gang : Nat) (member : Nat)
  deriving DecidableEq, Repr

end Sys2Proof
end

