-- ==== Sys2Proof/WellFormed.lean ====
section
/-! DEFINITION. The limits on field values that R38 makes part of an encoding: a legal predicate (R15), flag numbers
(R20), rounding fields (R30, R115, R138), assigned special-register numbers (R69, R70, R182, R334), the depth classes
of PUB (R165) and LOOP's counter (R119). A word whose fields break them raises ILL. -/

namespace Sys2Proof

/-- The legal predicates of R15. -/
def Pred.legal (p : Pred) : Bool := p.f.toNat ≤ 11 || (p.f == 15 && p.n == 0)

/-- A flag register number (R20): f0-f11. -/
def flagOk (r : Nat) : Bool := r ≤ 11

/-- The flag destination of a compare (R20): D[3:0] names the flag, D[4] asks for the AND with its old value. -/
def cmpDestOk (d : BitVec 5) : Bool := flagOk (d.toNat % 16)

/-- The special-register numbers assigned in R70, R182 and R334; any other number raises ILL (R69, R334). DEDUCED: log 29. -/
def sregAssigned (c : Nat) : Bool :=
  c ≤ 0x009 || (0x010 ≤ c && c ≤ 0x015) || (0x020 ≤ c && c ≤ 0x02D) || c == 0x030 || c == 0x031
  || (0x040 ≤ c && c ≤ 0x044) || (0x048 ≤ c && c ≤ 0x04B) || (0x060 ≤ c && c ≤ 0x063)
  || (0x080 ≤ c && c ≤ 0x083) || (0x088 ≤ c && c ≤ 0x090) || (0x0A0 ≤ c && c ≤ 0x0A9)
  || (0x100 ≤ c && c ≤ 0x13F)
  || (0x4000 ≤ c && c ≤ 0x4005) || (0x4010 ≤ c && c ≤ 0x4013) || c == 0x4020 || c == 0x4030 || c == 0x4031
  || c == 0x4040 || c == 0x4050 || c == 0x4051

/-- The depth classes of PUB (R165). -/
def depthOk (d : Nat) : Bool := d == 1 || d == 2 || d == 4 || d == 12

/-- Whether an instruction's fields are within the limits of R38. An event is no word and has no limits. -/
def wf : Instr → Bool
  | .add p _ _ _ => p.legal
  | .sub p _ _ _ => p.legal
  | .and p _ _ _ => p.legal
  | .or p _ _ _ => p.legal
  | .xor p _ _ _ => p.legal
  | .andn p _ _ _ => p.legal
  | .shl p _ _ _ => p.legal
  | .shr p _ _ _ => p.legal
  | .sar p _ _ _ => p.legal
  | .ror p _ _ _ => p.legal
  | .minS64 p _ _ _ => p.legal
  | .minZ64 p _ _ _ => p.legal
  | .maxS64 p _ _ _ => p.legal
  | .maxZ64 p _ _ _ => p.legal
  | .addsS64 p _ _ _ => p.legal
  | .subsS64 p _ _ _ => p.legal
  | .mul p _ _ _ => p.legal
  | .mulhS64 p _ _ _ => p.legal
  | .mulhZ64 p _ _ _ => p.legal
  | .divS64 p _ _ _ => p.legal
  | .divZ64 p _ _ _ => p.legal
  | .remS64 p _ _ _ => p.legal
  | .remZ64 p _ _ _ => p.legal
  | .clz p _ _ => p.legal
  | .ctz p _ _ => p.legal
  | .popc p _ _ => p.legal
  | .brev p _ _ => p.legal
  | .bswap p _ _ => p.legal
  | .bfxZ p _ _ _ => p.legal
  | .bfxS p _ _ _ => p.legal
  | .bfi p _ _ _ => p.legal
  | .extS8 p _ _ => p.legal
  | .extS16 p _ _ => p.legal
  | .extS32 p _ _ => p.legal
  | .extZ8 p _ _ => p.legal
  | .extZ16 p _ _ => p.legal
  | .extZ32 p _ _ => p.legal
  | .cmpEq p d _ _ => p.legal && cmpDestOk d
  | .cmpNe p d _ _ => p.legal && cmpDestOk d
  | .cmpLtS64 p d _ _ => p.legal && cmpDestOk d
  | .cmpLtZ64 p d _ _ => p.legal && cmpDestOk d
  | .cmpLeS64 p d _ _ => p.legal && cmpDestOk d
  | .cmpLeZ64 p d _ _ => p.legal && cmpDestOk d
  | .addl p _ _ => p.legal
  | .addi p _ _ _ => p.legal
  | .andi p _ _ _ => p.legal
  | .ori p _ _ _ => p.legal
  | .xori p _ _ _ => p.legal
  | .shli p _ _ _ => p.legal
  | .shri p _ _ _ => p.legal
  | .sari p _ _ _ => p.legal
  | .rori p _ _ _ => p.legal
  | .cmpiEq p d _ _ => p.legal && cmpDestOk d
  | .cmpiNe p d _ _ => p.legal && cmpDestOk d
  | .cmpiLtS64 p d _ _ => p.legal && cmpDestOk d
  | .cmpiLtZ64 p d _ _ => p.legal && cmpDestOk d
  | .cmpiLeS64 p d _ _ => p.legal && cmpDestOk d
  | .cmpiLeZ64 p d _ _ => p.legal && cmpDestOk d
  | .cmpiGtS64 p d _ _ => p.legal && cmpDestOk d
  | .cmpiGtZ64 p d _ _ => p.legal && cmpDestOk d
  | .li p _ _ => p.legal
  | .lis p _ _ => p.legal
  | .addpc p _ _ => p.legal
  | .addpch p _ _ => p.legal
  | .faddD p _ _ _ => p.legal
  | .fsubD p _ _ _ => p.legal
  | .fmulD p _ _ _ => p.legal
  | .fdivD p _ _ _ => p.legal
  | .fsqrtD p _ _ => p.legal
  | .fminD p _ _ _ => p.legal
  | .fmaxD p _ _ _ => p.legal
  | .fabsD p _ _ => p.legal
  | .fnegD p _ _ => p.legal
  | .faddF p _ _ _ => p.legal
  | .fsubF p _ _ _ => p.legal
  | .fmulF p _ _ _ => p.legal
  | .fdivF p _ _ _ => p.legal
  | .fsqrtF p _ _ => p.legal
  | .fminF p _ _ _ => p.legal
  | .fmaxF p _ _ _ => p.legal
  | .fabsF p _ _ => p.legal
  | .fnegF p _ _ => p.legal
  | .fmaD p _ _ _ => p.legal
  | .fmsD p _ _ _ => p.legal
  | .fmaF p _ _ _ => p.legal
  | .fmsF p _ _ _ => p.legal
  | .fcmpEqD p d _ _ => p.legal && cmpDestOk d
  | .fcmpLtD p d _ _ => p.legal && cmpDestOk d
  | .fcmpLeD p d _ _ => p.legal && cmpDestOk d
  | .fcmpUnD p d _ _ => p.legal && cmpDestOk d
  | .fcmpEqF p d _ _ => p.legal && cmpDestOk d
  | .fcmpLtF p d _ _ => p.legal && cmpDestOk d
  | .fcmpLeF p d _ _ => p.legal && cmpDestOk d
  | .fcmpUnF p d _ _ => p.legal && cmpDestOk d
  | .cvtFD p _ _ r => p.legal && r.toNat ≤ 6
  | .cvtDF p _ _ => p.legal
  | .cvtDS64 p _ _ r => p.legal && r.toNat ≤ 6
  | .cvtDZ64 p _ _ r => p.legal && r.toNat ≤ 6
  | .cvtS64D p _ _ r => p.legal && r.toNat ≤ 5
  | .cvtZ64D p _ _ r => p.legal && r.toNat ≤ 5
  | .cvtFS64 p _ _ r => p.legal && r.toNat ≤ 6
  | .cvtS64F p _ _ r => p.legal && r.toNat ≤ 5
  | .cvtFZ64 p _ _ r => p.legal && r.toNat ≤ 6
  | .cvtZ64F p _ _ r => p.legal && r.toNat ≤ 5
  | .fclassD p _ _ => p.legal
  | .fclassF p _ _ => p.legal
  | .br p _ => p.legal
  | .call p _ => p.legal
  | .jmp p _ => p.legal
  | .callr p _ _ => p.legal
  | .loop p d _ => p.legal && d != 0
  | .bany p g _ => p.legal && flagOk g.toNat
  | .ball p g _ => p.legal && flagOk g.toNat
  | .mfs p _ c => p.legal && sregAssigned c.toNat
  | .mts p _ c => p.legal && sregAssigned c.toNat
  | .eret p => p.legal
  | .brk p => p.legal
  | .halt p => p.legal
  | .drainSt p => p.legal
  | .fenceI p => p.legal
  | .tlbwWriteEntry p _ _ => p.legal
  | .tlbwInvalidatePage p _ _ => p.legal
  | .tlbwFailMiss p _ _ => p.legal
  | .tlbwInvalidateContext p _ _ => p.legal
  | .sleep p => p.legal
  | .nop p => p.legal
  | .trap p _ => p.legal
  | .ld p _ _ _ _ => p.legal
  | .ldS32 p _ _ _ _ => p.legal
  | .ldZ32 p _ _ _ _ => p.legal
  | .ldS16 p _ _ _ _ => p.legal
  | .ldZ16 p _ _ _ _ => p.legal
  | .ldS8 p _ _ _ _ => p.legal
  | .ldZ8 p _ _ _ _ => p.legal
  | .st p _ _ _ => p.legal
  | .st32 p _ _ _ => p.legal
  | .st16 p _ _ _ => p.legal
  | .st8 p _ _ _ => p.legal
  | .ldW p _ _ _ _ => p.legal
  | .ldT p _ _ _ _ => p.legal
  | .stF p _ _ _ => p.legal
  | .stS p _ _ _ => p.legal
  | .feProbe p _ _ _ _ => p.legal
  | .feClr p _ _ => p.legal
  | .amoAdd p _ _ _ => p.legal
  | .amoAnd p _ _ _ => p.legal
  | .amoOr p _ _ _ => p.legal
  | .amoXor p _ _ _ => p.legal
  | .amoMinS64 p _ _ _ => p.legal
  | .amoMaxS64 p _ _ _ => p.legal
  | .amoMinZ64 p _ _ _ => p.legal
  | .amoMaxZ64 p _ _ _ => p.legal
  | .amoSwap p _ _ _ => p.legal
  | .amoCas p _ _ _ => p.legal
  | .redAdd p _ _ => p.legal
  | .redAnd p _ _ => p.legal
  | .redOr p _ _ => p.legal
  | .redMinS64 p _ _ => p.legal
  | .redMaxS64 p _ _ => p.legal
  | .redMinZ64 p _ _ => p.legal
  | .redMaxZ64 p _ _ => p.legal
  | .rfence p => p.legal
  | .cpPlain p _ _ _ => p.legal
  | .cpCopy p _ _ _ => p.legal
  | .cpFill p _ _ _ => p.legal
  | .cpNeed p _ _ _ => p.legal
  | .cpTake p _ _ _ => p.legal
  | .cbatch p _ => p.legal
  | .cwait p _ => p.legal
  | .xfence p => p.legal
  | .vAdd p _ _ _ => p.legal
  | .vSub p _ _ _ => p.legal
  | .vMul p _ _ _ => p.legal
  | .vMulhS32 p _ _ _ => p.legal
  | .vMulhZ32 p _ _ _ => p.legal
  | .vAnd p _ _ _ => p.legal
  | .vOr p _ _ _ => p.legal
  | .vXor p _ _ _ => p.legal
  | .vShl p _ _ _ => p.legal
  | .vShr p _ _ _ => p.legal
  | .vSar p _ _ _ => p.legal
  | .vMinS32 p _ _ _ => p.legal
  | .vMinZ32 p _ _ _ => p.legal
  | .vMaxS32 p _ _ _ => p.legal
  | .vMaxZ32 p _ _ _ => p.legal
  | .vAddsS32 p _ _ _ => p.legal
  | .vSubsS32 p _ _ _ => p.legal
  | .vAbsS32 p _ _ => p.legal
  | .vFaddF p _ _ _ => p.legal
  | .vFsubF p _ _ _ => p.legal
  | .vFmulF p _ _ _ => p.legal
  | .vFdivF p _ _ _ => p.legal
  | .vFsqrtF p _ _ => p.legal
  | .vFminF p _ _ _ => p.legal
  | .vFmaxF p _ _ _ => p.legal
  | .vFabsF p _ _ => p.legal
  | .vFnegF p _ _ => p.legal
  | .vFmaF p _ _ _ => p.legal
  | .vFmsF p _ _ _ => p.legal
  | .vFaddH p _ _ _ => p.legal
  | .vFmulH p _ _ _ => p.legal
  | .vFmaH p _ _ _ => p.legal
  | .vFaddB p _ _ _ => p.legal
  | .vFmulB p _ _ _ => p.legal
  | .vFmaB p _ _ _ => p.legal
  | .vFaddD p _ _ _ => p.legal
  | .vFsubD p _ _ _ => p.legal
  | .vFmulD p _ _ _ => p.legal
  | .vFmaD p _ _ _ => p.legal
  | .vFminD p _ _ _ => p.legal
  | .vFmaxD p _ _ _ => p.legal
  | .vFdivD p _ _ _ => p.legal
  | .vFsqrtD p _ _ => p.legal
  | .vCmpEq p d _ _ => p.legal && cmpDestOk d
  | .vCmpNe p d _ _ => p.legal && cmpDestOk d
  | .vCmpLtS32 p d _ _ => p.legal && cmpDestOk d
  | .vCmpLtZ32 p d _ _ => p.legal && cmpDestOk d
  | .vCmpLeS32 p d _ _ => p.legal && cmpDestOk d
  | .vCmpLeZ32 p d _ _ => p.legal && cmpDestOk d
  | .vFcmpEqF p d _ _ => p.legal && cmpDestOk d
  | .vFcmpLtF p d _ _ => p.legal && cmpDestOk d
  | .vFcmpLeF p d _ _ => p.legal && cmpDestOk d
  | .vFcmpUnF p d _ _ => p.legal && cmpDestOk d
  | .vCvtFS32 p _ _ r => p.legal && r.toNat ≤ 6
  | .vCvtS32F p _ _ r => p.legal && r.toNat ≤ 5
  | .vCvtHF p _ _ r => p.legal && r.toNat ≤ 6
  | .vCvtFH p _ _ => p.legal
  | .vCvtBF p _ _ r => p.legal && r.toNat ≤ 6
  | .vCvtFB p _ _ => p.legal
  | .vCvtE43F p _ _ r => p.legal && r.toNat ≤ 6
  | .vCvtFE43 p _ _ => p.legal
  | .vCvtE52F p _ _ r => p.legal && r.toNat ≤ 6
  | .vCvtFE52 p _ _ => p.legal
  | .vCvtDF p _ _ => p.legal
  | .vCvtFD p _ _ r => p.legal && r.toNat ≤ 6
  | .vMov p _ _ => p.legal
  | .vBcast p _ _ => p.legal
  | .vPerm p _ _ _ => p.legal
  | .vRev p _ _ => p.legal
  | .vRot p _ _ _ => p.legal
  | .vIns p _ _ _ => p.legal
  | .vExt p _ _ _ => p.legal
  | .vFirst p _ _ => p.legal
  | .vRsumF p _ _ => p.legal
  | .vRsumS32 p _ _ => p.legal
  | .vRminF p _ _ => p.legal
  | .vRmaxF p _ _ => p.legal
  | .vRminS32 p _ _ => p.legal
  | .vRmaxS32 p _ _ => p.legal
  | .vRand p _ _ => p.legal
  | .vRbor p _ _ => p.legal
  | .vRxor p _ _ => p.legal
  | .vJ4dec p _ _ _ => p.legal
  | .vJ4enc p _ _ _ => p.legal
  | .vBaddq p _ _ r => p.legal && r.toNat ≤ 6
  | .vLd p _ _ _ _ => p.legal
  | .vSt p _ _ _ => p.legal
  | .vLds p _ _ _ _ => p.legal
  | .vSts p _ _ _ => p.legal
  | .vGather p _ _ _ _ => p.legal
  | .vScatter p _ _ _ => p.legal
  | .fAnd p d a b => p.legal && flagOk d.toNat && flagOk a.toNat && flagOk b.toNat
  | .fOr p d a b => p.legal && flagOk d.toNat && flagOk a.toNat && flagOk b.toNat
  | .fXor p d a b => p.legal && flagOk d.toNat && flagOk a.toNat && flagOk b.toNat
  | .fAndn p d a b => p.legal && flagOk d.toNat && flagOk a.toNat && flagOk b.toNat
  | .fNot p d a => p.legal && flagOk d.toNat && flagOk a.toNat
  | .fSet p d _ => p.legal && flagOk d.toNat
  | .fGet p _ a => p.legal && flagOk a.toNat
  | .fPopc p _ a => p.legal && flagOk a.toNat
  | .pub i => depthOk i.toNat
  | .endpub => true
  | .subscribe _ => true
  | .join _ => true
  | .rdv _ => true
  | .chSync => true
  | .sqkill p _ => p.legal
  | .leave g _ _ => flagOk g.toNat
  | .portcfg p _ => p.legal
  | .send p _ _ => p.legal
  | .btag p _ _ => p.legal
  | .mxCtx p _ => p.legal
  | .mxLdb p _ _ => p.legal
  | .mxSetb p _ _ => p.legal
  | .mxMma p _ _ _ _ => p.legal
  | .mxZero p _ => p.legal
  | .mxDrain p _ _ _ => p.legal
  | .mxDrainRaw p _ _ _ => p.legal
  | .hresv p _ _ => p.legal
  | .rowout p _ _ => p.legal
  | .mxBatch p _ _ => p.legal
  | .mxWait p _ => p.legal
  | .mxCnt p _ _ _ => p.legal
  | .barCfg p _ _ => p.legal
  | .barArrive p _ => p.legal
  | .barWait p _ => p.legal
  | .barSync p _ => p.legal
  | .ticket p _ _ _ => p.legal
  | .ticketBc p _ _ _ => p.legal
  | .fenceS p _ => p.legal
  | .go p _ => p.legal
  | .launch p _ _ => p.legal
  | .idemBegin p _ => p.legal
  | .idemEnd p => p.legal
  | .xfer p _ => p.legal
  | .bqPop p _ _ _ => p.legal
  | .rotation => true
  | .channelInstructionDue _ => true
  | .resultWrite _ _ => true
  | .storeFault _ => true
  | .withdrawal _ => true
  | .withdrawalArrival _ => true
  | .feTimeout _ => true
  | .feTimeoutReport _ => true
  | .chTimeout _ => true
  | .barTimeout _ => true
  | .conditionalRequestArrival _ => true
  | .parkResend _ => true
  | .plainAccessArrival _ _ => true
  | .atomicTakeGrant _ => true
  | .atomicFillArrival _ => true
  | .reductionPerform _ => true
  | .storeLeave _ => true
  | .storeCheck _ => true
  | .tlbMiss _ => true
  | .copyWord _ _ => true
  | .mboxReserve _ => true
  | .mboxDelivery _ => true
  | .portWordAccept _ => true
  | .pubAccept _ => true
  | .rdvComplete _ => true
  | .chSyncComplete _ => true
  | .publicationEnd _ => true
  | .sqkillTargetHalt _ => true
  | .arrayGrant _ _ => true
  | .powerHold _ => true
  | .mxCtxApply _ => true
  | .mxZeroBegin _ => true
  | .mxLdbLoad _ => true
  | .mxSetbComplete _ => true
  | .mxMmaComplete _ => true
  | .mxCntWrite _ => true
  | .drainRowEnter _ => true
  | .drainDispatch _ => true
  | .drainDoneFill _ => true
  | .drainFail _ => true
  | .barCfgArrival _ => true
  | .barrierArrival _ => true
  | .pennantRecordWrite _ _ => true
  | .post _ _ _ => true
  | .launchAccept => true
  | .bandPlace => true
  | .bandStart _ => true
  | .preempt => true
  | .bandSave _ => true
  | .bandResume _ => true
  | .bandEnd _ => true
  | .launchEnd _ => true
  | .migrationDeparture _ => true
  | .migrationArrival _ => true
  | .migrationInstall _ => true
  | .overflowRefill _ => true
  | .portCfgWrite _ _ => true
  | .rngWrite _ _ => true
  | .mboxBaseWrite _ => true
  | .mboxHeadWrite _ _ => true
  | .ctxActivate => true
  | .ctxDeactivate => true
  | .ctlEvpendClear _ _ => true
  | .ctlTimerWrite _ _ => true
  | .timer _ => true
  | .pwrFstepWrite => true
  | .errCountRead _ _ _ => true
  | .keyGenerate => true
  | .keyErase => true
  | .powerCheck _ _ => true
  | .currentTrip => true
  | .thermalTrip => true
  | .coldReset => true
  | .packageReset => true
  | .dieReset _ => true
  | .bootStage _ _ _ => true
  | .dieFence _ => true
  | .scrub => true
  | .profilerSum _ => true
  | .debugChallenge => true
  | .debugSignature _ => true
  | .debugStop _ => true
  | .debugImageAccess _ _ _ => true
  | .debugResume _ => true
  | .breakpointSet _ _ _ => true
  | .doorbell => true
  | .hdmPlainWrite _ _ _ => true
  | .hdmFillWrite _ _ _ => true
  | .hdmEmptyWrite _ _ _ => true
  | .hdmRead _ _ _ => true
  | .bar2Access _ _ _ _ => true
  | .linkInit _ _ => true
  | .flitReceive _ _ => true
  | .nak _ _ => true
  | .linkFail _ => true
  | .fabLoad _ => true
  | .fabStore _ => true
  | .fabLdW _ => true
  | .fabLdT _ => true
  | .fabStF _ => true
  | .fabStS _ => true
  | .fabFeClr _ => true
  | .fabFeProbe _ => true
  | .fabAmo _ => true
  | .fabRed _ => true
  | .fabWithdraw _ => true
  | .fabReply _ => true
  | .fabTmo _ => true
  | .xferWrite _ => true
  | .xferRead _ => true
  | .xferReadData _ => true
  | .xferComplete _ => true
  | .xferFail _ => true
  | .mastheadPost _ => true
  | .gangPost _ => true
  | .prepare _ => true
  | .acknowledge _ => true
  | .gangTimeout _ => true
  | .commit _ => true
  | .abort _ => true
  | .query _ => true
  | .gangQueryTimer _ => true
  | .decision _ => true
  | .retire _ => true
  | .instructionFetch _ => true
  | .hostWriteAck _ => true
  | .xferElement _ => true
  | .decisionRepeat _ _ => true

end Sys2Proof
end

