-- ==== Sys2Proof/Decode.lean ====
section
/-! DEFINITION. Decoding an instruction word (R14, R19, R28-R38) and, after it, the encoder written from the same tables.
`decode` is total: a word that is no instruction answers none, and raises ILL in the machine (R38). -/

namespace Sys2Proof


/-- The layout word: fields of 1, 4, 7, 20 bits, high to low (R19). -/
def wordPack (x0 : BitVec 1) (x1 : BitVec 4) (x2 : BitVec 7) (x3 : BitVec 20) : BitVec 32 :=
  BitVec.ofNat 32 (x0.toNat * 2147483648 + x1.toNat * 134217728 + x2.toNat * 1048576 + x3.toNat)
/-- Field 0 of the layout word: bits [31:31]. -/
def word0 (x : BitVec 32) : BitVec 1 := BitVec.ofNat 1 (x.toNat / 2147483648)
/-- Field 1 of the layout word: bits [30:27]. -/
def word1 (x : BitVec 32) : BitVec 4 := BitVec.ofNat 4 (x.toNat / 134217728)
/-- Field 2 of the layout word: bits [26:20]. -/
def word2 (x : BitVec 32) : BitVec 7 := BitVec.ofNat 7 (x.toNat / 1048576)
/-- Field 3 of the layout word: bits [19:0]. -/
def word3 (x : BitVec 32) : BitVec 20 := BitVec.ofNat 20 (x.toNat / 1)

/-- The layout rrr: fields of 5, 5, 5, 5 bits, high to low (R19). -/
def rrrPack (x0 : BitVec 5) (x1 : BitVec 5) (x2 : BitVec 5) (x3 : BitVec 5) : BitVec 20 :=
  BitVec.ofNat 20 (x0.toNat * 32768 + x1.toNat * 1024 + x2.toNat * 32 + x3.toNat)
/-- Field 0 of the layout rrr: bits [19:15]. -/
def rrr0 (x : BitVec 20) : BitVec 5 := BitVec.ofNat 5 (x.toNat / 32768)
/-- Field 1 of the layout rrr: bits [14:10]. -/
def rrr1 (x : BitVec 20) : BitVec 5 := BitVec.ofNat 5 (x.toNat / 1024)
/-- Field 2 of the layout rrr: bits [9:5]. -/
def rrr2 (x : BitVec 20) : BitVec 5 := BitVec.ofNat 5 (x.toNat / 32)
/-- Field 3 of the layout rrr: bits [4:0]. -/
def rrr3 (x : BitVec 20) : BitVec 5 := BitVec.ofNat 5 (x.toNat / 1)

/-- The layout mx: fields of 5, 5, 4, 6 bits, high to low (R19). -/
def mxPack (x0 : BitVec 5) (x1 : BitVec 5) (x2 : BitVec 4) (x3 : BitVec 6) : BitVec 20 :=
  BitVec.ofNat 20 (x0.toNat * 32768 + x1.toNat * 1024 + x2.toNat * 64 + x3.toNat)
/-- Field 0 of the layout mx: bits [19:15]. -/
def mx0 (x : BitVec 20) : BitVec 5 := BitVec.ofNat 5 (x.toNat / 32768)
/-- Field 1 of the layout mx: bits [14:10]. -/
def mx1 (x : BitVec 20) : BitVec 5 := BitVec.ofNat 5 (x.toNat / 1024)
/-- Field 2 of the layout mx: bits [9:6]. -/
def mx2 (x : BitVec 20) : BitVec 4 := BitVec.ofNat 4 (x.toNat / 64)
/-- Field 3 of the layout mx: bits [5:0]. -/
def mx3 (x : BitVec 20) : BitVec 6 := BitVec.ofNat 6 (x.toNat / 1)

/-- The layout ri: fields of 5, 5, 10 bits, high to low (R19). -/
def riPack (x0 : BitVec 5) (x1 : BitVec 5) (x2 : BitVec 10) : BitVec 20 :=
  BitVec.ofNat 20 (x0.toNat * 32768 + x1.toNat * 1024 + x2.toNat)
/-- Field 0 of the layout ri: bits [19:15]. -/
def ri0 (x : BitVec 20) : BitVec 5 := BitVec.ofNat 5 (x.toNat / 32768)
/-- Field 1 of the layout ri: bits [14:10]. -/
def ri1 (x : BitVec 20) : BitVec 5 := BitVec.ofNat 5 (x.toNat / 1024)
/-- Field 2 of the layout ri: bits [9:0]. -/
def ri2 (x : BitVec 20) : BitVec 10 := BitVec.ofNat 10 (x.toNat / 1)

/-- The layout rl: fields of 5, 15 bits, high to low (R19). -/
def rlPack (x0 : BitVec 5) (x1 : BitVec 15) : BitVec 20 :=
  BitVec.ofNat 20 (x0.toNat * 32768 + x1.toNat)
/-- Field 0 of the layout rl: bits [19:15]. -/
def rl0 (x : BitVec 20) : BitVec 5 := BitVec.ofNat 5 (x.toNat / 32768)
/-- Field 1 of the layout rl: bits [14:0]. -/
def rl1 (x : BitVec 20) : BitVec 15 := BitVec.ofNat 15 (x.toNat / 1)

/-- The layout fl: fields of 1, 4, 15 bits, high to low (R19). -/
def flPack (x0 : BitVec 1) (x1 : BitVec 4) (x2 : BitVec 15) : BitVec 20 :=
  BitVec.ofNat 20 (x0.toNat * 524288 + x1.toNat * 32768 + x2.toNat)
/-- Field 0 of the layout fl: bits [19:19]. -/
def fl0 (x : BitVec 20) : BitVec 1 := BitVec.ofNat 1 (x.toNat / 524288)
/-- Field 1 of the layout fl: bits [18:15]. -/
def fl1 (x : BitVec 20) : BitVec 4 := BitVec.ofNat 4 (x.toNat / 32768)
/-- Field 2 of the layout fl: bits [14:0]. -/
def fl2 (x : BitVec 20) : BitVec 15 := BitVec.ofNat 15 (x.toNat / 1)

/-- The layout lv: fields of 1, 4, 5, 10 bits, high to low (R19). -/
def lvPack (x0 : BitVec 1) (x1 : BitVec 4) (x2 : BitVec 5) (x3 : BitVec 10) : BitVec 20 :=
  BitVec.ofNat 20 (x0.toNat * 524288 + x1.toNat * 32768 + x2.toNat * 1024 + x3.toNat)
/-- Field 0 of the layout lv: bits [19:19]. -/
def lv0 (x : BitVec 20) : BitVec 1 := BitVec.ofNat 1 (x.toNat / 524288)
/-- Field 1 of the layout lv: bits [18:15]. -/
def lv1 (x : BitVec 20) : BitVec 4 := BitVec.ofNat 4 (x.toNat / 32768)
/-- Field 2 of the layout lv: bits [14:10]. -/
def lv2 (x : BitVec 20) : BitVec 5 := BitVec.ofNat 5 (x.toNat / 1024)
/-- Field 3 of the layout lv: bits [9:0]. -/
def lv3 (x : BitVec 20) : BitVec 10 := BitVec.ofNat 10 (x.toNat / 1)

/-- The layout rik: fields of 5, 5, 3, 7 bits, high to low (R19). -/
def rikPack (x0 : BitVec 5) (x1 : BitVec 5) (x2 : BitVec 3) (x3 : BitVec 7) : BitVec 20 :=
  BitVec.ofNat 20 (x0.toNat * 32768 + x1.toNat * 1024 + x2.toNat * 128 + x3.toNat)
/-- Field 0 of the layout rik: bits [19:15]. -/
def rik0 (x : BitVec 20) : BitVec 5 := BitVec.ofNat 5 (x.toNat / 32768)
/-- Field 1 of the layout rik: bits [14:10]. -/
def rik1 (x : BitVec 20) : BitVec 5 := BitVec.ofNat 5 (x.toNat / 1024)
/-- Field 2 of the layout rik: bits [9:7]. -/
def rik2 (x : BitVec 20) : BitVec 3 := BitVec.ofNat 3 (x.toNat / 128)
/-- Field 3 of the layout rik: bits [6:0]. -/
def rik3 (x : BitVec 20) : BitVec 7 := BitVec.ofNat 7 (x.toNat / 1)

/-- The layout x41: fields of 4, 1 bits, high to low (R19). -/
def x41Pack (x0 : BitVec 4) (x1 : BitVec 1) : BitVec 5 :=
  BitVec.ofNat 5 (x0.toNat * 2 + x1.toNat)
/-- Field 0 of the layout x41: bits [4:1]. -/
def x410 (x : BitVec 5) : BitVec 4 := BitVec.ofNat 4 (x.toNat / 2)
/-- Field 1 of the layout x41: bits [0:0]. -/
def x411 (x : BitVec 5) : BitVec 1 := BitVec.ofNat 1 (x.toNat / 1)

/-- The layout x32: fields of 3, 2 bits, high to low (R19). -/
def x32Pack (x0 : BitVec 3) (x1 : BitVec 2) : BitVec 5 :=
  BitVec.ofNat 5 (x0.toNat * 4 + x1.toNat)
/-- Field 0 of the layout x32: bits [4:2]. -/
def x320 (x : BitVec 5) : BitVec 3 := BitVec.ofNat 3 (x.toNat / 4)
/-- Field 1 of the layout x32: bits [1:0]. -/
def x321 (x : BitVec 5) : BitVec 2 := BitVec.ofNat 2 (x.toNat / 1)

/-- The layout f15: fields of 1, 5 bits, high to low (R19). -/
def f15Pack (x0 : BitVec 1) (x1 : BitVec 5) : BitVec 6 :=
  BitVec.ofNat 6 (x0.toNat * 32 + x1.toNat)
/-- Field 0 of the layout f15: bits [5:5]. -/
def f150 (x : BitVec 6) : BitVec 1 := BitVec.ofNat 1 (x.toNat / 32)
/-- Field 1 of the layout f15: bits [4:0]. -/
def f151 (x : BitVec 6) : BitVec 5 := BitVec.ofNat 5 (x.toNat / 1)

/-- The layout f51: fields of 5, 1 bits, high to low (R19). -/
def f51Pack (x0 : BitVec 5) (x1 : BitVec 1) : BitVec 6 :=
  BitVec.ofNat 6 (x0.toNat * 2 + x1.toNat)
/-- Field 0 of the layout f51: bits [5:1]. -/
def f510 (x : BitVec 6) : BitVec 5 := BitVec.ofNat 5 (x.toNat / 2)
/-- Field 1 of the layout f51: bits [0:0]. -/
def f511 (x : BitVec 6) : BitVec 1 := BitVec.ofNat 1 (x.toNat / 1)

/-- The layout f321: fields of 3, 2, 1 bits, high to low (R19). -/
def f321Pack (x0 : BitVec 3) (x1 : BitVec 2) (x2 : BitVec 1) : BitVec 6 :=
  BitVec.ofNat 6 (x0.toNat * 8 + x1.toNat * 2 + x2.toNat)
/-- Field 0 of the layout f321: bits [5:3]. -/
def f3210 (x : BitVec 6) : BitVec 3 := BitVec.ofNat 3 (x.toNat / 8)
/-- Field 1 of the layout f321: bits [2:1]. -/
def f3211 (x : BitVec 6) : BitVec 2 := BitVec.ofNat 2 (x.toNat / 2)
/-- Field 2 of the layout f321: bits [0:0]. -/
def f3212 (x : BitVec 6) : BitVec 1 := BitVec.ofNat 1 (x.toNat / 1)

/-- The layout f411: fields of 4, 1, 1 bits, high to low (R19). -/
def f411Pack (x0 : BitVec 4) (x1 : BitVec 1) (x2 : BitVec 1) : BitVec 6 :=
  BitVec.ofNat 6 (x0.toNat * 4 + x1.toNat * 2 + x2.toNat)
/-- Field 0 of the layout f411: bits [5:2]. -/
def f4110 (x : BitVec 6) : BitVec 4 := BitVec.ofNat 4 (x.toNat / 4)
/-- Field 1 of the layout f411: bits [1:1]. -/
def f4111 (x : BitVec 6) : BitVec 1 := BitVec.ofNat 1 (x.toNat / 2)
/-- Field 2 of the layout f411: bits [0:0]. -/
def f4112 (x : BitVec 6) : BitVec 1 := BitVec.ofNat 1 (x.toNat / 1)

/-- The layout f24: fields of 2, 4 bits, high to low (R19). -/
def f24Pack (x0 : BitVec 2) (x1 : BitVec 4) : BitVec 6 :=
  BitVec.ofNat 6 (x0.toNat * 16 + x1.toNat)
/-- Field 0 of the layout f24: bits [5:4]. -/
def f240 (x : BitVec 6) : BitVec 2 := BitVec.ofNat 2 (x.toNat / 16)
/-- Field 1 of the layout f24: bits [3:0]. -/
def f241 (x : BitVec 6) : BitVec 4 := BitVec.ofNat 4 (x.toNat / 1)

/-- Major 0x01. -/
noncomputable def dec01 (p : Pred) (x : BitVec 20) : Option Instr :=
  match (rrr3 x).toNat with
  | 0 => some (.add p (rrr0 x) (rrr1 x) (rrr2 x))
  | 1 => some (.sub p (rrr0 x) (rrr1 x) (rrr2 x))
  | 2 => some (.and p (rrr0 x) (rrr1 x) (rrr2 x))
  | 3 => some (.or p (rrr0 x) (rrr1 x) (rrr2 x))
  | 4 => some (.xor p (rrr0 x) (rrr1 x) (rrr2 x))
  | 5 => some (.andn p (rrr0 x) (rrr1 x) (rrr2 x))
  | 6 => some (.shl p (rrr0 x) (rrr1 x) (rrr2 x))
  | 7 => some (.shr p (rrr0 x) (rrr1 x) (rrr2 x))
  | 8 => some (.sar p (rrr0 x) (rrr1 x) (rrr2 x))
  | 9 => some (.ror p (rrr0 x) (rrr1 x) (rrr2 x))
  | 10 => some (.minS64 p (rrr0 x) (rrr1 x) (rrr2 x))
  | 11 => some (.minZ64 p (rrr0 x) (rrr1 x) (rrr2 x))
  | 12 => some (.maxS64 p (rrr0 x) (rrr1 x) (rrr2 x))
  | 13 => some (.maxZ64 p (rrr0 x) (rrr1 x) (rrr2 x))
  | 14 => some (.addsS64 p (rrr0 x) (rrr1 x) (rrr2 x))
  | 15 => some (.subsS64 p (rrr0 x) (rrr1 x) (rrr2 x))
  | _ => none

/-- Major 0x02. -/
noncomputable def dec02 (p : Pred) (x : BitVec 20) : Option Instr :=
  match (rrr3 x).toNat with
  | 0 => some (.mul p (rrr0 x) (rrr1 x) (rrr2 x))
  | 1 => some (.mulhS64 p (rrr0 x) (rrr1 x) (rrr2 x))
  | 2 => some (.mulhZ64 p (rrr0 x) (rrr1 x) (rrr2 x))
  | 3 => some (.divS64 p (rrr0 x) (rrr1 x) (rrr2 x))
  | 4 => some (.divZ64 p (rrr0 x) (rrr1 x) (rrr2 x))
  | 5 => some (.remS64 p (rrr0 x) (rrr1 x) (rrr2 x))
  | 6 => some (.remZ64 p (rrr0 x) (rrr1 x) (rrr2 x))
  | _ => none

/-- Major 0x03. -/
noncomputable def dec03 (p : Pred) (x : BitVec 20) : Option Instr :=
  match (rrr3 x).toNat with
  | 0 => if rrr2 x = 0 then some (.clz p (rrr0 x) (rrr1 x)) else none
  | 1 => if rrr2 x = 0 then some (.ctz p (rrr0 x) (rrr1 x)) else none
  | 2 => if rrr2 x = 0 then some (.popc p (rrr0 x) (rrr1 x)) else none
  | 3 => if rrr2 x = 0 then some (.brev p (rrr0 x) (rrr1 x)) else none
  | 4 => if rrr2 x = 0 then some (.bswap p (rrr0 x) (rrr1 x)) else none
  | 5 => some (.bfxZ p (rrr0 x) (rrr1 x) (rrr2 x))
  | 6 => some (.bfxS p (rrr0 x) (rrr1 x) (rrr2 x))
  | 7 => some (.bfi p (rrr0 x) (rrr1 x) (rrr2 x))
  | 8 => if rrr2 x = 0 then some (.extS8 p (rrr0 x) (rrr1 x)) else none
  | 9 => if rrr2 x = 0 then some (.extS16 p (rrr0 x) (rrr1 x)) else none
  | 10 => if rrr2 x = 0 then some (.extS32 p (rrr0 x) (rrr1 x)) else none
  | 11 => if rrr2 x = 0 then some (.extZ8 p (rrr0 x) (rrr1 x)) else none
  | 12 => if rrr2 x = 0 then some (.extZ16 p (rrr0 x) (rrr1 x)) else none
  | 13 => if rrr2 x = 0 then some (.extZ32 p (rrr0 x) (rrr1 x)) else none
  | _ => none

/-- Major 0x04. -/
noncomputable def dec04 (p : Pred) (x : BitVec 20) : Option Instr :=
  match (rrr3 x).toNat with
  | 0 => some (.cmpEq p (rrr0 x) (rrr1 x) (rrr2 x))
  | 1 => some (.cmpNe p (rrr0 x) (rrr1 x) (rrr2 x))
  | 2 => some (.cmpLtS64 p (rrr0 x) (rrr1 x) (rrr2 x))
  | 3 => some (.cmpLtZ64 p (rrr0 x) (rrr1 x) (rrr2 x))
  | 4 => some (.cmpLeS64 p (rrr0 x) (rrr1 x) (rrr2 x))
  | 5 => some (.cmpLeZ64 p (rrr0 x) (rrr1 x) (rrr2 x))
  | _ => none

/-- Major 0x05. -/
noncomputable def dec05 (p : Pred) (x : BitVec 20) : Option Instr :=
  some (.addl p (rl0 x) (rl1 x))

/-- Major 0x06. -/
noncomputable def dec06 (p : Pred) (x : BitVec 20) : Option Instr :=
  some (.addi p (ri0 x) (ri1 x) (ri2 x))

/-- Major 0x07. -/
noncomputable def dec07 (p : Pred) (x : BitVec 20) : Option Instr :=
  some (.andi p (ri0 x) (ri1 x) (ri2 x))

/-- Major 0x08. -/
noncomputable def dec08 (p : Pred) (x : BitVec 20) : Option Instr :=
  some (.ori p (ri0 x) (ri1 x) (ri2 x))

/-- Major 0x09. -/
noncomputable def dec09 (p : Pred) (x : BitVec 20) : Option Instr :=
  some (.xori p (ri0 x) (ri1 x) (ri2 x))

/-- Major 0x0A. -/
noncomputable def dec0A (p : Pred) (x : BitVec 20) : Option Instr :=
  match (mx2 x).toNat with
  | 0 => some (.shli p (mx0 x) (mx1 x) (mx3 x))
  | 1 => some (.shri p (mx0 x) (mx1 x) (mx3 x))
  | 2 => some (.sari p (mx0 x) (mx1 x) (mx3 x))
  | 3 => some (.rori p (mx0 x) (mx1 x) (mx3 x))
  | _ => none

/-- Major 0x0B. -/
noncomputable def dec0B (p : Pred) (x : BitVec 20) : Option Instr :=
  match (rik2 x).toNat with
  | 0 => some (.cmpiEq p (rik0 x) (rik1 x) (rik3 x))
  | 1 => some (.cmpiNe p (rik0 x) (rik1 x) (rik3 x))
  | 2 => some (.cmpiLtS64 p (rik0 x) (rik1 x) (rik3 x))
  | 3 => some (.cmpiLtZ64 p (rik0 x) (rik1 x) (rik3 x))
  | 4 => some (.cmpiLeS64 p (rik0 x) (rik1 x) (rik3 x))
  | 5 => some (.cmpiLeZ64 p (rik0 x) (rik1 x) (rik3 x))
  | 6 => some (.cmpiGtS64 p (rik0 x) (rik1 x) (rik3 x))
  | 7 => some (.cmpiGtZ64 p (rik0 x) (rik1 x) (rik3 x))
  | _ => none

/-- Major 0x0C. -/
noncomputable def dec0C (p : Pred) (x : BitVec 20) : Option Instr :=
  some (.li p (rl0 x) (rl1 x))

/-- Major 0x0D. -/
noncomputable def dec0D (p : Pred) (x : BitVec 20) : Option Instr :=
  some (.lis p (rl0 x) (rl1 x))

/-- Major 0x0E. -/
noncomputable def dec0E (p : Pred) (x : BitVec 20) : Option Instr :=
  some (.addpc p (rl0 x) (rl1 x))

/-- Major 0x0F. -/
noncomputable def dec0F (p : Pred) (x : BitVec 20) : Option Instr :=
  some (.addpch p (rl0 x) (rl1 x))

/-- Major 0x10. -/
noncomputable def dec10 (p : Pred) (x : BitVec 20) : Option Instr :=
  match (rrr3 x).toNat with
  | 0 => some (.faddD p (rrr0 x) (rrr1 x) (rrr2 x))
  | 1 => some (.fsubD p (rrr0 x) (rrr1 x) (rrr2 x))
  | 2 => some (.fmulD p (rrr0 x) (rrr1 x) (rrr2 x))
  | 3 => some (.fdivD p (rrr0 x) (rrr1 x) (rrr2 x))
  | 4 => if rrr2 x = 0 then some (.fsqrtD p (rrr0 x) (rrr1 x)) else none
  | 5 => some (.fminD p (rrr0 x) (rrr1 x) (rrr2 x))
  | 6 => some (.fmaxD p (rrr0 x) (rrr1 x) (rrr2 x))
  | 7 => if rrr2 x = 0 then some (.fabsD p (rrr0 x) (rrr1 x)) else none
  | 8 => if rrr2 x = 0 then some (.fnegD p (rrr0 x) (rrr1 x)) else none
  | _ => none

/-- Major 0x11. -/
noncomputable def dec11 (p : Pred) (x : BitVec 20) : Option Instr :=
  match (rrr3 x).toNat with
  | 0 => some (.faddF p (rrr0 x) (rrr1 x) (rrr2 x))
  | 1 => some (.fsubF p (rrr0 x) (rrr1 x) (rrr2 x))
  | 2 => some (.fmulF p (rrr0 x) (rrr1 x) (rrr2 x))
  | 3 => some (.fdivF p (rrr0 x) (rrr1 x) (rrr2 x))
  | 4 => if rrr2 x = 0 then some (.fsqrtF p (rrr0 x) (rrr1 x)) else none
  | 5 => some (.fminF p (rrr0 x) (rrr1 x) (rrr2 x))
  | 6 => some (.fmaxF p (rrr0 x) (rrr1 x) (rrr2 x))
  | 7 => if rrr2 x = 0 then some (.fabsF p (rrr0 x) (rrr1 x)) else none
  | 8 => if rrr2 x = 0 then some (.fnegF p (rrr0 x) (rrr1 x)) else none
  | _ => none

/-- Major 0x12. -/
noncomputable def dec12 (p : Pred) (x : BitVec 20) : Option Instr :=
  match (rrr3 x).toNat with
  | 0 => some (.fmaD p (rrr0 x) (rrr1 x) (rrr2 x))
  | 1 => some (.fmsD p (rrr0 x) (rrr1 x) (rrr2 x))
  | 2 => some (.fmaF p (rrr0 x) (rrr1 x) (rrr2 x))
  | 3 => some (.fmsF p (rrr0 x) (rrr1 x) (rrr2 x))
  | _ => none

/-- Major 0x13. -/
noncomputable def dec13 (p : Pred) (x : BitVec 20) : Option Instr :=
  match (rrr3 x).toNat with
  | 0 => some (.fcmpEqD p (rrr0 x) (rrr1 x) (rrr2 x))
  | 1 => some (.fcmpLtD p (rrr0 x) (rrr1 x) (rrr2 x))
  | 2 => some (.fcmpLeD p (rrr0 x) (rrr1 x) (rrr2 x))
  | 3 => some (.fcmpUnD p (rrr0 x) (rrr1 x) (rrr2 x))
  | 4 => some (.fcmpEqF p (rrr0 x) (rrr1 x) (rrr2 x))
  | 5 => some (.fcmpLtF p (rrr0 x) (rrr1 x) (rrr2 x))
  | 6 => some (.fcmpLeF p (rrr0 x) (rrr1 x) (rrr2 x))
  | 7 => some (.fcmpUnF p (rrr0 x) (rrr1 x) (rrr2 x))
  | _ => none

/-- Major 0x14. -/
noncomputable def dec14 (p : Pred) (x : BitVec 20) : Option Instr :=
  match (rrr3 x).toNat with
  | 0 => some (.cvtFD p (rrr0 x) (rrr1 x) (rrr2 x))
  | 1 => if rrr2 x = 0 then some (.cvtDF p (rrr0 x) (rrr1 x)) else none
  | 2 => some (.cvtDS64 p (rrr0 x) (rrr1 x) (rrr2 x))
  | 3 => some (.cvtDZ64 p (rrr0 x) (rrr1 x) (rrr2 x))
  | 4 => some (.cvtS64D p (rrr0 x) (rrr1 x) (rrr2 x))
  | 5 => some (.cvtZ64D p (rrr0 x) (rrr1 x) (rrr2 x))
  | 6 => some (.cvtFS64 p (rrr0 x) (rrr1 x) (rrr2 x))
  | 7 => some (.cvtS64F p (rrr0 x) (rrr1 x) (rrr2 x))
  | 8 => some (.cvtFZ64 p (rrr0 x) (rrr1 x) (rrr2 x))
  | 9 => some (.cvtZ64F p (rrr0 x) (rrr1 x) (rrr2 x))
  | _ => none

/-- Major 0x15. -/
noncomputable def dec15 (p : Pred) (x : BitVec 20) : Option Instr :=
  match (rrr3 x).toNat with
  | 0 => if rrr2 x = 0 then some (.fclassD p (rrr0 x) (rrr1 x)) else none
  | 1 => if rrr2 x = 0 then some (.fclassF p (rrr0 x) (rrr1 x)) else none
  | _ => none

/-- Major 0x18. -/
noncomputable def dec18 (p : Pred) (x : BitVec 20) : Option Instr :=
  some (.br p x)

/-- Major 0x19. -/
noncomputable def dec19 (p : Pred) (x : BitVec 20) : Option Instr :=
  some (.call p x)

/-- Major 0x1A. -/
noncomputable def dec1A (p : Pred) (x : BitVec 20) : Option Instr :=
  match (rrr3 x).toNat with
  | 0 => if rrr0 x = 0 ∧ rrr2 x = 0 then some (.jmp p (rrr1 x)) else none
  | 1 => if rrr2 x = 0 then some (.callr p (rrr0 x) (rrr1 x)) else none
  | _ => none

/-- Major 0x1B. -/
noncomputable def dec1B (p : Pred) (x : BitVec 20) : Option Instr :=
  some (.loop p (rl0 x) (rl1 x))

/-- Major 0x1C. -/
noncomputable def dec1C (p : Pred) (x : BitVec 20) : Option Instr :=
  match (fl0 x).toNat with
  | 0 => some (.bany p (fl1 x) (fl2 x))
  | 1 => some (.ball p (fl1 x) (fl2 x))
  | _ => none

/-- Major 0x20. -/
noncomputable def dec20 (p : Pred) (x : BitVec 20) : Option Instr :=
  some (.mfs p (rl0 x) (rl1 x))

/-- Major 0x21. -/
noncomputable def dec21 (p : Pred) (x : BitVec 20) : Option Instr :=
  some (.mts p (rl0 x) (rl1 x))

/-- Major 0x22. -/
noncomputable def dec22 (p : Pred) (x : BitVec 20) : Option Instr :=
  match (rrr3 x).toNat with
  | 0 => if rrr0 x = 0 ∧ rrr1 x = 0 ∧ rrr2 x = 0 then some (.eret p) else none
  | 1 => if rrr0 x = 0 ∧ rrr1 x = 0 ∧ rrr2 x = 0 then some (.brk p) else none
  | 2 => if rrr0 x = 0 ∧ rrr1 x = 0 ∧ rrr2 x = 0 then some (.halt p) else none
  | 3 => if rrr0 x = 0 ∧ rrr1 x = 0 ∧ rrr2 x = 0 then some (.drainSt p) else none
  | 4 => if rrr0 x = 0 ∧ rrr1 x = 0 ∧ rrr2 x = 0 then some (.fenceI p) else none
  | 5 => if rrr0 x = 0 then some (.tlbwWriteEntry p (rrr1 x) (rrr2 x)) else none
  | 6 => if rrr0 x = 0 ∧ rrr1 x = 0 ∧ rrr2 x = 0 then some (.sleep p) else none
  | 7 => if rrr0 x = 0 ∧ rrr1 x = 0 ∧ rrr2 x = 0 then some (.nop p) else none
  | _ => none

/-- Major 0x23. -/
noncomputable def dec23 (p : Pred) (x : BitVec 20) : Option Instr :=
  if ri0 x = 0 ∧ ri1 x = 0 then some (.trap p (ri2 x)) else none

/-- Major 0x28. -/
noncomputable def dec28 (p : Pred) (x : BitVec 20) : Option Instr :=
  some (.ld p (mx0 x) (mx1 x) (mx2 x) (mx3 x))

/-- Major 0x29. -/
noncomputable def dec29 (p : Pred) (x : BitVec 20) : Option Instr :=
  some (.ldS32 p (mx0 x) (mx1 x) (mx2 x) (mx3 x))

/-- Major 0x2A. -/
noncomputable def dec2A (p : Pred) (x : BitVec 20) : Option Instr :=
  some (.ldZ32 p (mx0 x) (mx1 x) (mx2 x) (mx3 x))

/-- Major 0x2B. -/
noncomputable def dec2B (p : Pred) (x : BitVec 20) : Option Instr :=
  some (.ldS16 p (mx0 x) (mx1 x) (mx2 x) (mx3 x))

/-- Major 0x2C. -/
noncomputable def dec2C (p : Pred) (x : BitVec 20) : Option Instr :=
  some (.ldZ16 p (mx0 x) (mx1 x) (mx2 x) (mx3 x))

/-- Major 0x2D. -/
noncomputable def dec2D (p : Pred) (x : BitVec 20) : Option Instr :=
  some (.ldS8 p (mx0 x) (mx1 x) (mx2 x) (mx3 x))

/-- Major 0x2E. -/
noncomputable def dec2E (p : Pred) (x : BitVec 20) : Option Instr :=
  some (.ldZ8 p (mx0 x) (mx1 x) (mx2 x) (mx3 x))

/-- Major 0x2F. -/
noncomputable def dec2F (p : Pred) (x : BitVec 20) : Option Instr :=
  if mx2 x = 0 then some (.st p (mx0 x) (mx1 x) (mx3 x)) else none

/-- Major 0x30. -/
noncomputable def dec30 (p : Pred) (x : BitVec 20) : Option Instr :=
  if mx2 x = 0 then some (.st32 p (mx0 x) (mx1 x) (mx3 x)) else none

/-- Major 0x31. -/
noncomputable def dec31 (p : Pred) (x : BitVec 20) : Option Instr :=
  if mx2 x = 0 then some (.st16 p (mx0 x) (mx1 x) (mx3 x)) else none

/-- Major 0x32. -/
noncomputable def dec32 (p : Pred) (x : BitVec 20) : Option Instr :=
  if mx2 x = 0 then some (.st8 p (mx0 x) (mx1 x) (mx3 x)) else none

/-- Major 0x33. -/
noncomputable def dec33 (p : Pred) (x : BitVec 20) : Option Instr :=
  some (.ldW p (mx0 x) (mx1 x) (mx2 x) (mx3 x))

/-- Major 0x34. -/
noncomputable def dec34 (p : Pred) (x : BitVec 20) : Option Instr :=
  some (.ldT p (mx0 x) (mx1 x) (mx2 x) (mx3 x))

/-- Major 0x35. -/
noncomputable def dec35 (p : Pred) (x : BitVec 20) : Option Instr :=
  if mx2 x = 0 then some (.stF p (mx0 x) (mx1 x) (mx3 x)) else none

/-- Major 0x36. -/
noncomputable def dec36 (p : Pred) (x : BitVec 20) : Option Instr :=
  if mx2 x = 0 then some (.stS p (mx0 x) (mx1 x) (mx3 x)) else none

/-- Major 0x37. -/
noncomputable def dec37 (p : Pred) (x : BitVec 20) : Option Instr :=
  some (.feProbe p (mx0 x) (mx1 x) (mx2 x) (mx3 x))

/-- Major 0x38. -/
noncomputable def dec38 (p : Pred) (x : BitVec 20) : Option Instr :=
  if mx0 x = 0 ∧ mx2 x = 0 then some (.feClr p (mx1 x) (mx3 x)) else none

/-- Major 0x39. -/
noncomputable def dec39 (p : Pred) (x : BitVec 20) : Option Instr :=
  match (mx3 x).toNat with
  | 0 => some (.amoAdd p (mx0 x) (mx1 x) (mx2 x))
  | 1 => some (.amoAnd p (mx0 x) (mx1 x) (mx2 x))
  | 2 => some (.amoOr p (mx0 x) (mx1 x) (mx2 x))
  | 3 => some (.amoXor p (mx0 x) (mx1 x) (mx2 x))
  | 4 => some (.amoMinS64 p (mx0 x) (mx1 x) (mx2 x))
  | 5 => some (.amoMaxS64 p (mx0 x) (mx1 x) (mx2 x))
  | 6 => some (.amoMinZ64 p (mx0 x) (mx1 x) (mx2 x))
  | 7 => some (.amoMaxZ64 p (mx0 x) (mx1 x) (mx2 x))
  | 8 => some (.amoSwap p (mx0 x) (mx1 x) (mx2 x))
  | 9 => if x411 (mx0 x) = 0 then some (.amoCas p (x410 (mx0 x)) (mx1 x) (mx2 x)) else none
  | _ => none

/-- Major 0x3A. -/
noncomputable def dec3A (p : Pred) (x : BitVec 20) : Option Instr :=
  match (mx3 x).toNat with
  | 0 => if mx2 x = 0 then some (.redAdd p (mx0 x) (mx1 x)) else none
  | 1 => if mx2 x = 0 then some (.redAnd p (mx0 x) (mx1 x)) else none
  | 2 => if mx2 x = 0 then some (.redOr p (mx0 x) (mx1 x)) else none
  | 3 => if mx2 x = 0 then some (.redMinS64 p (mx0 x) (mx1 x)) else none
  | 4 => if mx2 x = 0 then some (.redMaxS64 p (mx0 x) (mx1 x)) else none
  | 5 => if mx2 x = 0 then some (.redMinZ64 p (mx0 x) (mx1 x)) else none
  | 6 => if mx2 x = 0 then some (.redMaxZ64 p (mx0 x) (mx1 x)) else none
  | 63 => if mx0 x = 0 ∧ mx1 x = 0 ∧ mx2 x = 0 then some (.rfence p) else none
  | _ => none

/-- Major 0x3B. -/
noncomputable def dec3B (p : Pred) (x : BitVec 20) : Option Instr :=
  match (rrr3 x).toNat with
  | 0 => some (.cpPlain p (rrr0 x) (rrr1 x) (rrr2 x))
  | 1 => some (.cpCopy p (rrr0 x) (rrr1 x) (rrr2 x))
  | 2 => some (.cpFill p (rrr0 x) (rrr1 x) (rrr2 x))
  | 3 => some (.cpNeed p (rrr0 x) (rrr1 x) (rrr2 x))
  | 4 => some (.cpTake p (rrr0 x) (rrr1 x) (rrr2 x))
  | _ => none

/-- Major 0x3C. -/
noncomputable def dec3C (p : Pred) (x : BitVec 20) : Option Instr :=
  match (rrr3 x).toNat with
  | 0 => if rrr1 x = 0 ∧ rrr2 x = 0 then some (.cbatch p (rrr0 x)) else none
  | 1 => if rrr0 x = 0 ∧ rrr2 x = 0 then some (.cwait p (rrr1 x)) else none
  | 2 => if rrr0 x = 0 ∧ rrr1 x = 0 ∧ rrr2 x = 0 then some (.xfence p) else none
  | _ => none

/-- Major 0x40. -/
noncomputable def dec40 (p : Pred) (x : BitVec 20) : Option Instr :=
  match (rrr3 x).toNat with
  | 0 => some (.vAdd p (rrr0 x) (rrr1 x) (rrr2 x))
  | 1 => some (.vSub p (rrr0 x) (rrr1 x) (rrr2 x))
  | 2 => some (.vMul p (rrr0 x) (rrr1 x) (rrr2 x))
  | 3 => some (.vMulhS32 p (rrr0 x) (rrr1 x) (rrr2 x))
  | 4 => some (.vMulhZ32 p (rrr0 x) (rrr1 x) (rrr2 x))
  | 5 => some (.vAnd p (rrr0 x) (rrr1 x) (rrr2 x))
  | 6 => some (.vOr p (rrr0 x) (rrr1 x) (rrr2 x))
  | 7 => some (.vXor p (rrr0 x) (rrr1 x) (rrr2 x))
  | 8 => some (.vShl p (rrr0 x) (rrr1 x) (rrr2 x))
  | 9 => some (.vShr p (rrr0 x) (rrr1 x) (rrr2 x))
  | 10 => some (.vSar p (rrr0 x) (rrr1 x) (rrr2 x))
  | 11 => some (.vMinS32 p (rrr0 x) (rrr1 x) (rrr2 x))
  | 12 => some (.vMinZ32 p (rrr0 x) (rrr1 x) (rrr2 x))
  | 13 => some (.vMaxS32 p (rrr0 x) (rrr1 x) (rrr2 x))
  | 14 => some (.vMaxZ32 p (rrr0 x) (rrr1 x) (rrr2 x))
  | 15 => some (.vAddsS32 p (rrr0 x) (rrr1 x) (rrr2 x))
  | 16 => some (.vSubsS32 p (rrr0 x) (rrr1 x) (rrr2 x))
  | 17 => if rrr2 x = 0 then some (.vAbsS32 p (rrr0 x) (rrr1 x)) else none
  | _ => none

/-- Major 0x41. -/
noncomputable def dec41 (p : Pred) (x : BitVec 20) : Option Instr :=
  match (rrr3 x).toNat with
  | 0 => some (.vFaddF p (rrr0 x) (rrr1 x) (rrr2 x))
  | 1 => some (.vFsubF p (rrr0 x) (rrr1 x) (rrr2 x))
  | 2 => some (.vFmulF p (rrr0 x) (rrr1 x) (rrr2 x))
  | 3 => some (.vFdivF p (rrr0 x) (rrr1 x) (rrr2 x))
  | 4 => if rrr2 x = 0 then some (.vFsqrtF p (rrr0 x) (rrr1 x)) else none
  | 5 => some (.vFminF p (rrr0 x) (rrr1 x) (rrr2 x))
  | 6 => some (.vFmaxF p (rrr0 x) (rrr1 x) (rrr2 x))
  | 7 => if rrr2 x = 0 then some (.vFabsF p (rrr0 x) (rrr1 x)) else none
  | 8 => if rrr2 x = 0 then some (.vFnegF p (rrr0 x) (rrr1 x)) else none
  | 9 => some (.vFmaF p (rrr0 x) (rrr1 x) (rrr2 x))
  | 10 => some (.vFmsF p (rrr0 x) (rrr1 x) (rrr2 x))
  | _ => none

/-- Major 0x42. -/
noncomputable def dec42 (p : Pred) (x : BitVec 20) : Option Instr :=
  match (rrr3 x).toNat with
  | 0 => some (.vFaddH p (rrr0 x) (rrr1 x) (rrr2 x))
  | 1 => some (.vFmulH p (rrr0 x) (rrr1 x) (rrr2 x))
  | 2 => some (.vFmaH p (rrr0 x) (rrr1 x) (rrr2 x))
  | 3 => some (.vFaddB p (rrr0 x) (rrr1 x) (rrr2 x))
  | 4 => some (.vFmulB p (rrr0 x) (rrr1 x) (rrr2 x))
  | 5 => some (.vFmaB p (rrr0 x) (rrr1 x) (rrr2 x))
  | _ => none

/-- Major 0x43. -/
noncomputable def dec43 (p : Pred) (x : BitVec 20) : Option Instr :=
  match (rrr3 x).toNat with
  | 0 => some (.vFaddD p (rrr0 x) (rrr1 x) (rrr2 x))
  | 1 => some (.vFsubD p (rrr0 x) (rrr1 x) (rrr2 x))
  | 2 => some (.vFmulD p (rrr0 x) (rrr1 x) (rrr2 x))
  | 3 => some (.vFmaD p (rrr0 x) (rrr1 x) (rrr2 x))
  | 4 => some (.vFminD p (rrr0 x) (rrr1 x) (rrr2 x))
  | 5 => some (.vFmaxD p (rrr0 x) (rrr1 x) (rrr2 x))
  | 6 => some (.vFdivD p (rrr0 x) (rrr1 x) (rrr2 x))
  | 7 => if rrr2 x = 0 then some (.vFsqrtD p (rrr0 x) (rrr1 x)) else none
  | _ => none

/-- Major 0x44. -/
noncomputable def dec44 (p : Pred) (x : BitVec 20) : Option Instr :=
  match (rrr3 x).toNat with
  | 0 => some (.vCmpEq p (rrr0 x) (rrr1 x) (rrr2 x))
  | 1 => some (.vCmpNe p (rrr0 x) (rrr1 x) (rrr2 x))
  | 2 => some (.vCmpLtS32 p (rrr0 x) (rrr1 x) (rrr2 x))
  | 3 => some (.vCmpLtZ32 p (rrr0 x) (rrr1 x) (rrr2 x))
  | 4 => some (.vCmpLeS32 p (rrr0 x) (rrr1 x) (rrr2 x))
  | 5 => some (.vCmpLeZ32 p (rrr0 x) (rrr1 x) (rrr2 x))
  | 8 => some (.vFcmpEqF p (rrr0 x) (rrr1 x) (rrr2 x))
  | 9 => some (.vFcmpLtF p (rrr0 x) (rrr1 x) (rrr2 x))
  | 10 => some (.vFcmpLeF p (rrr0 x) (rrr1 x) (rrr2 x))
  | 11 => some (.vFcmpUnF p (rrr0 x) (rrr1 x) (rrr2 x))
  | _ => none

/-- Major 0x45. -/
noncomputable def dec45 (p : Pred) (x : BitVec 20) : Option Instr :=
  match (rrr3 x).toNat with
  | 0 => some (.vCvtFS32 p (rrr0 x) (rrr1 x) (rrr2 x))
  | 1 => some (.vCvtS32F p (rrr0 x) (rrr1 x) (rrr2 x))
  | 2 => some (.vCvtHF p (rrr0 x) (rrr1 x) (rrr2 x))
  | 3 => if rrr2 x = 0 then some (.vCvtFH p (rrr0 x) (rrr1 x)) else none
  | 4 => some (.vCvtBF p (rrr0 x) (rrr1 x) (rrr2 x))
  | 5 => if rrr2 x = 0 then some (.vCvtFB p (rrr0 x) (rrr1 x)) else none
  | 6 => some (.vCvtE43F p (rrr0 x) (rrr1 x) (rrr2 x))
  | 7 => if rrr2 x = 0 then some (.vCvtFE43 p (rrr0 x) (rrr1 x)) else none
  | 8 => some (.vCvtE52F p (rrr0 x) (rrr1 x) (rrr2 x))
  | 9 => if rrr2 x = 0 then some (.vCvtFE52 p (rrr0 x) (rrr1 x)) else none
  | 10 => if rrr2 x = 0 then some (.vCvtDF p (rrr0 x) (rrr1 x)) else none
  | 11 => some (.vCvtFD p (rrr0 x) (rrr1 x) (rrr2 x))
  | _ => none

/-- Major 0x46. -/
noncomputable def dec46 (p : Pred) (x : BitVec 20) : Option Instr :=
  match (rrr3 x).toNat with
  | 0 => if rrr2 x = 0 then some (.vMov p (rrr0 x) (rrr1 x)) else none
  | 1 => if rrr2 x = 0 then some (.vBcast p (rrr0 x) (rrr1 x)) else none
  | 2 => some (.vPerm p (rrr0 x) (rrr1 x) (rrr2 x))
  | 3 => if rrr2 x = 0 then some (.vRev p (rrr0 x) (rrr1 x)) else none
  | 4 => some (.vRot p (rrr0 x) (rrr1 x) (rrr2 x))
  | 5 => some (.vIns p (rrr0 x) (rrr1 x) (rrr2 x))
  | 6 => some (.vExt p (rrr0 x) (rrr1 x) (rrr2 x))
  | 7 => if rrr2 x = 0 then some (.vFirst p (rrr0 x) (rrr1 x)) else none
  | _ => none

/-- Major 0x47. -/
noncomputable def dec47 (p : Pred) (x : BitVec 20) : Option Instr :=
  match (rrr3 x).toNat with
  | 0 => if rrr2 x = 0 then some (.vRsumF p (rrr0 x) (rrr1 x)) else none
  | 1 => if rrr2 x = 0 then some (.vRsumS32 p (rrr0 x) (rrr1 x)) else none
  | 2 => if rrr2 x = 0 then some (.vRminF p (rrr0 x) (rrr1 x)) else none
  | 3 => if rrr2 x = 0 then some (.vRmaxF p (rrr0 x) (rrr1 x)) else none
  | 4 => if rrr2 x = 0 then some (.vRminS32 p (rrr0 x) (rrr1 x)) else none
  | 5 => if rrr2 x = 0 then some (.vRmaxS32 p (rrr0 x) (rrr1 x)) else none
  | 6 => if rrr2 x = 0 then some (.vRand p (rrr0 x) (rrr1 x)) else none
  | 7 => if rrr2 x = 0 then some (.vRbor p (rrr0 x) (rrr1 x)) else none
  | 8 => if rrr2 x = 0 then some (.vRxor p (rrr0 x) (rrr1 x)) else none
  | _ => none

/-- Major 0x48. -/
noncomputable def dec48 (p : Pred) (x : BitVec 20) : Option Instr :=
  match (rrr3 x).toNat with
  | 0 => some (.vJ4dec p (rrr0 x) (rrr1 x) (rrr2 x))
  | 1 => some (.vJ4enc p (rrr0 x) (rrr1 x) (rrr2 x))
  | 2 => some (.vBaddq p (rrr0 x) (rrr1 x) (rrr2 x))
  | _ => none

/-- Major 0x50. -/
noncomputable def dec50 (p : Pred) (x : BitVec 20) : Option Instr :=
  some (.vLd p (mx0 x) (mx1 x) (mx2 x) (mx3 x))

/-- Major 0x51. -/
noncomputable def dec51 (p : Pred) (x : BitVec 20) : Option Instr :=
  if mx2 x = 0 then some (.vSt p (mx0 x) (mx1 x) (mx3 x)) else none

/-- Major 0x52. -/
noncomputable def dec52 (p : Pred) (x : BitVec 20) : Option Instr :=
  if f150 (mx3 x) = 0 then some (.vLds p (mx0 x) (mx1 x) (mx2 x) (f151 (mx3 x))) else none

/-- Major 0x53. -/
noncomputable def dec53 (p : Pred) (x : BitVec 20) : Option Instr :=
  if mx2 x = 0 ∧ f150 (mx3 x) = 0 then some (.vSts p (mx0 x) (mx1 x) (f151 (mx3 x))) else none

/-- Major 0x54. -/
noncomputable def dec54 (p : Pred) (x : BitVec 20) : Option Instr :=
  if f150 (mx3 x) = 0 then some (.vGather p (mx0 x) (mx1 x) (mx2 x) (f151 (mx3 x))) else none

/-- Major 0x55. -/
noncomputable def dec55 (p : Pred) (x : BitVec 20) : Option Instr :=
  if mx2 x = 0 ∧ f150 (mx3 x) = 0 then some (.vScatter p (mx0 x) (mx1 x) (f151 (mx3 x))) else none

/-- Major 0x60. -/
noncomputable def dec60 (p : Pred) (x : BitVec 20) : Option Instr :=
  match (rrr3 x).toNat with
  | 0 => some (.fAnd p (rrr0 x) (rrr1 x) (rrr2 x))
  | 1 => some (.fOr p (rrr0 x) (rrr1 x) (rrr2 x))
  | 2 => some (.fXor p (rrr0 x) (rrr1 x) (rrr2 x))
  | 3 => some (.fAndn p (rrr0 x) (rrr1 x) (rrr2 x))
  | 4 => if rrr2 x = 0 then some (.fNot p (rrr0 x) (rrr1 x)) else none
  | 5 => if rrr2 x = 0 then some (.fSet p (rrr0 x) (rrr1 x)) else none
  | 6 => if rrr2 x = 0 then some (.fGet p (rrr0 x) (rrr1 x)) else none
  | 7 => if rrr2 x = 0 then some (.fPopc p (rrr0 x) (rrr1 x)) else none
  | _ => none

/-- Major 0x68. -/
noncomputable def dec68 (p : Pred) (x : BitVec 20) : Option Instr :=
  if p = Pred.always ∧ ri0 x = 0 ∧ ri1 x = 0 then some (.pub (ri2 x)) else none

/-- Major 0x69. -/
noncomputable def dec69 (p : Pred) (x : BitVec 20) : Option Instr :=
  match (rrr2 x).toNat with
  | 0 => if p = Pred.always ∧ rrr0 x = 0 ∧ rrr1 x = 0 ∧ rrr3 x = 0 then some (.endpub) else none
  | 1 => if p = Pred.always ∧ rrr0 x = 0 ∧ rrr3 x = 0 then some (.subscribe (rrr1 x)) else none
  | 2 => if p = Pred.always ∧ rrr0 x = 0 ∧ rrr1 x = 0 then some (.join (rrr3 x)) else none
  | 3 => if p = Pred.always ∧ rrr0 x = 0 ∧ rrr1 x = 0 then some (.rdv (rrr3 x)) else none
  | 4 => if p = Pred.always ∧ rrr0 x = 0 ∧ rrr1 x = 0 ∧ rrr3 x = 0 then some (.chSync) else none
  | 5 => if rrr0 x = 0 ∧ rrr3 x = 0 then some (.sqkill p (rrr1 x)) else none
  | _ => none

/-- Major 0x6A. -/
noncomputable def dec6A (p : Pred) (x : BitVec 20) : Option Instr :=
  if p = Pred.always ∧ lv0 x = 0 then some (.leave (lv1 x) (lv2 x) (lv3 x)) else none

/-- Major 0x6B. -/
noncomputable def dec6B (p : Pred) (x : BitVec 20) : Option Instr :=
  match (rrr3 x).toNat with
  | 0 => if rrr0 x = 0 ∧ rrr2 x = 0 then some (.portcfg p (rrr1 x)) else none
  | 1 => if rrr0 x = 0 then some (.send p (rrr1 x) (rrr2 x)) else none
  | _ => none

/-- Major 0x6C. -/
noncomputable def dec6C (p : Pred) (x : BitVec 20) : Option Instr :=
  some (.btag p (rl0 x) (rl1 x))

/-- Major 0x70. -/
noncomputable def dec70 (p : Pred) (x : BitVec 20) : Option Instr :=
  if mx1 x = 0 ∧ mx2 x = 0 ∧ mx3 x = 0 then some (.mxCtx p (mx0 x)) else none

/-- Major 0x71. -/
noncomputable def dec71 (p : Pred) (x : BitVec 20) : Option Instr :=
  if mx0 x = 0 ∧ mx2 x = 0 ∧ f150 (mx3 x) = 0 then some (.mxLdb p (mx1 x) (f151 (mx3 x))) else none

/-- Major 0x72. -/
noncomputable def dec72 (p : Pred) (x : BitVec 20) : Option Instr :=
  if x320 (mx0 x) = 0 ∧ mx1 x = 0 ∧ mx2 x = 0 ∧ f150 (mx3 x) = 0 then some (.mxSetb p (x321 (mx0 x)) (f151 (mx3 x))) else none

/-- Major 0x73. -/
noncomputable def dec73 (p : Pred) (x : BitVec 20) : Option Instr :=
  if mx2 x = 0 ∧ f3210 (mx3 x) = 0 then some (.mxMma p (mx0 x) (mx1 x) (f3211 (mx3 x)) (f3212 (mx3 x))) else none

/-- Major 0x74. -/
noncomputable def dec74 (p : Pred) (x : BitVec 20) : Option Instr :=
  if mx0 x = 0 ∧ mx1 x = 0 ∧ mx2 x = 0 ∧ f510 (mx3 x) = 0 then some (.mxZero p (f511 (mx3 x))) else none

/-- Major 0x75. -/
noncomputable def dec75 (p : Pred) (x : BitVec 20) : Option Instr :=
  match (f4111 (mx3 x)).toNat with
  | 0 => if mx2 x = 0 ∧ f4110 (mx3 x) = 0 then some (.mxDrain p (mx0 x) (mx1 x) (f4112 (mx3 x))) else none
  | 1 => if mx2 x = 0 ∧ f4110 (mx3 x) = 0 then some (.mxDrainRaw p (mx0 x) (mx1 x) (f4112 (mx3 x))) else none
  | _ => none

/-- Major 0x76. -/
noncomputable def dec76 (p : Pred) (x : BitVec 20) : Option Instr :=
  match (mx3 x).toNat with
  | 0 => if mx1 x = 0 then some (.hresv p (mx0 x) (mx2 x)) else none
  | 1 => if mx2 x = 0 then some (.rowout p (mx0 x) (mx1 x)) else none
  | 2 => if mx1 x = 0 then some (.mxBatch p (mx0 x) (mx2 x)) else none
  | 3 => if mx1 x = 0 ∧ mx2 x = 0 then some (.mxWait p (mx0 x)) else none
  | _ => none

/-- Major 0x77. -/
noncomputable def dec77 (p : Pred) (x : BitVec 20) : Option Instr :=
  if mx1 x = 0 ∧ f240 (mx3 x) = 0 then some (.mxCnt p (mx0 x) (mx2 x) (f241 (mx3 x))) else none

/-- Major 0x78. -/
noncomputable def dec78 (p : Pred) (x : BitVec 20) : Option Instr :=
  match (mx2 x).toNat with
  | 0 => if mx0 x = 0 ∧ f240 (mx3 x) = 0 then some (.barCfg p (mx1 x) (f241 (mx3 x))) else none
  | 1 => if mx0 x = 0 ∧ mx1 x = 0 ∧ f240 (mx3 x) = 0 then some (.barArrive p (f241 (mx3 x))) else none
  | 2 => if mx0 x = 0 ∧ mx1 x = 0 ∧ f240 (mx3 x) = 0 then some (.barWait p (f241 (mx3 x))) else none
  | 3 => if mx0 x = 0 ∧ mx1 x = 0 ∧ f240 (mx3 x) = 0 then some (.barSync p (f241 (mx3 x))) else none
  | _ => none

/-- Major 0x79. -/
noncomputable def dec79 (p : Pred) (x : BitVec 20) : Option Instr :=
  match (f511 (mx3 x)).toNat with
  | 0 => if f510 (mx3 x) = 0 then some (.ticket p (mx0 x) (mx1 x) (mx2 x)) else none
  | 1 => if f510 (mx3 x) = 0 then some (.ticketBc p (mx0 x) (mx1 x) (mx2 x)) else none
  | _ => none

/-- Major 0x7A. -/
noncomputable def dec7A (p : Pred) (x : BitVec 20) : Option Instr :=
  match (rrr3 x).toNat with
  | 0 => if rrr0 x = 0 ∧ rrr2 x = 0 then some (.fenceS p (rrr1 x)) else none
  | _ => none

/-- Major 0x7C. -/
noncomputable def dec7C (p : Pred) (x : BitVec 20) : Option Instr :=
  match (rrr3 x).toNat with
  | 0 => if rrr0 x = 0 ∧ rrr2 x = 0 then some (.go p (rrr1 x)) else none
  | 1 => if rrr2 x = 0 then some (.launch p (rrr0 x) (rrr1 x)) else none
  | 2 => if rrr0 x = 0 ∧ rrr2 x = 0 then some (.idemBegin p (rrr1 x)) else none
  | 3 => if rrr0 x = 0 ∧ rrr1 x = 0 ∧ rrr2 x = 0 then some (.idemEnd p) else none
  | _ => none

/-- Major 0x7D. -/
noncomputable def dec7D (p : Pred) (x : BitVec 20) : Option Instr :=
  if mx1 x = 0 ∧ mx2 x = 0 ∧ mx3 x = 0 then some (.xfer p (mx0 x)) else none

/-- Major 0x7E. -/
noncomputable def dec7E (p : Pred) (x : BitVec 20) : Option Instr :=
  if mx3 x = 0 then some (.bqPop p (mx0 x) (mx1 x) (mx2 x)) else none

/-- The majors 0x00 to 0x0F, by the low four bits (R28). -/
noncomputable def majors0 (m : Nat) (p : Pred) (x : BitVec 20) : Option Instr :=
  match m with
  | 1 => dec01 p x
  | 2 => dec02 p x
  | 3 => dec03 p x
  | 4 => dec04 p x
  | 5 => dec05 p x
  | 6 => dec06 p x
  | 7 => dec07 p x
  | 8 => dec08 p x
  | 9 => dec09 p x
  | 10 => dec0A p x
  | 11 => dec0B p x
  | 12 => dec0C p x
  | 13 => dec0D p x
  | 14 => dec0E p x
  | 15 => dec0F p x
  | _ => none

/-- The majors 0x10 to 0x1F, by the low four bits (R28). -/
noncomputable def majors1 (m : Nat) (p : Pred) (x : BitVec 20) : Option Instr :=
  match m with
  | 0 => dec10 p x
  | 1 => dec11 p x
  | 2 => dec12 p x
  | 3 => dec13 p x
  | 4 => dec14 p x
  | 5 => dec15 p x
  | 8 => dec18 p x
  | 9 => dec19 p x
  | 10 => dec1A p x
  | 11 => dec1B p x
  | 12 => dec1C p x
  | _ => none

/-- The majors 0x20 to 0x2F, by the low four bits (R28). -/
noncomputable def majors2 (m : Nat) (p : Pred) (x : BitVec 20) : Option Instr :=
  match m with
  | 0 => dec20 p x
  | 1 => dec21 p x
  | 2 => dec22 p x
  | 3 => dec23 p x
  | 8 => dec28 p x
  | 9 => dec29 p x
  | 10 => dec2A p x
  | 11 => dec2B p x
  | 12 => dec2C p x
  | 13 => dec2D p x
  | 14 => dec2E p x
  | 15 => dec2F p x
  | _ => none

/-- The majors 0x30 to 0x3F, by the low four bits (R28). -/
noncomputable def majors3 (m : Nat) (p : Pred) (x : BitVec 20) : Option Instr :=
  match m with
  | 0 => dec30 p x
  | 1 => dec31 p x
  | 2 => dec32 p x
  | 3 => dec33 p x
  | 4 => dec34 p x
  | 5 => dec35 p x
  | 6 => dec36 p x
  | 7 => dec37 p x
  | 8 => dec38 p x
  | 9 => dec39 p x
  | 10 => dec3A p x
  | 11 => dec3B p x
  | 12 => dec3C p x
  | _ => none

/-- The majors 0x40 to 0x4F, by the low four bits (R28). -/
noncomputable def majors4 (m : Nat) (p : Pred) (x : BitVec 20) : Option Instr :=
  match m with
  | 0 => dec40 p x
  | 1 => dec41 p x
  | 2 => dec42 p x
  | 3 => dec43 p x
  | 4 => dec44 p x
  | 5 => dec45 p x
  | 6 => dec46 p x
  | 7 => dec47 p x
  | 8 => dec48 p x
  | _ => none

/-- The majors 0x50 to 0x5F, by the low four bits (R28). -/
noncomputable def majors5 (m : Nat) (p : Pred) (x : BitVec 20) : Option Instr :=
  match m with
  | 0 => dec50 p x
  | 1 => dec51 p x
  | 2 => dec52 p x
  | 3 => dec53 p x
  | 4 => dec54 p x
  | 5 => dec55 p x
  | _ => none

/-- The majors 0x60 to 0x6F, by the low four bits (R28). -/
noncomputable def majors6 (m : Nat) (p : Pred) (x : BitVec 20) : Option Instr :=
  match m with
  | 0 => dec60 p x
  | 8 => dec68 p x
  | 9 => dec69 p x
  | 10 => dec6A p x
  | 11 => dec6B p x
  | 12 => dec6C p x
  | _ => none

/-- The majors 0x70 to 0x7F, by the low four bits (R28). -/
noncomputable def majors7 (m : Nat) (p : Pred) (x : BitVec 20) : Option Instr :=
  match m with
  | 0 => dec70 p x
  | 1 => dec71 p x
  | 2 => dec72 p x
  | 3 => dec73 p x
  | 4 => dec74 p x
  | 5 => dec75 p x
  | 6 => dec76 p x
  | 7 => dec77 p x
  | 8 => dec78 p x
  | 9 => dec79 p x
  | 10 => dec7A p x
  | 12 => dec7C p x
  | 13 => dec7D p x
  | 14 => dec7E p x
  | _ => none

/-- The decoder of each major opcode (R28); an unassigned major decodes to nothing. -/
noncomputable def decodeMajor (maj : BitVec 7) (p : Pred) (x : BitVec 20) : Option Instr :=
  match maj.toNat / 16 with
  | 0 => majors0 (maj.toNat % 16) p x
  | 1 => majors1 (maj.toNat % 16) p x
  | 2 => majors2 (maj.toNat % 16) p x
  | 3 => majors3 (maj.toNat % 16) p x
  | 4 => majors4 (maj.toNat % 16) p x
  | 5 => majors5 (maj.toNat % 16) p x
  | 6 => majors6 (maj.toNat % 16) p x
  | 7 => majors7 (maj.toNat % 16) p x
  | _ => none

/-- The instruction whose fields a word holds, before the limits of R38 on field values are checked. -/
noncomputable def decodeFields (w : BitVec 32) : Option Instr := decodeMajor (word2 w) ⟨word0 w, word1 w⟩ (word3 w)

/-- The instruction a word is, or none where R38 makes it raise ILL. -/
noncomputable def decode (w : BitVec 32) : Option Instr :=
  match decodeFields w with
  | some i => if wf i then some i else none
  | none => none

/-- A word with predicate p, major opcode maj and operand bits x (R14). -/
def wordOf (p : Pred) (maj : BitVec 7) (x : BitVec 20) : BitVec 32 := wordPack p.n p.f maj x

/-- The word of an encoded instruction, from the opcode map (R29-R37); an event row has none. -/
def encode : Instr → Option (BitVec 32)
  | .add p d a b => some (wordOf p 0x01 (rrrPack d a b 0))
  | .sub p d a b => some (wordOf p 0x01 (rrrPack d a b 1))
  | .and p d a b => some (wordOf p 0x01 (rrrPack d a b 2))
  | .or p d a b => some (wordOf p 0x01 (rrrPack d a b 3))
  | .xor p d a b => some (wordOf p 0x01 (rrrPack d a b 4))
  | .andn p d a b => some (wordOf p 0x01 (rrrPack d a b 5))
  | .shl p d a b => some (wordOf p 0x01 (rrrPack d a b 6))
  | .shr p d a b => some (wordOf p 0x01 (rrrPack d a b 7))
  | .sar p d a b => some (wordOf p 0x01 (rrrPack d a b 8))
  | .ror p d a b => some (wordOf p 0x01 (rrrPack d a b 9))
  | .minS64 p d a b => some (wordOf p 0x01 (rrrPack d a b 10))
  | .minZ64 p d a b => some (wordOf p 0x01 (rrrPack d a b 11))
  | .maxS64 p d a b => some (wordOf p 0x01 (rrrPack d a b 12))
  | .maxZ64 p d a b => some (wordOf p 0x01 (rrrPack d a b 13))
  | .addsS64 p d a b => some (wordOf p 0x01 (rrrPack d a b 14))
  | .subsS64 p d a b => some (wordOf p 0x01 (rrrPack d a b 15))
  | .mul p d a b => some (wordOf p 0x02 (rrrPack d a b 0))
  | .mulhS64 p d a b => some (wordOf p 0x02 (rrrPack d a b 1))
  | .mulhZ64 p d a b => some (wordOf p 0x02 (rrrPack d a b 2))
  | .divS64 p d a b => some (wordOf p 0x02 (rrrPack d a b 3))
  | .divZ64 p d a b => some (wordOf p 0x02 (rrrPack d a b 4))
  | .remS64 p d a b => some (wordOf p 0x02 (rrrPack d a b 5))
  | .remZ64 p d a b => some (wordOf p 0x02 (rrrPack d a b 6))
  | .clz p d a => some (wordOf p 0x03 (rrrPack d a 0 0))
  | .ctz p d a => some (wordOf p 0x03 (rrrPack d a 0 1))
  | .popc p d a => some (wordOf p 0x03 (rrrPack d a 0 2))
  | .brev p d a => some (wordOf p 0x03 (rrrPack d a 0 3))
  | .bswap p d a => some (wordOf p 0x03 (rrrPack d a 0 4))
  | .bfxZ p d a b => some (wordOf p 0x03 (rrrPack d a b 5))
  | .bfxS p d a b => some (wordOf p 0x03 (rrrPack d a b 6))
  | .bfi p d a b => some (wordOf p 0x03 (rrrPack d a b 7))
  | .extS8 p d a => some (wordOf p 0x03 (rrrPack d a 0 8))
  | .extS16 p d a => some (wordOf p 0x03 (rrrPack d a 0 9))
  | .extS32 p d a => some (wordOf p 0x03 (rrrPack d a 0 10))
  | .extZ8 p d a => some (wordOf p 0x03 (rrrPack d a 0 11))
  | .extZ16 p d a => some (wordOf p 0x03 (rrrPack d a 0 12))
  | .extZ32 p d a => some (wordOf p 0x03 (rrrPack d a 0 13))
  | .cmpEq p d a b => some (wordOf p 0x04 (rrrPack d a b 0))
  | .cmpNe p d a b => some (wordOf p 0x04 (rrrPack d a b 1))
  | .cmpLtS64 p d a b => some (wordOf p 0x04 (rrrPack d a b 2))
  | .cmpLtZ64 p d a b => some (wordOf p 0x04 (rrrPack d a b 3))
  | .cmpLeS64 p d a b => some (wordOf p 0x04 (rrrPack d a b 4))
  | .cmpLeZ64 p d a b => some (wordOf p 0x04 (rrrPack d a b 5))
  | .addl p d i => some (wordOf p 0x05 (rlPack d i))
  | .addi p d a i => some (wordOf p 0x06 (riPack d a i))
  | .andi p d a i => some (wordOf p 0x07 (riPack d a i))
  | .ori p d a i => some (wordOf p 0x08 (riPack d a i))
  | .xori p d a i => some (wordOf p 0x09 (riPack d a i))
  | .shli p d a c => some (wordOf p 0x0A (mxPack d a 0 c))
  | .shri p d a c => some (wordOf p 0x0A (mxPack d a 1 c))
  | .sari p d a c => some (wordOf p 0x0A (mxPack d a 2 c))
  | .rori p d a c => some (wordOf p 0x0A (mxPack d a 3 c))
  | .cmpiEq p d a i => some (wordOf p 0x0B (rikPack d a 0 i))
  | .cmpiNe p d a i => some (wordOf p 0x0B (rikPack d a 1 i))
  | .cmpiLtS64 p d a i => some (wordOf p 0x0B (rikPack d a 2 i))
  | .cmpiLtZ64 p d a i => some (wordOf p 0x0B (rikPack d a 3 i))
  | .cmpiLeS64 p d a i => some (wordOf p 0x0B (rikPack d a 4 i))
  | .cmpiLeZ64 p d a i => some (wordOf p 0x0B (rikPack d a 5 i))
  | .cmpiGtS64 p d a i => some (wordOf p 0x0B (rikPack d a 6 i))
  | .cmpiGtZ64 p d a i => some (wordOf p 0x0B (rikPack d a 7 i))
  | .li p d i => some (wordOf p 0x0C (rlPack d i))
  | .lis p d i => some (wordOf p 0x0D (rlPack d i))
  | .addpc p d i => some (wordOf p 0x0E (rlPack d i))
  | .addpch p d i => some (wordOf p 0x0F (rlPack d i))
  | .faddD p d a b => some (wordOf p 0x10 (rrrPack d a b 0))
  | .fsubD p d a b => some (wordOf p 0x10 (rrrPack d a b 1))
  | .fmulD p d a b => some (wordOf p 0x10 (rrrPack d a b 2))
  | .fdivD p d a b => some (wordOf p 0x10 (rrrPack d a b 3))
  | .fsqrtD p d a => some (wordOf p 0x10 (rrrPack d a 0 4))
  | .fminD p d a b => some (wordOf p 0x10 (rrrPack d a b 5))
  | .fmaxD p d a b => some (wordOf p 0x10 (rrrPack d a b 6))
  | .fabsD p d a => some (wordOf p 0x10 (rrrPack d a 0 7))
  | .fnegD p d a => some (wordOf p 0x10 (rrrPack d a 0 8))
  | .faddF p d a b => some (wordOf p 0x11 (rrrPack d a b 0))
  | .fsubF p d a b => some (wordOf p 0x11 (rrrPack d a b 1))
  | .fmulF p d a b => some (wordOf p 0x11 (rrrPack d a b 2))
  | .fdivF p d a b => some (wordOf p 0x11 (rrrPack d a b 3))
  | .fsqrtF p d a => some (wordOf p 0x11 (rrrPack d a 0 4))
  | .fminF p d a b => some (wordOf p 0x11 (rrrPack d a b 5))
  | .fmaxF p d a b => some (wordOf p 0x11 (rrrPack d a b 6))
  | .fabsF p d a => some (wordOf p 0x11 (rrrPack d a 0 7))
  | .fnegF p d a => some (wordOf p 0x11 (rrrPack d a 0 8))
  | .fmaD p d a b => some (wordOf p 0x12 (rrrPack d a b 0))
  | .fmsD p d a b => some (wordOf p 0x12 (rrrPack d a b 1))
  | .fmaF p d a b => some (wordOf p 0x12 (rrrPack d a b 2))
  | .fmsF p d a b => some (wordOf p 0x12 (rrrPack d a b 3))
  | .fcmpEqD p d a b => some (wordOf p 0x13 (rrrPack d a b 0))
  | .fcmpLtD p d a b => some (wordOf p 0x13 (rrrPack d a b 1))
  | .fcmpLeD p d a b => some (wordOf p 0x13 (rrrPack d a b 2))
  | .fcmpUnD p d a b => some (wordOf p 0x13 (rrrPack d a b 3))
  | .fcmpEqF p d a b => some (wordOf p 0x13 (rrrPack d a b 4))
  | .fcmpLtF p d a b => some (wordOf p 0x13 (rrrPack d a b 5))
  | .fcmpLeF p d a b => some (wordOf p 0x13 (rrrPack d a b 6))
  | .fcmpUnF p d a b => some (wordOf p 0x13 (rrrPack d a b 7))
  | .cvtFD p d a r => some (wordOf p 0x14 (rrrPack d a r 0))
  | .cvtDF p d a => some (wordOf p 0x14 (rrrPack d a 0 1))
  | .cvtDS64 p d a r => some (wordOf p 0x14 (rrrPack d a r 2))
  | .cvtDZ64 p d a r => some (wordOf p 0x14 (rrrPack d a r 3))
  | .cvtS64D p d a r => some (wordOf p 0x14 (rrrPack d a r 4))
  | .cvtZ64D p d a r => some (wordOf p 0x14 (rrrPack d a r 5))
  | .cvtFS64 p d a r => some (wordOf p 0x14 (rrrPack d a r 6))
  | .cvtS64F p d a r => some (wordOf p 0x14 (rrrPack d a r 7))
  | .cvtFZ64 p d a r => some (wordOf p 0x14 (rrrPack d a r 8))
  | .cvtZ64F p d a r => some (wordOf p 0x14 (rrrPack d a r 9))
  | .fclassD p d a => some (wordOf p 0x15 (rrrPack d a 0 0))
  | .fclassF p d a => some (wordOf p 0x15 (rrrPack d a 0 1))
  | .br p i => some (wordOf p 0x18 i)
  | .call p i => some (wordOf p 0x19 i)
  | .jmp p a => some (wordOf p 0x1A (rrrPack 0 a 0 0))
  | .callr p d a => some (wordOf p 0x1A (rrrPack d a 0 1))
  | .loop p d i => some (wordOf p 0x1B (rlPack d i))
  | .bany p g i => some (wordOf p 0x1C (flPack 0 g i))
  | .ball p g i => some (wordOf p 0x1C (flPack 1 g i))
  | .mfs p d c => some (wordOf p 0x20 (rlPack d c))
  | .mts p d c => some (wordOf p 0x21 (rlPack d c))
  | .eret p => some (wordOf p 0x22 (rrrPack 0 0 0 0))
  | .brk p => some (wordOf p 0x22 (rrrPack 0 0 0 1))
  | .halt p => some (wordOf p 0x22 (rrrPack 0 0 0 2))
  | .drainSt p => some (wordOf p 0x22 (rrrPack 0 0 0 3))
  | .fenceI p => some (wordOf p 0x22 (rrrPack 0 0 0 4))
  | .tlbwWriteEntry p a b => some (wordOf p 0x22 (rrrPack 0 a b 5))
  | .tlbwInvalidatePage p a b => some (wordOf p 0x22 (rrrPack 0 a b 5))
  | .tlbwFailMiss p a b => some (wordOf p 0x22 (rrrPack 0 a b 5))
  | .tlbwInvalidateContext p a b => some (wordOf p 0x22 (rrrPack 0 a b 5))
  | .sleep p => some (wordOf p 0x22 (rrrPack 0 0 0 6))
  | .nop p => some (wordOf p 0x22 (rrrPack 0 0 0 7))
  | .trap p i => some (wordOf p 0x23 (riPack 0 0 i))
  | .ld p t b l o => some (wordOf p 0x28 (mxPack t b l o))
  | .ldS32 p t b l o => some (wordOf p 0x29 (mxPack t b l o))
  | .ldZ32 p t b l o => some (wordOf p 0x2A (mxPack t b l o))
  | .ldS16 p t b l o => some (wordOf p 0x2B (mxPack t b l o))
  | .ldZ16 p t b l o => some (wordOf p 0x2C (mxPack t b l o))
  | .ldS8 p t b l o => some (wordOf p 0x2D (mxPack t b l o))
  | .ldZ8 p t b l o => some (wordOf p 0x2E (mxPack t b l o))
  | .st p t b o => some (wordOf p 0x2F (mxPack t b 0 o))
  | .st32 p t b o => some (wordOf p 0x30 (mxPack t b 0 o))
  | .st16 p t b o => some (wordOf p 0x31 (mxPack t b 0 o))
  | .st8 p t b o => some (wordOf p 0x32 (mxPack t b 0 o))
  | .ldW p t b l o => some (wordOf p 0x33 (mxPack t b l o))
  | .ldT p t b l o => some (wordOf p 0x34 (mxPack t b l o))
  | .stF p t b o => some (wordOf p 0x35 (mxPack t b 0 o))
  | .stS p t b o => some (wordOf p 0x36 (mxPack t b 0 o))
  | .feProbe p t b l o => some (wordOf p 0x37 (mxPack t b l o))
  | .feClr p b o => some (wordOf p 0x38 (mxPack 0 b 0 o))
  | .amoAdd p x y l => some (wordOf p 0x39 (mxPack x y l 0))
  | .amoAnd p x y l => some (wordOf p 0x39 (mxPack x y l 1))
  | .amoOr p x y l => some (wordOf p 0x39 (mxPack x y l 2))
  | .amoXor p x y l => some (wordOf p 0x39 (mxPack x y l 3))
  | .amoMinS64 p x y l => some (wordOf p 0x39 (mxPack x y l 4))
  | .amoMaxS64 p x y l => some (wordOf p 0x39 (mxPack x y l 5))
  | .amoMinZ64 p x y l => some (wordOf p 0x39 (mxPack x y l 6))
  | .amoMaxZ64 p x y l => some (wordOf p 0x39 (mxPack x y l 7))
  | .amoSwap p x y l => some (wordOf p 0x39 (mxPack x y l 8))
  | .amoCas p x y l => some (wordOf p 0x39 (mxPack (x41Pack x 0) y l 9))
  | .redAdd p x y => some (wordOf p 0x3A (mxPack x y 0 0))
  | .redAnd p x y => some (wordOf p 0x3A (mxPack x y 0 1))
  | .redOr p x y => some (wordOf p 0x3A (mxPack x y 0 2))
  | .redMinS64 p x y => some (wordOf p 0x3A (mxPack x y 0 3))
  | .redMaxS64 p x y => some (wordOf p 0x3A (mxPack x y 0 4))
  | .redMinZ64 p x y => some (wordOf p 0x3A (mxPack x y 0 5))
  | .redMaxZ64 p x y => some (wordOf p 0x3A (mxPack x y 0 6))
  | .rfence p => some (wordOf p 0x3A (mxPack 0 0 0 63))
  | .cpPlain p d a b => some (wordOf p 0x3B (rrrPack d a b 0))
  | .cpCopy p d a b => some (wordOf p 0x3B (rrrPack d a b 1))
  | .cpFill p d a b => some (wordOf p 0x3B (rrrPack d a b 2))
  | .cpNeed p d a b => some (wordOf p 0x3B (rrrPack d a b 3))
  | .cpTake p d a b => some (wordOf p 0x3B (rrrPack d a b 4))
  | .cbatch p d => some (wordOf p 0x3C (rrrPack d 0 0 0))
  | .cwait p a => some (wordOf p 0x3C (rrrPack 0 a 0 1))
  | .xfence p => some (wordOf p 0x3C (rrrPack 0 0 0 2))
  | .vAdd p d a b => some (wordOf p 0x40 (rrrPack d a b 0))
  | .vSub p d a b => some (wordOf p 0x40 (rrrPack d a b 1))
  | .vMul p d a b => some (wordOf p 0x40 (rrrPack d a b 2))
  | .vMulhS32 p d a b => some (wordOf p 0x40 (rrrPack d a b 3))
  | .vMulhZ32 p d a b => some (wordOf p 0x40 (rrrPack d a b 4))
  | .vAnd p d a b => some (wordOf p 0x40 (rrrPack d a b 5))
  | .vOr p d a b => some (wordOf p 0x40 (rrrPack d a b 6))
  | .vXor p d a b => some (wordOf p 0x40 (rrrPack d a b 7))
  | .vShl p d a b => some (wordOf p 0x40 (rrrPack d a b 8))
  | .vShr p d a b => some (wordOf p 0x40 (rrrPack d a b 9))
  | .vSar p d a b => some (wordOf p 0x40 (rrrPack d a b 10))
  | .vMinS32 p d a b => some (wordOf p 0x40 (rrrPack d a b 11))
  | .vMinZ32 p d a b => some (wordOf p 0x40 (rrrPack d a b 12))
  | .vMaxS32 p d a b => some (wordOf p 0x40 (rrrPack d a b 13))
  | .vMaxZ32 p d a b => some (wordOf p 0x40 (rrrPack d a b 14))
  | .vAddsS32 p d a b => some (wordOf p 0x40 (rrrPack d a b 15))
  | .vSubsS32 p d a b => some (wordOf p 0x40 (rrrPack d a b 16))
  | .vAbsS32 p d a => some (wordOf p 0x40 (rrrPack d a 0 17))
  | .vFaddF p d a b => some (wordOf p 0x41 (rrrPack d a b 0))
  | .vFsubF p d a b => some (wordOf p 0x41 (rrrPack d a b 1))
  | .vFmulF p d a b => some (wordOf p 0x41 (rrrPack d a b 2))
  | .vFdivF p d a b => some (wordOf p 0x41 (rrrPack d a b 3))
  | .vFsqrtF p d a => some (wordOf p 0x41 (rrrPack d a 0 4))
  | .vFminF p d a b => some (wordOf p 0x41 (rrrPack d a b 5))
  | .vFmaxF p d a b => some (wordOf p 0x41 (rrrPack d a b 6))
  | .vFabsF p d a => some (wordOf p 0x41 (rrrPack d a 0 7))
  | .vFnegF p d a => some (wordOf p 0x41 (rrrPack d a 0 8))
  | .vFmaF p d a b => some (wordOf p 0x41 (rrrPack d a b 9))
  | .vFmsF p d a b => some (wordOf p 0x41 (rrrPack d a b 10))
  | .vFaddH p d a b => some (wordOf p 0x42 (rrrPack d a b 0))
  | .vFmulH p d a b => some (wordOf p 0x42 (rrrPack d a b 1))
  | .vFmaH p d a b => some (wordOf p 0x42 (rrrPack d a b 2))
  | .vFaddB p d a b => some (wordOf p 0x42 (rrrPack d a b 3))
  | .vFmulB p d a b => some (wordOf p 0x42 (rrrPack d a b 4))
  | .vFmaB p d a b => some (wordOf p 0x42 (rrrPack d a b 5))
  | .vFaddD p d a b => some (wordOf p 0x43 (rrrPack d a b 0))
  | .vFsubD p d a b => some (wordOf p 0x43 (rrrPack d a b 1))
  | .vFmulD p d a b => some (wordOf p 0x43 (rrrPack d a b 2))
  | .vFmaD p d a b => some (wordOf p 0x43 (rrrPack d a b 3))
  | .vFminD p d a b => some (wordOf p 0x43 (rrrPack d a b 4))
  | .vFmaxD p d a b => some (wordOf p 0x43 (rrrPack d a b 5))
  | .vFdivD p d a b => some (wordOf p 0x43 (rrrPack d a b 6))
  | .vFsqrtD p d a => some (wordOf p 0x43 (rrrPack d a 0 7))
  | .vCmpEq p d a b => some (wordOf p 0x44 (rrrPack d a b 0))
  | .vCmpNe p d a b => some (wordOf p 0x44 (rrrPack d a b 1))
  | .vCmpLtS32 p d a b => some (wordOf p 0x44 (rrrPack d a b 2))
  | .vCmpLtZ32 p d a b => some (wordOf p 0x44 (rrrPack d a b 3))
  | .vCmpLeS32 p d a b => some (wordOf p 0x44 (rrrPack d a b 4))
  | .vCmpLeZ32 p d a b => some (wordOf p 0x44 (rrrPack d a b 5))
  | .vFcmpEqF p d a b => some (wordOf p 0x44 (rrrPack d a b 8))
  | .vFcmpLtF p d a b => some (wordOf p 0x44 (rrrPack d a b 9))
  | .vFcmpLeF p d a b => some (wordOf p 0x44 (rrrPack d a b 10))
  | .vFcmpUnF p d a b => some (wordOf p 0x44 (rrrPack d a b 11))
  | .vCvtFS32 p d a r => some (wordOf p 0x45 (rrrPack d a r 0))
  | .vCvtS32F p d a r => some (wordOf p 0x45 (rrrPack d a r 1))
  | .vCvtHF p d a r => some (wordOf p 0x45 (rrrPack d a r 2))
  | .vCvtFH p d a => some (wordOf p 0x45 (rrrPack d a 0 3))
  | .vCvtBF p d a r => some (wordOf p 0x45 (rrrPack d a r 4))
  | .vCvtFB p d a => some (wordOf p 0x45 (rrrPack d a 0 5))
  | .vCvtE43F p d a r => some (wordOf p 0x45 (rrrPack d a r 6))
  | .vCvtFE43 p d a => some (wordOf p 0x45 (rrrPack d a 0 7))
  | .vCvtE52F p d a r => some (wordOf p 0x45 (rrrPack d a r 8))
  | .vCvtFE52 p d a => some (wordOf p 0x45 (rrrPack d a 0 9))
  | .vCvtDF p d a => some (wordOf p 0x45 (rrrPack d a 0 10))
  | .vCvtFD p d a r => some (wordOf p 0x45 (rrrPack d a r 11))
  | .vMov p d a => some (wordOf p 0x46 (rrrPack d a 0 0))
  | .vBcast p d a => some (wordOf p 0x46 (rrrPack d a 0 1))
  | .vPerm p d a b => some (wordOf p 0x46 (rrrPack d a b 2))
  | .vRev p d a => some (wordOf p 0x46 (rrrPack d a 0 3))
  | .vRot p d a b => some (wordOf p 0x46 (rrrPack d a b 4))
  | .vIns p d a b => some (wordOf p 0x46 (rrrPack d a b 5))
  | .vExt p d a b => some (wordOf p 0x46 (rrrPack d a b 6))
  | .vFirst p d a => some (wordOf p 0x46 (rrrPack d a 0 7))
  | .vRsumF p d a => some (wordOf p 0x47 (rrrPack d a 0 0))
  | .vRsumS32 p d a => some (wordOf p 0x47 (rrrPack d a 0 1))
  | .vRminF p d a => some (wordOf p 0x47 (rrrPack d a 0 2))
  | .vRmaxF p d a => some (wordOf p 0x47 (rrrPack d a 0 3))
  | .vRminS32 p d a => some (wordOf p 0x47 (rrrPack d a 0 4))
  | .vRmaxS32 p d a => some (wordOf p 0x47 (rrrPack d a 0 5))
  | .vRand p d a => some (wordOf p 0x47 (rrrPack d a 0 6))
  | .vRbor p d a => some (wordOf p 0x47 (rrrPack d a 0 7))
  | .vRxor p d a => some (wordOf p 0x47 (rrrPack d a 0 8))
  | .vJ4dec p d a b => some (wordOf p 0x48 (rrrPack d a b 0))
  | .vJ4enc p d a b => some (wordOf p 0x48 (rrrPack d a b 1))
  | .vBaddq p d a r => some (wordOf p 0x48 (rrrPack d a r 2))
  | .vLd p t b l o => some (wordOf p 0x50 (mxPack t b l o))
  | .vSt p t b o => some (wordOf p 0x51 (mxPack t b 0 o))
  | .vLds p x y l s => some (wordOf p 0x52 (mxPack x y l (f15Pack 0 s)))
  | .vSts p x y s => some (wordOf p 0x53 (mxPack x y 0 (f15Pack 0 s)))
  | .vGather p x y l k => some (wordOf p 0x54 (mxPack x y l (f15Pack 0 k)))
  | .vScatter p x y k => some (wordOf p 0x55 (mxPack x y 0 (f15Pack 0 k)))
  | .fAnd p d a b => some (wordOf p 0x60 (rrrPack d a b 0))
  | .fOr p d a b => some (wordOf p 0x60 (rrrPack d a b 1))
  | .fXor p d a b => some (wordOf p 0x60 (rrrPack d a b 2))
  | .fAndn p d a b => some (wordOf p 0x60 (rrrPack d a b 3))
  | .fNot p d a => some (wordOf p 0x60 (rrrPack d a 0 4))
  | .fSet p d a => some (wordOf p 0x60 (rrrPack d a 0 5))
  | .fGet p d a => some (wordOf p 0x60 (rrrPack d a 0 6))
  | .fPopc p d a => some (wordOf p 0x60 (rrrPack d a 0 7))
  | .pub i => some (wordOf Pred.always 0x68 (riPack 0 0 i))
  | .endpub => some (wordOf Pred.always 0x69 (rrrPack 0 0 0 0))
  | .subscribe a => some (wordOf Pred.always 0x69 (rrrPack 0 a 1 0))
  | .join k => some (wordOf Pred.always 0x69 (rrrPack 0 0 2 k))
  | .rdv k => some (wordOf Pred.always 0x69 (rrrPack 0 0 3 k))
  | .chSync => some (wordOf Pred.always 0x69 (rrrPack 0 0 4 0))
  | .sqkill p a => some (wordOf p 0x69 (rrrPack 0 a 5 0))
  | .leave g k i => some (wordOf Pred.always 0x6A (lvPack 0 g k i))
  | .portcfg p a => some (wordOf p 0x6B (rrrPack 0 a 0 0))
  | .send p a b => some (wordOf p 0x6B (rrrPack 0 a b 1))
  | .btag p d i => some (wordOf p 0x6C (rlPack d i))
  | .mxCtx p x => some (wordOf p 0x70 (mxPack x 0 0 0))
  | .mxLdb p y k => some (wordOf p 0x71 (mxPack 0 y 0 (f15Pack 0 k)))
  | .mxSetb p q k => some (wordOf p 0x72 (mxPack (x32Pack 0 q) 0 0 (f15Pack 0 k)))
  | .mxMma p x y q w => some (wordOf p 0x73 (mxPack x y 0 (f321Pack 0 q w)))
  | .mxZero p w => some (wordOf p 0x74 (mxPack 0 0 0 (f51Pack 0 w)))
  | .mxDrain p x y w => some (wordOf p 0x75 (mxPack x y 0 (f411Pack 0 0 w)))
  | .mxDrainRaw p x y w => some (wordOf p 0x75 (mxPack x y 0 (f411Pack 0 1 w)))
  | .hresv p x l => some (wordOf p 0x76 (mxPack x 0 l 0))
  | .rowout p x y => some (wordOf p 0x76 (mxPack x y 0 1))
  | .mxBatch p x l => some (wordOf p 0x76 (mxPack x 0 l 2))
  | .mxWait p x => some (wordOf p 0x76 (mxPack x 0 0 3))
  | .mxCnt p x l g => some (wordOf p 0x77 (mxPack x 0 l (f24Pack 0 g)))
  | .barCfg p a k => some (wordOf p 0x78 (mxPack 0 a 0 (f24Pack 0 k)))
  | .barArrive p k => some (wordOf p 0x78 (mxPack 0 0 1 (f24Pack 0 k)))
  | .barWait p k => some (wordOf p 0x78 (mxPack 0 0 2 (f24Pack 0 k)))
  | .barSync p k => some (wordOf p 0x78 (mxPack 0 0 3 (f24Pack 0 k)))
  | .ticket p x y l => some (wordOf p 0x79 (mxPack x y l (f51Pack 0 0)))
  | .ticketBc p x y l => some (wordOf p 0x79 (mxPack x y l (f51Pack 0 1)))
  | .fenceS p a => some (wordOf p 0x7A (rrrPack 0 a 0 0))
  | .go p a => some (wordOf p 0x7C (rrrPack 0 a 0 0))
  | .launch p d a => some (wordOf p 0x7C (rrrPack d a 0 1))
  | .idemBegin p a => some (wordOf p 0x7C (rrrPack 0 a 0 2))
  | .idemEnd p => some (wordOf p 0x7C (rrrPack 0 0 0 3))
  | .xfer p x => some (wordOf p 0x7D (mxPack x 0 0 0))
  | .bqPop p x y l => some (wordOf p 0x7E (mxPack x y l 0))
  | .rotation => none
  | .channelInstructionDue _ => none
  | .resultWrite _ _ => none
  | .storeFault _ => none
  | .withdrawal _ => none
  | .withdrawalArrival _ => none
  | .feTimeout _ => none
  | .feTimeoutReport _ => none
  | .chTimeout _ => none
  | .barTimeout _ => none
  | .conditionalRequestArrival _ => none
  | .parkResend _ => none
  | .plainAccessArrival _ _ => none
  | .atomicTakeGrant _ => none
  | .atomicFillArrival _ => none
  | .reductionPerform _ => none
  | .storeLeave _ => none
  | .storeCheck _ => none
  | .tlbMiss _ => none
  | .copyWord _ _ => none
  | .mboxReserve _ => none
  | .mboxDelivery _ => none
  | .portWordAccept _ => none
  | .pubAccept _ => none
  | .rdvComplete _ => none
  | .chSyncComplete _ => none
  | .publicationEnd _ => none
  | .sqkillTargetHalt _ => none
  | .arrayGrant _ _ => none
  | .powerHold _ => none
  | .mxCtxApply _ => none
  | .mxZeroBegin _ => none
  | .mxLdbLoad _ => none
  | .mxSetbComplete _ => none
  | .mxMmaComplete _ => none
  | .mxCntWrite _ => none
  | .drainRowEnter _ => none
  | .drainDispatch _ => none
  | .drainDoneFill _ => none
  | .drainFail _ => none
  | .barCfgArrival _ => none
  | .barrierArrival _ => none
  | .pennantRecordWrite _ _ => none
  | .post _ _ _ => none
  | .launchAccept => none
  | .bandPlace => none
  | .bandStart _ => none
  | .preempt => none
  | .bandSave _ => none
  | .bandResume _ => none
  | .bandEnd _ => none
  | .launchEnd _ => none
  | .migrationDeparture _ => none
  | .migrationArrival _ => none
  | .migrationInstall _ => none
  | .overflowRefill _ => none
  | .portCfgWrite _ _ => none
  | .rngWrite _ _ => none
  | .mboxBaseWrite _ => none
  | .mboxHeadWrite _ _ => none
  | .ctxActivate => none
  | .ctxDeactivate => none
  | .ctlEvpendClear _ _ => none
  | .ctlTimerWrite _ _ => none
  | .timer _ => none
  | .pwrFstepWrite => none
  | .errCountRead _ _ _ => none
  | .keyGenerate => none
  | .keyErase => none
  | .powerCheck _ _ => none
  | .currentTrip => none
  | .thermalTrip => none
  | .coldReset => none
  | .packageReset => none
  | .dieReset _ => none
  | .bootStage _ _ _ => none
  | .dieFence _ => none
  | .scrub => none
  | .profilerSum _ => none
  | .debugChallenge => none
  | .debugSignature _ => none
  | .debugStop _ => none
  | .debugImageAccess _ _ _ => none
  | .debugResume _ => none
  | .breakpointSet _ _ _ => none
  | .doorbell => none
  | .hdmPlainWrite _ _ _ => none
  | .hdmFillWrite _ _ _ => none
  | .hdmEmptyWrite _ _ _ => none
  | .hdmRead _ _ _ => none
  | .bar2Access _ _ _ _ => none
  | .linkInit _ _ => none
  | .flitReceive _ _ => none
  | .nak _ _ => none
  | .linkFail _ => none
  | .fabLoad _ => none
  | .fabStore _ => none
  | .fabLdW _ => none
  | .fabLdT _ => none
  | .fabStF _ => none
  | .fabStS _ => none
  | .fabFeClr _ => none
  | .fabFeProbe _ => none
  | .fabAmo _ => none
  | .fabRed _ => none
  | .fabWithdraw _ => none
  | .fabReply _ => none
  | .fabTmo _ => none
  | .xferWrite _ => none
  | .xferRead _ => none
  | .xferReadData _ => none
  | .xferComplete _ => none
  | .xferFail _ => none
  | .mastheadPost _ => none
  | .gangPost _ => none
  | .prepare _ => none
  | .acknowledge _ => none
  | .gangTimeout _ => none
  | .commit _ => none
  | .abort _ => none
  | .query _ => none
  | .gangQueryTimer _ => none
  | .decision _ => none
  | .retire _ => none
  | .instructionFetch _ => none
  | .hostWriteAck _ => none
  | .xferElement _ => none
  | .decisionRepeat _ _ => none

/-- The instruction whose word i's word decodes to: i itself, but for the three TLBW rows whose word is that of
TLBW_WRITE_ENTRY (R281: the operation stands in a register, not in the word). -/
noncomputable def canon : Instr → Instr
  | .tlbwInvalidatePage p a b => .tlbwWriteEntry p a b
  | .tlbwFailMiss p a b => .tlbwWriteEntry p a b
  | .tlbwInvalidateContext p a b => .tlbwWriteEntry p a b
  | i => i

/-- The four bytes of a word as memory holds it, lowest address first (R14). -/
def wordBytes (w : BitVec 32) : List Byte :=
  [BitVec.ofNat 8 w.toNat, BitVec.ofNat 8 (w.toNat / 256), BitVec.ofNat 8 (w.toNat / 65536), BitVec.ofNat 8 (w.toNat / 16777216)]

/-- The word that four little-endian bytes hold (R4, R14). -/
def wordOfBytes (b0 b1 b2 b3 : Byte) : BitVec 32 :=
  BitVec.ofNat 32 (b0.toNat + b1.toNat * 256 + b2.toNat * 65536 + b3.toNat * 16777216)

/-- The instruction read from an instruction of nbits bits w, numbered as spec/opcode_table.json numbers them: the word is
laid out as memory holds it and read back. Every instruction of the IL-24 is one 32-bit word. -/
noncomputable def decodeTableWord (nbits w : Nat) : Option Instr :=
  if nbits ≤ 32 then
    match wordBytes (BitVec.ofNat 32 w) with
    | [b0, b1, b2, b3] => decode (wordOfBytes b0 b1 b2 b3)
    | _ => none
  else none

end Sys2Proof
end

