-- ==== Sys2Proof/Config.lean ====
section
/-! DEFINITION. What the manual leaves open and what an installation fixes. A constant declared opaque has no body: no
proof can see its value, so a statement that mentions it holds whatever it is. -/

namespace Sys2Proof.Config

/-- The n-th byte of the internal random source (R337, R344): a free value. -/
opaque randomByte : Nat → Byte

/-- A value the manual does not give, by a number that says which: a free value. -/
opaque freeWord : Nat → BitVec 64

/-- The word pushed to a port by an instruction that writes s31 in no lane (R64), by counter of free values, rotation, core and
slot: the manual names no value, a free one. -/
opaque portWord : Nat → Nat → Nat → Nat → BitVec 64

/-- A byte of a 16-byte AES block encrypted (R336), by key slot, the slot's generation, the byte's physical address, and the
block. The algorithm is named by the manual and not described by it: a free value. -/
opaque cipherByte : Nat → Nat → Nat → List Byte → Byte

/-- A byte of a block decrypted with a key it was not encrypted with (R336), by the same: a free value. -/
opaque decipherByte : Nat → Nat → Nat → List Byte → Byte

/-- Whether a 114-byte Ed448 signature of a message under a key is valid (R340, R344): key, message, signature. The algorithm
is named by the manual and not described by it: a free value. -/
opaque ed448Valid : List Byte → List Byte → List Byte → Bool

/-- The vendor debug key (R344), fixed in a part. -/
opaque debugKey : List Byte

/-- The hash of the vendor key held in the fuses of a part (R340). -/
opaque fusedKeyHash : List Byte

/-- The 114-byte Ed448 signature of a message with the device identity key (R341): a free value. -/
opaque deviceSignature : List Byte → List Byte

/-- The identification words of BAR0 (R323), whose contents the manual does not give: a free value. -/
opaque identification : Nat → BitVec 64

/-- The frame check sequence of an Ethernet frame (R357), which the manual names and does not describe: a free value. -/
opaque frameCheck : List Byte → List Byte

/-- The 64-byte SHAKE256 digest of a message (R340, R341); the algorithm is named by the manual and not described by
it: a free value. -/
opaque shake256 : List Byte → List Byte

/-- The fused rollback counter of the firmware chain (R340): fixed in the fuses of a part. -/
opaque fusedRollback : Nat

/-- The source context of a request, by source package, stream and tag: R365 judges it, and the header of R360 has no field
for it. Read only where no listed activity brings the transaction: a free value. -/
opaque sourceContext : Nat → Nat → Nat → Nat

/-- The source's oldest outstanding tag that a request carries (R362), by source package, stream and tag; the header of R360
has no field for it either: a free value. -/
opaque oldestTag : Nat → Nat → Nat → Nat

/-- The populated far-memory bytes of each I/O die (R2, R70): the module figure of R1 on a module, what the integrator has put
in on another board. Fixed in a board: a free value. -/
opaque farBytes : Nat → Nat

end Sys2Proof.Config
end

