-- ==== Sys2Proof/Machine/Bits.lean ====
section
/-! DEFINITION. Bit-field, sign-extension and byte-order helpers (R4, R5, R12), and the finite maps the state is made
of. -/

namespace Sys2Proof.Machine

/-- X[hi:lo] as an unsigned value (R5). -/
def bits (x : Nat) (hi lo : Nat) : Nat := x / 2 ^ lo % 2 ^ (hi + 1 - lo)

/-- The bits hi to lo of a word, unsigned (R5). -/
def wbits (w : Word) (hi lo : Nat) : Nat := bits w.toNat hi lo

/-- Bit i of a word (R5). -/
def wbit (w : Word) (i : Nat) : Bool := w.getLsbD i

/-- The bit i of x as 0 or 1, placed at bit 0. -/
def b2n (b : Bool) : Nat := if b then 1 else 0

/-- A word from a natural number: the low 64 bits (R12). -/
def ofN (n : Nat) : Word := BitVec.ofNat 64 n

/-- A word from an integer: its low 64 bits (R12). -/
def ofI (i : Int) : Word := BitVec.ofInt 64 i

/-- w with bits hi to lo replaced by v (R5). -/
def setBits (w : Word) (hi lo : Nat) (v : Nat) : Word :=
  let m := 2 ^ (hi + 1 - lo)
  ofN (w.toNat - bits w.toNat hi lo * 2 ^ lo + v % m * 2 ^ lo)

/-- w keeping only bits hi to lo in place. -/
def keepBits (w : Word) (hi lo : Nat) : Word := ofN (bits w.toNat hi lo * 2 ^ lo)

/-- SignExt(x, n) of R12 as a word. -/
def sext (n : Nat) (x : Nat) : Word := BitVec.signExtend 64 (BitVec.ofNat n x)

/-- Bits [63:56] are copies of bit 55 (R188). -/
def canonical (a : Word) : Bool := wbits a 63 55 == 0 || wbits a 63 55 == 511

/-- The n little-endian bytes of x, lowest first (R4). -/
def leBytes : Nat → Nat → List Byte
  | 0, _ => []
  | n + 1, x => BitVec.ofNat 8 x :: leBytes n (x / 256)

/-- The value of little-endian bytes (R4). -/
def ofLeBytes : List Byte → Nat
  | [] => 0
  | b :: bs => b.toNat + 256 * ofLeBytes bs

/-- ceil(a / b). -/
def cdiv (a b : Nat) : Nat := (a + b - 1) / b

/-- Bytes as words (R4). -/
def wordsOfBytes (bs : List Byte) : List Word :=
  (List.range (cdiv bs.length 8)).map fun i => ofN (ofLeBytes ((bs.drop (8 * i)).take 8))

/-- a rounded up to a multiple of b. -/
def roundUp (a b : Nat) : Nat := cdiv a b * b

/-- The numbers lo, lo + 1, … of a range of n. -/
def range (lo n : Nat) : List Nat := (List.range n).map (lo + ·)

/-! ## Finite maps: lists of key and value with rising keys -/

/-- The value at key k, or d where none is listed. -/
def lookupD {α : Type} (l : List (Nat × α)) (k : Nat) (d : α) : α :=
  match l with
  | [] => d
  | (j, x) :: r => if j = k then x else lookupD r k d

/-- The value at key k, if one is listed. -/
def lookup? {α : Type} (l : List (Nat × α)) (k : Nat) : Option α :=
  match l with
  | [] => none
  | (j, x) :: r => if j = k then some x else lookup? r k

/-- The map with key k at value x, its keys kept in rising order. -/
def insertKey {α : Type} (l : List (Nat × α)) (k : Nat) (x : α) : List (Nat × α) :=
  match l with
  | [] => [(k, x)]
  | (j, y) :: r =>
    if k < j then (k, x) :: (j, y) :: r
    else if k = j then (k, x) :: r
    else (j, y) :: insertKey r k x

/-- The map without key k. -/
def eraseKey {α : Type} (l : List (Nat × α)) (k : Nat) : List (Nat × α) :=
  match l with
  | [] => []
  | (j, y) :: r => if j = k then eraseKey r k else (j, y) :: eraseKey r k

/-- A set of numbers in rising order, with k in it. -/
def insertSet (l : List Nat) (k : Nat) : List Nat :=
  match l with
  | [] => [k]
  | j :: r => if k < j then k :: j :: r else if k = j then j :: r else j :: insertSet r k

/-- k put among numbers in rising order of a key, before the first one of a greater key. -/
def insertOn (key : Nat → Nat) (k : Nat) : List Nat → List Nat
  | [] => [k]
  | j :: r => if key k < key j then k :: j :: r else j :: insertOn key k r

/-- Numbers in rising order of a key. -/
def sortOn (key : Nat → Nat) (l : List Nat) : List Nat := l.foldl (fun a k => insertOn key k a) []

/-- The first element that f accepts, changed by g; the others as they are. -/
def modFirst {α : Type} (f : α → Bool) (g : α → α) : List α → List α
  | [] => []
  | x :: r => if f x then g x :: r else x :: modFirst f g r

/-- The list without its first element that f accepts. -/
def eraseFirst {α : Type} (f : α → Bool) : List α → List α
  | [] => []
  | x :: r => if f x then r else x :: eraseFirst f r

end Sys2Proof.Machine
end

