-- ==== Sys2Proof/Machine/State.lean ====
section
/-! DEFINITION. The state of one IL-24 package: plain data, holding every piece of state the manual names, and the
machine right after a cold reset (R355). -/

namespace Sys2Proof.Machine

/-! ## Faults and refusals -/

/-- Why the machine stops. -/
inductive Fault where
  /-- Raised by the meaning of an encoded instruction when the slot named by `State.cur` holds no live thread: there is
  no thread to execute it. Safe: no run of `step` reaches it, since step issues only for a live thread. -/
  | noThread
  deriving DecidableEq, Repr

/-- Why an instruction has no meaning. -/
inductive Refusal where
  /-- Raised by an arm of exec whose instruction has no meaning yet. Safe. -/
  | notModelled (mnemonic : String)
  deriving DecidableEq, Repr

/-! ## Threads -/

/-- The three modes of a thread (R67). -/
inductive Mode where
  | run | trap | control
  deriving DecidableEq, Repr

/-- The register classes a lookahead window may name (R22, R77). -/
inductive RegClass where
  | s | v | f
  deriving DecidableEq, Repr

/-- The member states of R74. -/
inductive SqState where
  | fetching | publishing | subscribed | away | held | trapped
  deriving DecidableEq, Repr

/-- The trap causes of R77. -/
inductive Cause where
  | ill | priv | align | access | unmapped | feTimeout | feSelf | feUnsupported | laHazard | storeFault
  | subRange | chTimeout | barTimeout | msgTooLarge | mxFormat | mxRange | eccUncorrectable | brk | soft
  deriving DecidableEq, Repr

/-- The value an outstanding register result waits for (R21, R25). -/
inductive OutValue where
  /-- not yet arrived -/
  | pending
  /-- arrived: the scalar value -/
  | word (v : Word)
  /-- arrived: the number of a TICKET.BC, still to be broadcast (R268), and the place in which it was formed -/
  | bcast (v : Word) (n : Nat)
  /-- arriving or arrived: the lanes of a vector result, by lane number -/
  | lanes (ls : List (Nat × Lane))
  /-- arrived as a fault: cause, address, and the extra bits of trap.info that the cause carries (R77: the tier) -/
  | fault (c : Cause) (addr info : Word)
  /-- written to its register -/
  | written
  deriving DecidableEq, Repr

/-- An outstanding register result and its lookahead window (R21-R25). -/
structure Out where
  /-- the request that brings the result -/
  id : Nat
  cls : RegClass
  reg : Nat
  /-- window instructions still to issue (R21) -/
  left : Nat
  /-- window instructions issued so far (R25) -/
  issued : Nat
  /-- address of the instruction with the window -/
  pc : Word
  /-- the first rotation in which a loaded result may be written (R194) -/
  due : Nat
  value : OutValue
  deriving DecidableEq, Repr

/-- A trap that is taken once every outstanding result has been written (R26). -/
structure PendingTrap where
  cause : Cause
  addr : Word
  info : Word
  pc : Word
  deriving DecidableEq, Repr

/-- One entry of a thread's store queue (R204): the bytes of the store, one piece for a scalar store and one per enabled
lane for a vector store. -/
structure StoreEntry where
  id : Nat
  /-- (address, size in bytes, data) of each piece, in ascending lane order -/
  pieces : List (Word × Nat × Word)
  vec : Bool
  pc : Word
  /-- rotation of issue -/
  at_ : Nat
  /-- rotation in which the entry left the queue, once it has (R204) -/
  leftAt : Option Nat
  /-- a piece has failed and its record waits for a free place (R207): cause, address, data -/
  failed : Option (Nat × Word × Word)
  /-- a vector store has queued the record of its lowest faulting lane (R150) -/
  recorded : Bool
  /-- the physical key of each piece, as the core's translation gave it at issue (R151, R250); none where it had none -/
  keys : List (Option Nat)
  deriving DecidableEq, Repr

/-- A word of a port queue: payload, tag, and the first rotation in which an instruction may take it (R180). -/
structure PortWord where
  data : Word
  tag : Byte
  avail : Nat
  deriving DecidableEq, Repr

/-- A word of a channel as a member holds it (R159): the word, the channel PC and the rotation of its issue. -/
structure ChanEntry where
  word : BitVec 32
  pc : Word
  rot : Nat
  /-- the word has an uncorrectable error as this member received it (R350) -/
  bad : Bool
  deriving DecidableEq, Repr

/-- Older work of its thread that an instruction which has issued waits for, with the operand read at issue. -/
inductive Work where
  /-- DRAIN.ST: the store queue (R126) -/
  | drain
  /-- FENCE.I: the store queue, then the instruction cache is emptied (R127) -/
  | fenceI
  /-- FENCE.S: every older access, with SYS the host's acknowledgements too, with FAB those of remote homes (R257) -/
  | fenceS (sys fab : Bool)
  /-- RFENCE: pending reductions (R203) -/
  | reductions
  /-- XFENCE: older accesses (R211) -/
  | accesses
  /-- CWAIT: copies of the batches 1 to lim (R210) -/
  | copies (lim : Nat)
  /-- PORTCFG and MTS of port.cfg: the outbound queue, then port.cfg takes the value v (R179) -/
  | portCfg (v : Word)
  deriving DecidableEq, Repr

/-- What a thread that does not issue is waiting for. -/
inductive WaitKind where
  /-- a window whose instructions have all issued, or a fifth outstanding result (R23) -/
  | result
  /-- an instruction word (R156), at this address -/
  | fetch (a : Word)
  /-- a translation (R192, R283), of this address -/
  | miss (a : Word)
  /-- the inbound or outbound port queue (R64, R181) -/
  | port
  /-- room in the store queue, the reduction agent, the copy unit, the command queue or an XFER engine -/
  | room
  /-- HALT, LAUNCH or TLBW before it takes effect: older work (R124, R282, R298) -/
  | older
  /-- an instruction that has issued: older work of the thread -/
  | work (w : Work)
  /-- MX.WAIT before it issues: its batches (R238, R272) -/
  | batch
  /-- a fill ST.F to be performed (R195): the request -/
  | fill (id : Nat)
  /-- PUB: the core's channel (R165), at this depth class -/
  | pub (d : Nat)
  /-- SUB: a publisher on this channel (R167) -/
  | sub (c : Nat)
  /-- JOIN of this rendezvous (R170) -/
  | join (id : Nat)
  /-- RDV (R171), or CH.SYNC, which is RDV 0 without the release of JOINs by id (R168) -/
  | rdv (id : Nat)
  | chSync
  /-- SQKILL of the squad of a core's channel (R173): the cut-off rotation, and once it has come the targets left to
  halt -/
  | sqkill (core : Nat) (cutOff : Nat) (targets : Option (List ThreadRef))
  /-- SEND: room in the mailbox ring of a core (R184) for n words: the header, read at issue, and those that follow this
  address -/
  | send (core : Nat) (n : Nat) (addr : Word) (header : Word)
  /-- BAR.WAIT or BAR.SYNC on this barrier and generation (R262) -/
  | bar (n : Nat) (gen : Nat)
  /-- BAR.SYNC whose own arrival has been sent (R263) -/
  | barSync (n : Nat)
  /-- LAUNCH: acceptance by the dispatcher (R298), of the record at this address; the result goes to this register -/
  | launch (addr : Word) (d : Nat)
  /-- SLEEP (R129) -/
  | sleep
  /-- GO or a home-execute access: departure (R289) to this core, resuming at this address, for this reason -/
  | depart (core : Nat) (pc : Word) (reason : Nat)
  /-- ROWOUT or another form that waits under R26 -/
  | windows
  /-- a trap that waits under R26 -/
  | trapEntry
  deriving DecidableEq, Repr

/-- A wait: what for, from which rotation it counts, and the budget held at issue (R387; all-ones never exhausts). -/
structure Wait where
  kind : WaitKind
  since : Nat
  budget : Word
  deriving DecidableEq, Repr

/-- The snapshot and window of an idempotent region (R307). -/
structure Region where
  pc : Word
  /-- s1-s15 -/
  s : List Word
  /-- f0-f11 -/
  f : List Lane
  base : Word
  size : Word
  deriving DecidableEq, Repr

/-- What a drain handler thread holds beside its registers (R235): whether a row is dispatched to it, and s3 as written
at dispatch. -/
structure Handler where
  busy : Bool
  row : Word
  deriving DecidableEq, Repr

/-- A thread: the contents of one slot (R63, R70). -/
structure Thread where
  pc : Word
  mode : Mode
  /-- s0-s31; s0 is never read from here (R63) -/
  s : Vector Word 32
  v : Vector (Vector Lane 32) 32
  f : Vector Lane 12
  k : Vector Word 4
  -- identity (R70)
  launch : Nat
  band : Nat
  tib : Nat
  ctx : Nat
  tileOrg : List Nat
  tileExt : List Nat
  -- special registers (R70-R74)
  scopeD : Word
  feBudget : Word
  chBudget : Word
  barBudget : Word
  portCfg : Word
  portTag : Word
  fpCtl : Word
  fpFlags : Word
  rng : Word
  lmask : Lane
  sqLeftpc : Word
  sq : SqState
  sqRdv : Nat
  sqCh : Nat
  sqDepth : Nat
  trapVec : Word
  trapCause : Byte
  /-- trap.cause[8]: the trap was taken from control mode (R76) -/
  trapCtl : Bool
  trapPc : Word
  trapAddr : Word
  trapInfo : Word
  rotIssued : Nat
  rotMem : Nat
  rotMsg : Nat
  rotVacant : Nat
  -- what is outstanding
  outs : List Out
  /-- words taken by LD.T and not yet filled, oldest first, at most four (R200) -/
  heldTakes : List Word
  /-- the physical key of each of them, by its address -/
  heldKeys : List (Word × Nat)
  storeQ : List StoreEntry
  /-- reductions accepted by the agent and not yet performed or recorded (R202) -/
  pending : Nat
  /-- copy and command batch counts (R210, R238) -/
  copyBatch : Nat
  mxBatch : Nat
  inq : List PortWord
  outq : List PortWord
  /-- words received from the subscribed channel and not yet begun (R174) -/
  subBuf : List ChanEntry
  /-- how many of them the member has been told are due (R162) -/
  subDue : Nat
  /-- the publication the thread subscribes to or left (R170: a reopened channel is another one) -/
  publication : Nat
  /-- its publication has ended without ENDPUB: the resume PC at which it leaves once it has executed what was published (R178) -/
  endAt : Option Word
  region : Option Region
  handler : Option Handler
  wait : Option Wait
  trapPend : Option PendingTrap
  /-- a word fetched and not yet issued (R127), with its address -/
  fetched : Option (Word × BitVec 32)
  /-- rotations the instruction issued last still occupies (R103, R130) -/
  busy : Nat
  /-- the slot issued in the present rotation (R155) -/
  issued : Bool
  /-- the first rotation in which the thread may issue (R264, R292) -/
  notBefore : Nat
  /-- the rotation in which the thread came into its slot, which no class counts (R65) -/
  bornAt : Option Nat
  /-- SQKILL's cut-off: the thread halts at its boundary from this rotation on (R173) -/
  killAt : Option Nat
  /-- a publisher resumed with its closed set, which begins its first instruction together with the others of this number
  (R305) -/
  together : Option Nat
  halted : Bool
  /-- stopped by a kernel debug session (R343) -/
  stopped : Bool
  deriving DecidableEq, Repr

/-! ## Cores -/

/-- What kind of core it is (R67, R334, R375). -/
inductive Role where
  | compute | translation | clusterCtl | dieCtl | masthead
  deriving DecidableEq, Repr

/-- One barrel slot. -/
structure Slot where
  /-- the context the slot is assigned to (R216, R299) -/
  ctx : Option Nat
  /-- the band the slot is granted to (R299) -/
  grant : Option BandRef
  thread : Option Thread
  /-- the pending-event bit of SLEEP (R129) -/
  event : Bool
  /-- ctl.evpend, ctl.evmask, ctl.timer (R334) -/
  evpend : Word
  evmask : Word
  timer : Word
  /-- TIMER has been posted for this value of ctl.timer -/
  timerFired : Bool
  /-- rot.vacant of a slot without a thread (R157) -/
  vacantCount : Nat
  /-- a thread that has left the slot issued in the present rotation (R157, R158) -/
  used : Bool
  deriving DecidableEq, Repr

/-- A publication on a core's channel (R159, R165). -/
structure Publication where
  serial : Nat
  slot : Nat
  depth : Nat
  ctx : Nat
  members : List ThreadRef
  /-- the members subscribed when the publisher issued the RDV or CH.SYNC it waits on (R168, R171) -/
  syncSet : List ThreadRef
  /-- words published in the last rotations, for a new subscriber (R167) -/
  recent : List ChanEntry
  /-- a member held the channel in the rotation that ended last (R174) -/
  heldPrev : Bool
  /-- the rotation in which an RDV 0 or a CH.SYNC completed last (R274) -/
  syncAt : Option Nat
  deriving DecidableEq, Repr

/-- A message reserved in a mailbox ring and not yet written (R184, R185). -/
structure Delivery where
  /-- offsets in the ring and words to write there: payload first, header last -/
  words : List (Nat × Word)
  /-- the release scope and the sender, whose older accesses the header fill waits for -/
  scope : Word
  sender : Option ThreadRef
  /-- serial of the sender's youngest access at the SEND -/
  upTo : Nat
  /-- address of the SEND, and its thread's identity: launch, band, id.tib, context -/
  pc : Word
  who : List Nat
  deriving DecidableEq, Repr

/-- A copy in the copy unit (R208, R209). -/
structure Copy where
  id : Nat
  slot : Nat
  ctx : Nat
  mode : Nat
  dst : Word
  src : Word
  n : Nat
  /-- words done -/
  w : Nat
  pc : Word
  batch : Option Nat
  /-- it has ended and its record waits for a place (R207): cause, NEED, address, bytes done -/
  record : Option (Nat × Bool × Word × Nat)
  scope : Word
  /-- the issuing thread's band, and whether that thread has ended (R124, R207) -/
  band : BandRef
  ended : Bool
  /-- it was issued with control privilege (R338) -/
  priv : Bool
  deriving DecidableEq, Repr

/-- A term-array command in a core's queue (R219): the instruction's opcode and fields, the operand registers as read at
issue, and its issuing thread. -/
structure MxCmd where
  id : Nat
  word : BitVec 32
  sx : Word
  sy : Word
  slot : Nat
  ctx : Nat
  /-- the format context in force at issue (R222) -/
  fmt : Word
  batch : Option Nat
  pc : Word
  scope : Word
  /-- MX.LDB: words read so far -/
  prog : Nat
  begun : Bool
  /-- the issuing thread's band, and whether that thread has ended (R124) -/
  band : BandRef
  ended : Bool
  /-- it has ended and its record waits for a place (R207): cause, address, bytes done -/
  record : Option (Nat × Word × Nat)
  /-- MX.DRAIN: the values of the issuing thread that its handler copies (R235), and its identity -/
  seed : List Word
  ident : List Nat
  /-- MX.DRAIN: bytes of the page of its done word (R284) -/
  page : Nat := 65536
  /-- it was issued with control privilege (R338) -/
  priv : Bool := false
  deriving DecidableEq, Repr

/-- A drain in progress (R233-R237). -/
structure Drain where
  cmd : Nat
  raw : Bool
  tile : Nat
  h : Nat
  sat : Bool
  err : Bool
  acc : Nat
  satMode : Bool
  /-- next row to enter the buffer, rows dispatched, rows placed -/
  next : Nat
  dispatched : Nat
  placed : Nat
  done : Word
  handlerPc : Word
  issuer : Nat
  /-- the slot in which its handler thread was created (R235) -/
  slot : Option Nat := none
  /-- ROWOUT writes not yet performed: addresses and words, and the rotation of the last ROWOUT (R272) -/
  writes : List (Word × Word)
  placedAt : Nat := 0
  /-- the drain has failed with this cause (R237) -/
  failed : Option Nat
  /-- values a handler thread takes at creation (R235), from the issuing thread -/
  seed : List Word
  scope : Word
  ident : List Nat
  /-- bytes of the page of its done word (R284) -/
  page : Nat := 65536
  deriving DecidableEq, Repr

/-- A sparse table of accumulator slots: row × 256 + column, in rising order, zero entries left out (R215). -/
abbrev Slots36 := List (Nat × BitVec 36)

/-- An accumulator tile (R215). -/
structure Tile where
  slots : Slots36
  h : Nat
  sat : Bool
  err : Bool
  deriving DecidableEq, Repr

/-- A migration packet (R290). -/
structure Packet where
  id : Nat
  reason : Nat
  pc : Word
  launch : Nat
  band : Nat
  tib : Nat
  ctx : Nat
  fromCore : Nat
  fromSlot : Nat
  s : List Word
  f : List Lane
  /-- scope.d, fe.budget, ch.budget, bar.budget, fp.ctl, fp.flags, rng, lmask, trap.vec -/
  sregs : List Word
  tileOrg : List Nat
  tileExt : List Nat
  dest : Nat
  /-- the entry of the overflow ring it lies in, once it does (R292) -/
  entry : Nat := 0
  deriving DecidableEq, Repr

/-- A part of a scratchpad granted to a band (R189, R300). -/
structure Grant where
  band : BandRef
  base : Nat
  size : Nat
  /-- the band is saved (R314): requests wait -/
  saved : Bool
  deriving DecidableEq, Repr

/-- A translation entry as TLBW writes it (R281). -/
structure TlbEntry where
  ctx : Nat
  /-- virtual address [55:16], and the page size 0 64 KiB, 1 4 MiB, 2 1 GiB -/
  vpn : Nat
  size : Nat
  rd : Bool
  wr : Bool
  ex : Bool
  hx : Bool
  tier : Nat
  key : Nat
  /-- PA[51:16] -/
  frame : Nat
  deriving DecidableEq, Repr

/-- One core. -/
structure Core where
  slots : Vector Slot 8
  /-- the core's instruction cache (R14, R127): addresses in context, and words -/
  icache : List (Nat × Word × BitVec 32)
  utlb : List TlbEntry
  -- mailbox ring (R182)
  mboxBase : Nat
  mboxSize : Nat
  mboxHead : Nat
  mboxTail : Nat
  /-- writes to mbox.base (true) and mbox.size that wait for a delivery in progress (R182) -/
  mboxPend : List (Bool × Nat)
  deliveries : List Delivery
  tktLast : Word
  -- channel (R159)
  pub : Option Publication
  away : Vector Nat 32
  rotHist : Vector Nat 9
  /-- rot.issued, rot.mem, rot.msg and rot.vacant of the threads that have left the core, by context (R346) -/
  rotEnded : List (Nat × List Nat)
  /-- SEQ of the last fault record written (R205) -/
  recSeq : Nat
  /-- records written, and records freed, in the present rotation (R212) -/
  recNew : List Nat
  recFreed : List Nat
  copies : List Copy
  grants : List Grant
  arrivals : List Packet
  /-- the rotation in which a packet was installed last (R292) -/
  installAt : Option Nat
  /-- port words of threads that have left the core, not yet accepted (R180): slot, context, port.cfg, words -/
  left : List (Nat × Nat × Word × List PortWord)
  -- term-array core context (R215)
  mxCtx : Word
  mxApplied : Word
  mxQueue : List MxCmd
  /-- the first cycle after the completion of the core's last MX.MMA (R219, R221) -/
  mxFreeAt : Nat
  /-- the core's last granted array command (R219) -/
  mxLast : Option Nat
  tile0 : Tile
  tile1 : Tile
  tc : Vector Nat 64
  reservation : Option Nat
  drain : Option Drain
  drainBuf : List (Nat × List (BitVec 36))
  deriving DecidableEq, Repr

/-! ## Clusters -/

/-- State of a weight-buffer slot (R224). -/
inductive SlotState where
  | empty | loading | valid | failed
  deriving DecidableEq, Repr

/-- A weight-buffer slot: its state, format tag and image (R215, R223). -/
structure Weight where
  state : SlotState
  tag : Nat
  image : List Byte
  deriving DecidableEq, Repr

/-- A cell plane: tag (B format and term side), NOSPEC of its decoding, step table, term counts, and the image the cells
were decoded from (R215, R225); without a tag the cells hold zero (R224). -/
structure Plane where
  tag : Option (Nat × Bool)
  nospec : Bool
  step : List Nat
  terms : List Nat
  image : List Byte
  deriving DecidableEq, Repr

/-- A barrier of a cluster, granted to a band (R258). -/
structure Barrier where
  band : BandRef
  n : Nat
  c : Nat
  c' : Option Nat
  a : Nat
  g : Nat
  /-- the generations that have completed lately, and the rotations in which they did (R264) -/
  doneAt : List (Nat × Nat)
  /-- pending generation of each thread, by id.tib -/
  pend : List (Nat × Nat)
  /-- register captures of the arrivals of this generation, by id.tib in arrival order (R269) -/
  captures : List (Nat × List Byte)
  /-- a completed generation whose pennant waits for a free log record (R271) -/
  heldPennant : Bool
  deriving DecidableEq, Repr

/-- Who waits for a translation: a thread before issue, a store, copy, command or transfer by its serial number, or a unit of the
package. -/
inductive Waiter where
  | thread (t : ThreadRef)
  | req (id : Nat)
  /-- the dispatcher, the gang unit or a POST register, for a context -/
  | device (ctx : Nat)
  deriving DecidableEq, Repr

/-- An outstanding translation miss of a translation unit (R279, R280). -/
structure Miss where
  ctx : Nat
  /-- virtual address [55:16] -/
  vpn : Nat
  kind : Nat
  va : Word
  first : ThreadRef
  sent : Bool
  waiters : List Waiter
  /-- answered by OP 2 with this cause (R282); it stays until every waiter has met it -/
  failed : Option Cause
  deriving DecidableEq, Repr

/-- An array command that has been granted (R220). -/
structure Stepping where
  core : Nat
  cmd : MxCmd
  /-- grant cycle and number of steps D -/
  grant : Nat
  d : Nat
  /-- MX.SETB: its slot was valid, with the tag of the context, at the grant (R225) -/
  valid : Bool
  /-- MX.MMA: the plane as it stood at the grant, unless its tag had changed (R225, R227) -/
  plane : Option Plane
  /-- MX.MMA: the rows of A as read, codes and side pairs, up to an uncorrectable error (R227) -/
  rows : List (List Byte × List Byte)
  deriving DecidableEq, Repr

/-- One cluster's term array and barrier unit (R215, R258). -/
structure Cluster where
  weights : List (Nat × Weight)
  planes : Vector Plane 4
  owner : Option Nat
  lastGrant : Nat
  stepping : Option Stepping
  /-- commands that have finished stepping and complete 40 cycles later (R221) -/
  finishing : List Stepping
  /-- the first cycle in which the array may grant again (R220) -/
  freeAt : Nat
  /-- a power hold in force: the cycle at which it expires (R220) -/
  hold : Option Nat
  /-- a power hold has been placed before the next grant, which is of this core's command (R220) -/
  holdFor : Option Nat
  barriers : List Barrier
  deriving DecidableEq, Repr

/-- A translation unit: a cluster's, or an I/O die's (R278, R376). -/
structure XlatUnit where
  tlb : List TlbEntry
  misses : List Miss
  deriving DecidableEq, Repr

/-! ## Requests in flight -/

/-- How an access passes the memory encryption of its frame (R336, R338): the memory is not encrypted; it decrypts and encrypts
under a key slot; or it may do neither, in a frame of a confidential slot. -/
inductive Keying where
  | plain
  | under (slot : Nat)
  | sealed (slot : Nat)
  deriving DecidableEq, Repr

/-- What a request asks of its holder (R193, R201, R202, R267, R378). -/
inductive ReqKind where
  /-- a plain load of 1, 2, 4 or 8 bytes, sign-extended or not -/
  | load (size : Nat) (signed : Bool)
  /-- a plain vector load: lane, address, key and encryption of each lane still to be read; and the
  lowest lane read so far that has an uncorrectable error, with its address and trap.info (R150) -/
  | vload (lanes : List (Nat × Word × Nat × Keying)) (bad : Option (Nat × Word × Word))
  | ldW | ldT | stF | stS | feClr | feProbe
  /-- an atomic with FN6 op -/
  | amo (op : Nat)
  /-- a reduction, by the FN6 of the AMO of the same name -/
  | red (op : Nat)
  | ticket (bc : Bool)
  | bqPop
  deriving DecidableEq, Repr

/-- Where a request is. -/
inductive Stage where
  /-- travelling to its holder -/
  | sent
  /-- bound for a remote home and held back under R247 -/
  | toSend
  /-- in its word's queue (R195); spilled to this park-list entry (R286) -/
  | queued (park : Option Nat)
  /-- at a word whose band is saved (R314), in this park-list entry; a plain access has none -/
  | parked (park : Option Nat)
  /-- deferred while an atomic holds the word (R196) -/
  | deferred
  /-- refused for a full park list (R286) -/
  | refused
  /-- an atomic whose take has been granted; the word's value (R201) -/
  | granted (old : Word)
  /-- an atomic whose fill travels -/
  | filling (new : Word)
  /-- removed from its queue; the confirmation travels back (R198) -/
  | withdrawn
  /-- sent to a remote home (R368) -/
  | remote
  deriving DecidableEq, Repr

/-- A request of a thread to the holder of a word. -/
structure Flight where
  id : Nat
  thread : ThreadRef
  ctx : Nat
  kind : ReqKind
  va : Word
  /-- physical key of the access (see `keyOf`), or the window offset's address for a remote home -/
  key : Nat
  /-- operand and, for CAS, new value -/
  data : Word
  data2 : Word
  issuedAt : Nat
  budget : Word
  pc : Word
  scope : Word
  stage : Stage
  /-- a withdrawal travels to the holder (R198) -/
  withdrawal : Bool
  /-- how it passes the memory encryption (R336, R338) -/
  cipher : Keying
  /-- the result is discarded and no trap is raised (R385) -/
  orphan : Bool
  /-- detached request of a saved thread (R311): the key of its entry in the save record (R312) -/
  detached : Option Nat
  /-- bytes of the page its word lies in, as its translation gave it (R284) -/
  page : Nat := 65536
  /-- its position in its word's queue, as the holder counts it, or at a saved band's word its place among those that wait
  there (R285, R314) -/
  seq : Nat := 0
  deriving DecidableEq, Repr

/-- An access that has reached a word of a saved band and waits there (R314): a request, the store of a thread, a lane of a vector load, a
word of a copy or of an MX.LDB, a word of a drain's row. -/
inductive SavedWait where
  /-- a request that is kept at its holder -/
  | request (id : Nat)
  | store (t : ThreadRef)
  | lane (id lane : Nat)
  | copy (core id : Nat)
  | load (core : Nat)
  | row (core : Nat)
  deriving DecidableEq, Repr

/-- A word held by an atomic (R196), with the requests it defers in their order of arrival. -/
structure Hold where
  key : Nat
  owner : Nat
  deferred : List Nat
  deriving DecidableEq, Repr

/-- A message to the barrier unit (R260, R261, R264). -/
structure BarMsg where
  id : Nat
  thread : ThreadRef
  band : BandRef
  n : Nat
  /-- none for an arrival; the count for a BAR.CFG -/
  cfg : Option Nat
  tib : Nat
  /-- the rotation in which it leaves, at the earliest while it is held back (R247) -/
  sentAt : Nat
  distance : Nat
  /-- the accesses it must follow under R247: those up to this serial -/
  upTo : Nat
  capture : List Byte
  deriving DecidableEq, Repr

/-! ## Launches and bands -/

/-- The fields of a launch record (R295). -/
structure LaunchRec where
  prio : Nat
  idem : Bool
  aff : Bool
  nbar : Nat
  /-- slots per core, threads per band -/
  slots : Nat
  threads : Nat
  entry : Word
  args : Word
  gx : Nat
  gy : Nat
  gz : Nat
  spad : Nat
  afflog : Nat
  div : Word
  affaddr : Word
  /-- physical key of the STATUS word -/
  status : Nat
  /-- EX, EY, EZ, TX, TY, TZ of the tensor-division descriptor (R297); empty without one -/
  divs : List Nat
  deriving DecidableEq, Repr

/-- A posted record the dispatcher has not accepted yet (R298, R324). -/
structure Posted where
  ctx : Nat
  rec_ : LaunchRec
  /-- the thread whose LAUNCH waits -/
  poster : Option ThreadRef
  deriving DecidableEq, Repr

/-- An accepted, unfinished launch (R298). -/
structure Launch where
  ctx : Nat
  num : Nat
  rec_ : LaunchRec
  /-- next band to place, bands ended, die of the last band placed (R299) -/
  nextBand : Nat
  ended : Nat
  lastDie : Option Nat
  lost : Bool
  masthead : Bool
  /-- bands made pending again by a discard (R309), with their threads' snapshots -/
  redo : List (Nat × List Region)
  deriving DecidableEq, Repr

/-- What has become of a band. -/
inductive BandState where
  | placed | running | saving | saved | lost
  deriving DecidableEq, Repr

/-- A request of a saved thread that is parked at its holder (R311): the thread's id.tib, the key of its entry in the
save record (R312), its serial number, whether it is an LD.T (R200), and its address. -/
structure Detached where
  tib : Nat
  key : Nat
  id : Nat
  take : Bool
  va : Word
  /-- a TICKET.BC, whose number is still to be broadcast (R268) -/
  bc : Bool
  /-- physical key of its word (see `keyOf?`) -/
  word : Nat
  deriving DecidableEq, Repr

/-- What is kept of a saved band beside its save record in memory (R310-R313): what the record has no field for. -/
structure SavedBand where
  /-- physical address and size of the record -/
  key : Nat
  bytes : Nat
  /-- rotation in which the save completed -/
  beat : Nat
  /-- threads by id.tib, and drain handlers, with their slots -/
  threads : List (Nat × ThreadRef × Thread)
  handlers : List (ThreadRef × Thread)
  /-- the slots that were granted to it -/
  granted : List ThreadRef
  detached : List Detached
  /-- publications of its threads, by core (R305) -/
  pubs : List (Nat × Publication)
  bars : List Barrier
  /-- cores whose state was saved with the band (R313) -/
  cores : List (Nat × Core)
  /-- fault records of its threads on the other cores: core and words -/
  records : List (Nat × List Word)
  /-- requests of others parked at words of its grants (R314) -/
  queues : List (Nat × List Nat)
  deriving DecidableEq, Repr

/-- A band that has been placed (R299). -/
structure Band where
  ref : BandRef
  state : BandState
  cluster : Nat
  cores : List Nat
  /-- the slot of each thread, by id.tib -/
  slots : List ThreadRef
  /-- effects outside its idempotent regions (R308) -/
  out : Bool
  /-- snapshots to restart from (R309) -/
  restart : List Region
  /-- threads that ended by HALT in their regions, by id.tib (R309) -/
  haltedIn : List (Nat × Region)
  /-- it is being stopped to be discarded, not saved (R309) -/
  discard : Bool
  /-- what was saved of it (R312) -/
  saved : Option SavedBand
  /-- the closed set it was pre-empted with (R304) -/
  group : Nat
  deriving DecidableEq, Repr

/-! ## Contexts -/

/-- An active context: its entry (R329) and tables as read at activation (R330-R332). -/
structure Context where
  num : Nat
  conf : Bool
  pennant : Bool
  trace : Bool
  kdbg : Bool
  plim : Nat
  key : Nat
  hport : Nat
  rect : Word
  /-- logical core to physical core -/
  coreTab : List (Nat × Nat)
  routeTab : List Nat
  save : Nat
  saveSz : Nat
  park : Nat
  parkN : Nat
  fq : Nat
  fqN : Nat
  plog : Nat
  plogN : Nat
  fwin : Nat
  tbuf : Nat
  tbufN : Nat
  /-- next entries to write in the fault queue, pennant log and trace buffer -/
  fqNext : Nat
  plogNext : Nat
  tbufNext : Nat
  /-- breakpoints of a kernel debug session, by number 0-3 (R343) -/
  breakpoints : List (Nat × Word)
  /-- the context measurement (R341) -/
  measurement : List Byte
  deriving DecidableEq, Repr

/-- A record of R333 that waits for a free fault-queue entry. -/
structure FaultRec where
  ctx : Nat
  core : Nat
  slot : Nat
  words : List Word
  deriving DecidableEq, Repr

/-- An entry of a flight recorder (R348). -/
structure FlightRec where
  kind : Nat
  src : Nat
  unit : Nat
  seq : Nat
  beat : Nat
  data : List Word
  deriving DecidableEq, Repr

/-! ## Dies, I/O dies and fabric -/

/-- A compute die's own state. -/
structure Die where
  released : Bool
  fenced : Bool
  errCorr : Nat
  errUncorr : Nat
  /-- the overflow ring of R292: base, entries, its mapped pages by number from the page of the base on, the packets in it, and
  its next entry -/
  ringBase : Nat
  ringN : Nat
  ringPages : List Nat
  ring : List Packet
  ringNext : Nat
  recorder : List FlightRec
  frSeq : Nat
  /-- the profiler's sums, by context: rot.* and tc.* (R346) -/
  profile : List (Nat × List Nat)
  deriving DecidableEq, Repr

/-- A write an XFER has still to perform: address, log2 of its size, data, and the bit it leaves, if any (R372). -/
structure XferWrite where
  va : Word
  lg : Nat
  data : List Word
  bit : Option Bool
  deriving DecidableEq, Repr

/-- An XFER in an engine (R371-R374). -/
structure Xfer where
  id : Nat
  engine : Nat
  ctx : Nat
  core : Nat
  slot : Nat
  desc : List Word
  scope : Word
  rm : Nat
  /-- its issuing thread had control privilege (R338) -/
  priv : Bool
  /-- next element in source order -/
  next : Nat
  thread : ThreadRef
  /-- elements read whose writes are not over, and those writes -/
  got : List (List Word × Bool)
  writes : List XferWrite
  /-- the request to a remote package it waits for -/
  waiting : Option Nat
  /-- its remote completion word is being filled -/
  filling : Bool
  /-- failing element, cause code and address (R374) -/
  failed : Option (Nat × Nat × Word)
  pc : Word
  /-- the engine has begun it (R384) -/
  begun : Bool := false
  /-- its issuing thread's identity: launch, band, id.tib, context (R384) -/
  who : List Nat := []
  deriving DecidableEq, Repr

/-- An outstanding request to a remote package (R362, R363). -/
structure FabReq where
  id : Nat
  tx : FabTx
  port : Nat
  alt : Option Nat
  sentAt : Nat
  tmo : Nat
  /-- times TMO has passed -/
  expired : Nat
  /-- who waits: the flight with this serial number, a plain store of a thread, or an XFER -/
  flight : Option Nat
  store : Option ThreadRef
  xfer : Option Nat
  thread : Option ThreadRef
  withdrawSent : Bool
  /-- address in the FABRIC window, and the instruction's -/
  va : Word
  pc : Word
  deriving DecidableEq, Repr

/-- The framing of a port in Ethernet mode (R357): destination and source MAC, an 802.1Q tag if frames carry one, and the
EtherType. -/
structure EthFrame where
  dst : BitVec 48
  src : BitVec 48
  vlan : Option (BitVec 16)
  etherType : BitVec 16
  deriving DecidableEq, Repr

/-- A port's link (R357-R359). -/
structure Link where
  /-- Ethernet mode, or Direct-attach (R357), and the framing of the former -/
  ethernet : Bool
  eth : EthFrame
  up : Bool
  failed : Bool
  peer : BitVec 16
  /-- next SEQ to send and next expected -/
  sendSeq : Nat
  recvSeq : Nat
  /-- data flits not yet acknowledged: SEQ and the flit -/
  replay : List (Nat × List Byte)
  /-- flits given to the PHY, oldest first -/
  sent : List (List Byte)
  /-- payloads accepted in order -/
  received : List (List Byte)
  nakSent : Bool
  progressAt : Nat
  deriving DecidableEq, Repr

/-- A request of a remote package that has reached this home (R368): the port it came by, the request that stands for it
at the holder, and status and data of its reply once they are known. -/
structure HomeReq where
  tx : FabTx
  port : Nat
  flight : Nat
  reply : Option (Nat × Word)
  deriving DecidableEq, Repr

/-- A member of a gang as the leader's unit sees it (R380). -/
structure GangMember where
  win : Nat
  rec_ : Word
  /-- none: no acknowledgement yet; some 0: OK; some r: refused with reason r -/
  ack : Option Nat
  /-- the member has acknowledged the decision -/
  told : Bool
  /-- the rotation in which the decision was sent to it last -/
  sentAt : Nat
  deriving DecidableEq, Repr

/-- A gang led by this package (R379-R382). -/
structure Gang where
  num : Nat
  ctx : Nat
  addr : Word
  timeout : Nat
  startedAt : Nat
  members : List GangMember
  own : Word
  ownAck : Option Nat
  decision : Option Word
  deriving DecidableEq, Repr

/-- A prepared record this package keeps for a remote leader (R380, R382). -/
structure Prepared where
  leader : BitVec 16
  gang : Nat
  /-- its place among the members, and the port its prepare came by -/
  member : Nat
  port : Nat
  ctx : Nat
  rec_ : Word
  timeout : Nat
  since : Nat
  /-- the answer given: 0 OK or the reason -/
  answer : Nat
  /-- decision received: 1 commit, 2 abort -/
  decided : Option Nat
  deriving DecidableEq, Repr

/-- What comes from outside the instruction table: errors of the memories and the halyard (R349, R350), translation entries
dropped (R278), and what the host and the firmware's own registers bring (R292, R323, R326, R328, R341, R345, R357). -/
inductive Outside where
  /-- a word gets a single-bit error, an uncorrectable one, or one in the memory-side cache (R77, R349, R350) -/
  | softError (key : Nat)
  | hardError (key : Nat)
  | cacheError (key : Nat)
  /-- word i of those a member still has to execute has reached it with an uncorrectable error (R350) -/
  | badWord (t : ThreadRef) (i : Nat)
  /-- a translation unit or a core's micro-TLB drops entry i (R278) -/
  | dropEntry (unit i : Nat)
  | dropMicro (core i : Nat)
  /-- the host reads the control window (R323) -/
  | barRead (off n : Nat)
  /-- the host writes the firmware mailbox, and the firmware replies in it (R323, R328) -/
  | mailboxWrite (off : Nat) (data : List Byte)
  | mailboxReply (off : Nat) (data : List Byte)
  /-- firmware sets the size of the aperture, maps a frame of it or unmaps it (R322, R326) -/
  | apertureSize (n : Nat)
  | apertureMap (frame : Nat) (target : Option Nat)
  /-- firmware maps an event to a vector of a host port, or unmaps it (R328) -/
  | msixMap (event port : Nat) (vector : Option Nat)
  /-- firmware places a die's overflow ring, and maps a page of it or unmaps it (R292) -/
  | ring (die base n : Nat)
  | ringPage (die page : Nat) (mapped : Bool)
  /-- a PC sample of a thread (R345) -/
  | pcSample (t : ThreadRef) (period : Word)
  /-- firmware assigns the package's identity, chooses the mode of a port (R357), and a port in Ethernet mode receives a frame -/
  | fabricId (id : BitVec 16)
  | linkMode (port : Nat) (ethernet : Bool) (eth : EthFrame)
  | frame (port : Nat) (bytes : List Byte)
  /-- a text section is placed in a context; a report is made for a requester's nonce (R341) -/
  | textPlaced (ctx : Nat) (text : List Byte)
  | attest (ctx : Nat) (nonce : List Byte)
  deriving DecidableEq, Repr

/-- What happens in one step: a thread issues, an event row of the table takes place, or something comes from outside. -/
inductive Activity where
  | issue (t : ThreadRef)
  | event (i : Instr)
  | outside (x : Outside)
  deriving DecidableEq, Repr

/-! ## The package -/

/-- The state of the machine. -/
structure State where
  -- the order of activities (model's own, log 1)
  /-- the activities that move next, in order; when none is listed the machine schedules itself -/
  agenda : List Activity
  /-- the thread whose instruction is being executed, and the instruction's word -/
  cur : ThreadRef
  ir : BitVec 32
  /-- the cycle of the present rotation (R7), and the slots of that number that have had it (R155) -/
  cycle : Nat
  turned : List ThreadRef
  /-- serial numbers of requests and publications; counter of free values -/
  serial : Nat
  fresh : Nat
  -- time
  beat : Nat
  -- memory (R188, R276)
  /-- bytes by physical key, in rising order, zero bytes left out -/
  mem : List Host.Cell
  /-- words whose full/empty bit differs from what an unlisted word's bit is, by key of their first byte -/
  feFlips : List Nat
  /-- words with an uncorrectable error (R349, R350), those of them whose error is in the memory-side cache (R77), and words
  with a single-bit one -/
  eccBad : List Nat
  eccCache : List Nat
  eccSoft : List Nat
  -- parts
  cores : List (Nat × Core)
  clusters : List (Nat × Cluster)
  xlat : List (Nat × XlatUnit)
  dies : List (Nat × Die)
  -- requests
  flights : List Flight
  /-- the queue of conditional requests of each word, in order (R195) -/
  queues : List (Nat × List Nat)
  holds : List Hold
  /-- plain accesses at words of saved bands: their place among all that wait there, the word, the access (R314) -/
  savedWaits : List (Nat × Nat × SavedWait)
  barMsgs : List BarMsg
  /-- migration packets on their way (R289) -/
  packets : List Packet
  -- contexts and launches
  ctxBase : Word
  ctxActBusy : Option Word
  ctxActStatus : Nat
  contexts : List Context
  /-- launches accepted so far, by context: the 32-bit count of R298 -/
  launchCounts : List (Nat × Nat)
  posted : List Posted
  launches : List Launch
  bands : List Band
  faultWait : List FaultRec
  /-- trace records whose entry an atomic holds, oldest first: context and words (R196, R345) -/
  traceWait : List (Nat × List Word)
  adminLog : List (List Word)
  /-- FE_TIMEOUTs the dispatcher has been told of: priority of the thread (R198, R306) -/
  feReports : List Nat
  /-- weight slots and planes saved for a former owner (R314): context, cluster, and where they lie in its save area, as a
  physical address and a number of bytes -/
  savedArray : List (Nat × Nat × Nat × Nat)
  -- host side (R322-R328)
  postStat : List (Nat × Word)
  hostRead : List Byte
  hostWrites : List (Nat × ThreadRef)
  /-- MSI-X vectors raised: port and vector; and those firmware has mapped: event, port, vector (R328) -/
  msix : List (Nat × Nat)
  msixMap : List (Nat × Nat × Nat)
  /-- bytes of the firmware mailbox (R323) -/
  mailbox : List Host.Cell
  /-- the size of the far-memory aperture in bytes, as firmware sets it (R322), and its mapped frames: frame number of the
  aperture to physical frame (R326) -/
  apertureSize : Nat
  aperture : List (Nat × Nat)
  -- power (R320, R334, R353)
  fstep : Nat
  fstepPend : Option Nat
  fstepHeld : Bool
  pwrLimit : Nat
  pwrMeas : Nat
  pwrTemp : Nat
  /-- the rotation of the last power check (R353) -/
  powerAt : Option Nat
  powered : Bool
  -- keys (R337)
  /-- generated slots: slot, confidential, the 64 key bytes' counter -/
  keys : List (Nat × Bool × Nat)
  keyCmd : Word
  keyBusy : Bool
  keyErr : Bool
  /-- the key each 64-byte data unit was written under, by its number: slot, and the slot's generation (R336) -/
  unitKeys : List (Nat × Nat × Nat)
  -- firmware and debug (R340-R344)
  bootStage : Nat
  bootFail : Nat
  measurement : List Byte
  /-- the last attestation report made (R341) -/
  report : List Byte
  dbgUnlocked : Bool
  challenge : Option (List Byte)
  traceSink : List (List Word)
  -- flight recorder of the package arbiter (R348)
  recorder : List FlightRec
  frSeq : Nat
  -- fabric
  fabricId : BitVec 16
  links : List (Nat × Link)
  fabReqs : List FabReq
  /-- next tag of each tag stream (R362) -/
  fabTags : List (Nat × Nat)
  /-- completion windows: source package, stream, tag and reply (R362) -/
  fabDone : List (Nat × Nat × Nat × FabTx)
  homeReqs : List HomeReq
  /-- transactions handed to the ports, oldest first: port and transaction -/
  fabOut : List (Nat × FabTx)
  xfers : List Xfer
  gangs : List Gang
  gangCount : Nat
  prepared : List Prepared
  deriving DecidableEq, Repr

/-! ## After a cold reset -/

/-- A thread with every register zero and every special register at the value of R70: the values a context or a launch
gives are filled in where the thread is made. -/
def Thread.blank : Thread where
  pc := 0
  mode := .run
  s := Vector.replicate 32 0
  v := Vector.replicate 32 (Vector.replicate 32 0)
  f := Vector.replicate 12 0
  k := Vector.replicate 4 0
  launch := 0
  band := 0
  tib := 0
  ctx := 0
  tileOrg := [0, 0, 0]
  tileExt := [0, 0, 0]
  scopeD := 0
  feBudget := 0x1000000
  chBudget := 0x1000000
  barBudget := 0x1000000
  portCfg := 0
  portTag := 0
  fpCtl := 0
  fpFlags := 0
  rng := 1
  lmask := 0xFFFFFFFF
  sqLeftpc := 0
  sq := .fetching
  sqRdv := 0
  sqCh := 0
  sqDepth := 0
  trapVec := 0
  trapCause := 0
  trapCtl := false
  trapPc := 0
  trapAddr := 0
  trapInfo := 0
  rotIssued := 0
  rotMem := 0
  rotMsg := 0
  rotVacant := 0
  outs := []
  heldTakes := []
  heldKeys := []
  storeQ := []
  pending := 0
  copyBatch := 0
  mxBatch := 0
  inq := []
  outq := []
  subBuf := []
  subDue := 0
  publication := 0
  endAt := none
  region := none
  handler := none
  wait := none
  trapPend := none
  fetched := none
  busy := 0
  issued := false
  notBefore := 0
  bornAt := none
  killAt := none
  together := none
  halted := false
  stopped := false

/-- A slot that holds no thread. -/
def Slot.blank : Slot where
  ctx := none
  grant := none
  thread := none
  event := false
  evpend := 0
  evmask := 0
  timer := 0
  timerFired := false
  vacantCount := 0
  used := false

/-- An accumulator tile of zeros. -/
def Tile.blank : Tile := ⟨[], 0, false, false⟩

/-- A core after reset: no thread, no channel, every register of R70 and R182 at its reset value. -/
def Core.blank : Core where
  slots := Vector.replicate 8 Slot.blank
  icache := []
  utlb := []
  mboxBase := 0
  mboxSize := 0
  mboxHead := 0
  mboxTail := 0
  mboxPend := []
  deliveries := []
  tktLast := 0
  pub := none
  away := Vector.replicate 32 0
  rotHist := Vector.replicate 9 0
  rotEnded := []
  recSeq := 0
  recNew := []
  recFreed := []
  copies := []
  grants := []
  arrivals := []
  installAt := none
  left := []
  mxCtx := 0
  mxApplied := 0
  mxQueue := []
  mxFreeAt := 0
  mxLast := none
  tile0 := Tile.blank
  tile1 := Tile.blank
  tc := Vector.replicate 64 0
  reservation := none
  drain := none
  drainBuf := []

/-- A cell plane after reset (R224). -/
def Plane.blank : Plane := ⟨none, false, List.replicate 16 1, List.replicate 16 0, []⟩

/-- An empty weight-buffer slot (R224). -/
def Weight.blank : Weight := ⟨.empty, 0, []⟩

/-- A cluster after reset: slots empty, planes reset, nothing owned, the last granted index 63 (R220, R224). -/
def Cluster.blank : Cluster where
  weights := []
  planes := Vector.replicate 4 Plane.blank
  owner := none
  lastGrant := 63
  stepping := none
  finishing := []
  freeAt := 0
  hold := none
  holdFor := none
  barriers := []

/-- A translation unit that holds nothing. -/
def XlatUnit.blank : XlatUnit := ⟨[], []⟩

/-- A compute die after reset: not yet released by the firmware (R356). -/
def Die.blank : Die where
  released := false
  fenced := false
  errCorr := 0
  errUncorr := 0
  ringBase := 0
  ringN := 0
  ringPages := []
  ring := []
  ringNext := 0
  recorder := []
  frSeq := 0
  profile := []

/-- A link that is down, in Direct-attach mode, with the default EtherType (R357). -/
def Link.blank : Link where
  ethernet := false
  eth := ⟨0, 0, none, 0x88B5⟩
  up := false
  failed := false
  peer := 0
  sendSeq := 0
  recvSeq := 0
  replay := []
  sent := []
  received := []
  nakSent := false
  progressAt := 0

/-- The machine right after a cold reset (R355, R356): the boot ROM about to run, no thread anywhere, every memory word
zero and full, every register at the value the manual gives or, where it gives none, zero (DESIGN CHOICE, log 2). -/
def State.reset : State where
  agenda := []
  cur := ⟨0, 0⟩
  ir := 0
  cycle := 0
  turned := []
  serial := 0
  fresh := 64
  beat := 0
  mem := []
  feFlips := []
  eccBad := []
  eccCache := []
  eccSoft := []
  cores := []
  clusters := []
  xlat := []
  dies := []
  flights := []
  queues := []
  holds := []
  savedWaits := []
  barMsgs := []
  packets := []
  ctxBase := 0
  ctxActBusy := none
  ctxActStatus := 0
  contexts := []
  launchCounts := []
  posted := []
  launches := []
  bands := []
  faultWait := []
  traceWait := []
  adminLog := []
  feReports := []
  savedArray := []
  postStat := []
  hostRead := []
  hostWrites := []
  msix := []
  msixMap := []
  mailbox := []
  apertureSize := 0
  aperture := []
  fstep := 18
  fstepPend := none
  fstepHeld := false
  pwrLimit := 9600
  pwrMeas := 0
  pwrTemp := 0
  powerAt := none
  powered := true
  keys := [(0, false, 0)]
  keyCmd := 0
  keyBusy := false
  keyErr := false
  unitKeys := []
  bootStage := 0
  bootFail := 0
  measurement := List.replicate 64 0
  report := []
  dbgUnlocked := false
  challenge := none
  traceSink := []
  recorder := []
  frSeq := 0
  fabricId := 0
  links := []
  fabReqs := []
  fabTags := []
  fabDone := []
  homeReqs := []
  fabOut := []
  xfers := []
  gangs := []
  gangCount := 0
  prepared := []

end Sys2Proof.Machine
end

