-- ==== Sys2Proof/Machine/Ops.lean ====
section
/-! DEFINITION. The named operations over the state: its parts, the layout of cores (R318, R375), memory and full/empty
bits (R188, R195), registers (R63, R64), fault records (R205, R333), and taking a trap and returning from one (R26,
R76-R79, R123). -/

namespace Sys2Proof.Machine

/-! ## The layout of cores -/

/-- Compute cores in a package (R318). -/
def computeCores : Nat := 24576
/-- The first translation service core; one per cluster. -/
def tsvcBase : Nat := 24576
/-- The first cluster control core; one per cluster. -/
def cctlBase : Nat := 24960
/-- The first die control core; one per die. -/
def dctlBase : Nat := 25344
/-- The first masthead core; 16 per I/O die (R375). -/
def mastBase : Nat := 25368
/-- One past the last core. -/
def coreCount : Nat := 25432

/-- The role of a core (R67, R334). -/
def roleOf (n : Nat) : Role :=
  if n < tsvcBase then .compute
  else if n < cctlBase then .translation
  else if n < dctlBase then .clusterCtl
  else if n < mastBase then .dieCtl
  else .masthead

/-- The die of a core; an I/O die i counts as 24 + i (R375). -/
def dieOf (n : Nat) : Nat :=
  match roleOf n with
  | .compute => n / 1024
  | .translation => (n - tsvcBase) / 16
  | .clusterCtl => (n - cctlBase) / 16
  | .dieCtl => n - dctlBase
  | .masthead => 24 + (n - mastBase) / 16

/-- The cluster of a core, counted over the package. -/
def clusterOf (n : Nat) : Nat :=
  match roleOf n with
  | .compute => n / 64
  | .translation => n - tsvcBase
  | .clusterCtl => n - cctlBase
  | .dieCtl => (n - dctlBase) * 16
  | .masthead => 384 + (n - mastBase)

/-- The physical index of a core in its cluster (R215, R318). -/
def indexOf (n : Nat) : Nat := n % 64

/-- The translation unit a core uses: its cluster's, or its I/O die's (R278, R376). -/
def unitOf (n : Nat) : Nat := if roleOf n = .masthead then 384 + (n - mastBase) / 16 else clusterOf n

/-- The core at physical position (x, y) of the package grid (R318). -/
def coreAt (x y : Nat) : Nat :=
  let die := x / 32 + 6 * (y / 32)
  let px := x % 32
  let py := y % 32
  die * 1024 + ((py / 8) * 4 + px / 8) * 64 + (py % 8) * 8 + px % 8

/-- The depth class or port distance between two cores (R159, R180): 1 the same core, 2 the same cluster, 4 the same
die, 12 otherwise. -/
def distance (a b : Nat) : Nat :=
  if a = b then 1 else if clusterOf a = clusterOf b then 2 else if dieOf a = dieOf b then 4 else 12

/-! ## Parts of the state -/

/-- A value as the PC holds it: bits [1:0] zero, the upper bits copies of bit 55 (R63). -/
def pcOf (w : Word) : Word := ((w &&& ~~~(3#64)).setWidth 56).signExtend 64

/-- The PC of the next instruction. -/
def nextPc (pc : Word) : Word := pcOf (pc + 4)

/-- A core that keeps the rotations of a thread that leaves it, for its context's sums (R346). -/
def Core.keepRotations (c : Core) (th : Thread) : Core :=
  { c with rotEnded := insertKey c.rotEnded th.ctx (List.zipWith (· + ·) [th.rotIssued, th.rotMem, th.rotMsg, th.rotVacant]
      (lookupD c.rotEnded th.ctx [0, 0, 0, 0])) }

/-- A core that keeps what outlives a thread which leaves this slot for good: its rotations (R346), and the port words no one has
accepted yet (R180). -/
def Core.outlive (c : Core) (slot : Nat) (th : Thread) : Core :=
  { c.keepRotations th with
    left := if th.outq.isEmpty then c.left else c.left ++ [(slot, th.ctx, th.portCfg, th.outq)] }

namespace State

/-- Core n. -/
def core (s : State) (n : Nat) : Core := lookupD s.cores n Core.blank
/-- The state with core n replaced. -/
def setCore (s : State) (n : Nat) (c : Core) : State := { s with cores := insertKey s.cores n c }
/-- The state with core n changed by f. -/
def modCore (s : State) (n : Nat) (f : Core → Core) : State := s.setCore n (f (s.core n))

/-- Cluster n of the package. -/
def cluster (s : State) (n : Nat) : Cluster := lookupD s.clusters n Cluster.blank
/-- The state with cluster n changed by f. -/
def modCluster (s : State) (n : Nat) (f : Cluster → Cluster) : State :=
  { s with clusters := insertKey s.clusters n (f (s.cluster n)) }

/-- Translation unit n. -/
def unit (s : State) (n : Nat) : XlatUnit := lookupD s.xlat n XlatUnit.blank
/-- The state with translation unit n changed by f. -/
def modUnit (s : State) (n : Nat) (f : XlatUnit → XlatUnit) : State :=
  { s with xlat := insertKey s.xlat n (f (s.unit n)) }

/-- Compute die n. -/
def die (s : State) (n : Nat) : Die := lookupD s.dies n Die.blank
/-- The state with die n changed by f. -/
def modDie (s : State) (n : Nat) (f : Die → Die) : State := { s with dies := insertKey s.dies n (f (s.die n)) }

/-- A slot of a core. -/
def slot (s : State) (t : ThreadRef) : Slot := ((s.core t.core).slots[t.slot]?).getD Slot.blank
/-- The state with a slot changed by f. -/
def modSlot (s : State) (t : ThreadRef) (f : Slot → Slot) : State :=
  s.modCore t.core fun c => { c with slots := c.slots.setIfInBounds t.slot (f ((c.slots[t.slot]?).getD Slot.blank)) }

/-- The thread in a slot, live or halted. -/
def thread? (s : State) (t : ThreadRef) : Option Thread := (s.slot t).thread
/-- The state with a slot's thread replaced. -/
def setThread (s : State) (t : ThreadRef) (th : Thread) : State := s.modSlot t fun sl => { sl with thread := some th }
/-- The state with a slot's thread, if it holds one, changed by f. -/
def modThread (s : State) (t : ThreadRef) (f : Thread → Thread) : State :=
  match s.thread? t with
  | some th => s.setThread t (f th)
  | none => s
/-- The state with a slot vacant; it notes whether its thread has issued in this rotation. -/
def vacate (s : State) (t : ThreadRef) : State := s.modSlot t fun sl =>
  { sl with thread := none, used := sl.used || (match sl.thread with | some th => th.issued | none => false) }
/-- A thread leaves its slot for good. -/
def dropThread (s : State) (t : ThreadRef) : State :=
  (s.vacate t).modCore t.core fun c => match s.thread? t with | some th => c.outlive t.slot th | none => c

/-- The context with a number, if it is active. -/
def context? (s : State) (n : Nat) : Option Context := s.contexts.find? fun c => c.num == n
/-- The state with a context's entry changed by f. -/
def modContext (s : State) (n : Nat) (f : Context → Context) : State :=
  { s with contexts := modFirst (fun c => c.num == n) f s.contexts }

/-- The band with a name. -/
def band? (s : State) (b : BandRef) : Option Band := s.bands.find? fun x => x.ref == b
/-- The state with a band changed by f. -/
def modBand (s : State) (b : BandRef) (f : Band → Band) : State :=
  { s with bands := modFirst (fun x => x.ref == b) f s.bands }

/-- The launch with a name. -/
def launch? (s : State) (ctx num : Nat) : Option Launch := s.launches.find? fun l => l.ctx == ctx && l.num == num
/-- The state with a launch changed by f. -/
def modLaunch (s : State) (ctx num : Nat) (f : Launch → Launch) : State :=
  { s with launches := modFirst (fun l => l.ctx == ctx && l.num == num) f s.launches }

/-- A new serial number. -/
def tick (s : State) : State := { s with serial := s.serial + 1 }

/-- Every slot of every listed core, in rising core and slot. -/
def allSlots (s : State) : List ThreadRef := s.cores.flatMap fun p => (List.range 8).map fun i => ⟨p.1, i⟩

/-- Every listed thread with its slot. -/
def allThreads (s : State) : List (ThreadRef × Thread) :=
  s.allSlots.filterMap fun t => (s.thread? t).map fun th => (t, th)

end State

/-- The beat boundary: no slot has had its cycle of this rotation. -/
def State.boundary (s : State) : Bool := s.cycle == 0 && s.turned.isEmpty && !(s.allThreads.any fun p => p.2.issued)

/-- The band a thread belongs to. -/
def Thread.bandRef (th : Thread) : BandRef := ⟨th.ctx, th.launch, th.band⟩

/-- The launch, band, id.tib and context of a thread. -/
def Thread.ident (th : Thread) : List Nat := [th.launch, th.band, th.tib, th.ctx]

/-- A thread that holds its slot and has not ended or been stopped. -/
def Thread.live (th : Thread) : Bool := !th.halted && !th.stopped

/-- Control privilege (R67): control mode, or trap mode entered from it. -/
def Thread.privileged (th : Thread) : Bool := th.mode == .control || (th.mode == .trap && th.trapCtl)

/-- An effect of a thread in its idempotent region that makes band.OUT 1 (R308). -/
def State.effectOut (s : State) (th : Thread) : State :=
  if th.region.isSome then s.modBand th.bandRef fun b => { b with out := true } else s

/-! ## Shares of a tensor (R297) -/

/-- tile.org and tile.ext of a core: q counts the launch's cores (R297). -/
def tileOf (divs : List Nat) (q : Nat) : List Nat × List Nat :=
  match divs with
  | [ex, ey, ez, tx, ty, tz] =>
    let nx := cdiv ex tx
    let ny := cdiv ey ty
    let nz := cdiv ez tz
    let org := [q % nx * tx, q / nx % ny * ty, q / (nx * ny) * tz]
    if nz ≤ q / (nx * ny) then ([0, 0, 0], [0, 0, 0])
    else (org, [min tx (ex - org.getD 0 0), min ty (ey - org.getD 1 0), min tz (ez - org.getD 2 0)])
  | _ => ([0, 0, 0], [0, 0, 0])

/-! ## Logical cores (R8, R331) -/

/-- The physical core of a logical core of a context, if its table holds it. -/
def Context.physical? (c : Context) (l : Nat) : Option Nat := lookup? c.coreTab l

/-- The logical core a physical core is in a context, if the table holds it. -/
def Context.logical? (c : Context) (n : Nat) : Option Nat :=
  (c.coreTab.find? fun p => p.2 == n).map Prod.fst

/-- The physical core of a logical core of context ctx. -/
def State.physical? (s : State) (ctx l : Nat) : Option Nat := (s.context? ctx).bind fun c => c.physical? l

/-- id.core of a thread on a core (R70): the logical core number, 0xFFFF on a masthead core (R375). A core outside the
context's table has no logical number in the manual: a free value. DESIGN CHOICE: log 24. -/
def State.idCore (s : State) (ctx n : Nat) : Nat :=
  if roleOf n = .masthead then 0xFFFF
  else match (s.context? ctx).bind fun c => c.logical? n with
    | some l => l
    | none => (Config.freeWord n).toNat % 2 ^ 15

/-- Whether a slot of the core is assigned to the context (R187, R216). -/
def State.heldBy (s : State) (n ctx : Nat) : Bool := (s.core n).slots.toList.any fun sl => sl.ctx == some ctx

/-! ## Memory (R188, R276) -/

/-- One memory holds every byte of the package under a key: a physical address of R276 for near, far and host memory
(PA[53:52] is the tier), and keys of the tier that does not exist for scratchpads and RECORD areas. -/
def scratchKey (core off : Nat) : Nat := 3 * 2 ^ 52 + core * 2 ^ 18 + off
/-- The key of a byte of a core's RECORD area (R205). -/
def recordKey (core off : Nat) : Nat := 3 * 2 ^ 52 + 2 ^ 40 + core * 2 ^ 8 + off
/-- The tier of a key: 0 near, 1 far, 2 host, 3 scratchpad or RECORD area. -/
def tierOf (key : Nat) : Nat := key / 2 ^ 52
/-- A key of host memory, which has no full/empty bits (R190). -/
def isHost (key : Nat) : Bool := tierOf key == 2
/-- A key of a RECORD area. -/
def isRecord (key : Nat) : Bool := tierOf key == 3 && 2 ^ 40 ≤ key % 2 ^ 52
/-- The core of a key of a scratchpad or a RECORD area. -/
def keyCore (key : Nat) : Nat := if isRecord key then key / 2 ^ 8 % 2 ^ 16 else key / 2 ^ 18 % 2 ^ 22
/-- The word that holds a byte. -/
def wordKey (key : Nat) : Nat := key / 8 * 8

/-- A memory in canonical form: addresses strictly rising, no entry at the value 0 an unlisted byte reads as. -/
def Memory.wfFrom : Option Nat → List Host.Cell → Bool
  | _, [] => true
  | lo, (a, b) :: r => (match lo with | none => true | some l => decide (l < a)) && b != 0 && Memory.wfFrom (some a) r

/-- The canonical form of a memory. -/
def Memory.wf (m : List Host.Cell) : Bool := Memory.wfFrom none m

/-- One byte of a memory; an unlisted byte reads 0 (R189 for scratchpad grants, R66; log 3). -/
def Memory.read (m : List Host.Cell) (a : Nat) : Byte := lookupD m a 0

/-- A memory with the byte at a set: 0 is not listed. -/
def Memory.write (m : List Host.Cell) (a : Nat) (b : Byte) : List Host.Cell :=
  if b = 0 then eraseKey m a else insertKey m a b

namespace State

/-- One byte of the package's memory. -/
def readByte (s : State) (key : Nat) : Byte := Memory.read s.mem key

/-- n bytes from key on, little-endian (R4). -/
def readMem (s : State) (key n : Nat) : Nat := ofLeBytes ((List.range n).map fun i => s.readByte (key + i))

/-- One byte written. -/
def writeByte (s : State) (key : Nat) (b : Byte) : State := { s with mem := Memory.write s.mem key b }

/-- The bytes bs written from key on. -/
def writeBytes (s : State) (key : Nat) : List Byte → State
  | [] => s
  | b :: bs => (s.writeByte key b).writeBytes (key + 1) bs

/-- The low n bytes of x written from key on, little-endian (R4). -/
def writeMem (s : State) (key n x : Nat) : State := s.writeBytes key (leBytes n x)

/-- The 64-bit word at a key. -/
def readWord (s : State) (key : Nat) : Word := ofN (s.readMem key 8)
/-- The 64-bit word at a key, written. -/
def writeWord (s : State) (key : Nat) (w : Word) : State := s.writeMem key 8 w.toNat

/-- FE[a] (R12): the full/empty bit of the word that holds a key. An unlisted word is full, a RECORD word empty. -/
def full (s : State) (key : Nat) : Bool := (s.feFlips.contains (wordKey key)) != !(isRecord key)

/-- The full/empty bit of a word set to b. -/
def setFull (s : State) (key : Nat) (b : Bool) : State :=
  if s.full key = b then s
  else if s.feFlips.contains (wordKey key) then { s with feFlips := s.feFlips.filter (· != wordKey key) }
  else { s with feFlips := insertSet s.feFlips (wordKey key) }

/-- The word of a key is held by an atomic (R196). -/
def held (s : State) (key : Nat) : Bool := s.holds.any fun h => h.key == wordKey key

/-- The key a slot holds: the slot and its generation, 0 for none (R337). -/
def keyNow (s : State) (slot : Nat) : Nat × Nat := (slot, match lookup? s.keys slot with | some g => g.2 + 1 | none => 0)

end State

/-- The data units of n bytes from key on (R336). -/
def unitsOf (key n : Nat) : List Nat := (List.range ((key % 64 + n + 63) / 64)).map (key / 64 + ·)

/-- What the device itself writes for a confidential context, it writes under the context's key (R339). -/
def State.sealFor (s : State) (ctx key n : Nat) : State :=
  match s.context? ctx with
  | some c => if c.conf && decide (tierOf key < 2) then
      { s with unitKeys := (unitsOf key n).foldl (fun l u => insertKey l u (s.keyNow c.key)) s.unitKeys } else s
  | none => s

/-- An entry the device writes for a context, its first word last and set-full (R285, R333, R339, R345). -/
def State.putEntry (s : State) (ctx key : Nat) (ws : List Word) : State :=
  let s1 := (ws.drop 1).zipIdx.foldl (fun a p => a.writeWord (key + 8 * (p.2 + 1)) p.1) s
  ((s1.writeWord key (ws.getD 0 0)).setFull key true).sealFor ctx key (8 * ws.length)

/-! ## Registers (R63, R64) -/

/-- Inbound and outbound port mode (R73). -/
def Thread.inEn (th : Thread) : Bool := wbit th.portCfg 0
def Thread.outEn (th : Thread) : Bool := wbit th.portCfg 1

namespace Thread

/-- s(r): s0 reads zero; in port mode s30 reads the head of the inbound queue and s31 reads 0 (R63, R64). -/
def readS (th : Thread) (r : Nat) : Word :=
  if r = 0 then 0
  else if r = 30 ∧ th.inEn then (th.inq.head?.map PortWord.data).getD 0
  else if r = 31 ∧ th.outEn then 0
  else (th.s[r]?).getD 0

/-- s(r) := w: s0 ignores it; in port mode a write to s30 is discarded and one to s31 pushed with OTAG (R63, R64). -/
def writeS (th : Thread) (r : Nat) (w : Word) (avail : Nat) : Thread :=
  if r = 0 then th
  else if r = 30 ∧ th.inEn then th
  else if r = 31 ∧ th.outEn then
    { th with outq := th.outq ++ [⟨w, BitVec.ofNat 8 (wbits th.portTag 15 8), avail⟩] }
  else { th with s := th.s.setIfInBounds r w }

/-- f(r). -/
def readF (th : Thread) (r : Nat) : Lane := (th.f[r]?).getD 0
/-- f(r) := x. -/
def writeF (th : Thread) (r : Nat) (x : Lane) : Thread := { th with f := th.f.setIfInBounds r x }

/-- v(r). -/
def readV (th : Thread) (r : Nat) : Vector Lane 32 := (th.v[r]?).getD (Vector.replicate 32 0)
/-- Lane i of v(r). -/
def readLane (th : Thread) (r i : Nat) : Lane := ((th.readV r)[i]?).getD 0
/-- v(r) := x. -/
def writeV (th : Thread) (r : Nat) (x : Vector Lane 32) : Thread := { th with v := th.v.setIfInBounds r x }
/-- Lane i of v(r) := x. -/
def writeLane (th : Thread) (r i : Nat) (x : Lane) : Thread := th.writeV r ((th.readV r).setIfInBounds i x)

/-- Flags ORed into fp.flags (R72). -/
def orFlags (th : Thread) (fl : Nat) : Thread := { th with fpFlags := th.fpFlags ||| ofN fl }

end Thread

/-- Whether a predicate, read as a condition, holds (R16): bit 0 of the flag, inverted when N = 1. -/
def predHolds (p : Pred) (th : Thread) : Bool :=
  if p.f = 15 then true else ((th.readF p.f.toNat).getLsbD 0) != (p.n == 1)

/-- The lane mask of a predicate (R17): the flag, inverted when N = 1, or all ones; a subscriber's is ANDed with
lmask. -/
def laneMask (p : Pred) (th : Thread) : Lane :=
  let m := if p.f = 15 then BitVec.allOnes 32 else if p.n = 1 then ~~~(th.readF p.f.toNat) else th.readF p.f.toNat
  if th.sq = .subscribed || th.sq = .held then m &&& th.lmask else m

/-! ## Causes -/

/-- The code of a cause (R77). -/
def Cause.code : Cause → Nat
  | .ill => 0 | .priv => 1 | .align => 2 | .access => 3 | .unmapped => 4 | .feTimeout => 5 | .feSelf => 6
  | .feUnsupported => 7 | .laHazard => 8 | .storeFault => 9 | .subRange => 10 | .chTimeout => 11 | .barTimeout => 12
  | .msgTooLarge => 13 | .mxFormat => 14 | .mxRange => 15 | .eccUncorrectable => 16 | .brk => 17 | .soft => 18

/-! ## Records (R205, R206, R212, R333) -/

/-- A trace record goes into its context's trace buffer; one whose entry is still full is dropped, and one whose entry an atomic
holds waits, and those behind it (R196, R345). -/
def State.traceWrite (s : State) (ctx : Nat) (ws : List Word) : State :=
  match s.context? ctx with
  | none => s
  | some c =>
    let k := c.tbuf + 32 * (c.tbufNext % c.tbufN)
    if s.held k || s.traceWait.any fun p => p.1 == ctx then { s with traceWait := s.traceWait ++ [(ctx, ws)] }
    else if s.full k then s
    else (s.putEntry ctx k ws).modContext ctx fun x => { x with tbufNext := x.tbufNext + 1 }

/-- What happens to a context's threads is traced when it grants a trace, and for firmware debug, which sees nothing of a
confidential context (R339, R345). -/
def State.traceEvent (s : State) (kind ctx core slot : Nat) (pc data : Word) : State :=
  match s.context? ctx with
  | none => s
  | some c =>
    let ws : List Word := [ofN (kind + dieOf core * 2 ^ 8 + s.idCore ctx core % 2 ^ 15 * 2 ^ 13 + slot * 2 ^ 28), pc, ofN s.beat, data]
    let s1 := if s.dbgUnlocked && !c.conf then { s with traceSink := s.traceSink ++ [ws] } else s
    if c.trace ∧ 0 < c.tbufN then s1.traceWrite ctx ws else s1

/-- Each host port raises the MSI-X vectors that firmware maps to an event (R328): 0 an entry of the administrator's log, 1 a
reply in the firmware mailbox, 2 + KIND an entry of a flight recorder (DESIGN CHOICE: the numbers, log 43). -/
def State.raiseMsix (s : State) (event : Nat) : State :=
  { s with msix := s.msix ++ (s.msixMap.filter fun m => m.1 == event).map Prod.snd }

/-- An entry of the administrator's fault log (R328, R333). -/
def State.logAdmin (s : State) (ws : List Word) : State := { s with adminLog := s.adminLog ++ [ws] }.raiseMsix 0

/-- A thread of a confidential context, or a slot one holds, is there (R330). -/
def State.confSlot (s : State) (t : ThreadRef) : Bool :=
  match s.context? (match (s.slot t).thread with | some th => th.ctx | none => (s.slot t).ctx.getD 0) with
  | some c => c.conf
  | none => false

/-- The addresses of a flight-recorder entry, zero for a confidential context (R348). -/
def State.recorded (s : State) (t : ThreadRef) (ws : List Word) : List Word := if s.confSlot t then ws.map fun _ => 0 else ws
/-- The same for a record of this context. -/
def State.recordedOf (s : State) (ctx : Nat) (ws : List Word) : List Word :=
  if (match s.context? ctx with | some c => c.conf | none => false) then ws.map fun _ => 0 else ws

/-- An entry of a die's flight recorder, and of the package's (R348): a ring of 4,096. KIND: 0 halt, 1 fault record, 2 error,
3 link replay, 4 power or thermal action, 5 reset, 6 pre-emption, 7 launch accepted or ended, 8 debug unlock (DESIGN CHOICE: the
numbers, and what UNIT and DATA hold, log 67). -/
def State.record (s : State) (die kind unit : Nat) (data : List Word) : State :=
  let s1 := s.modDie die fun d =>
    { d with
      recorder := (d.recorder ++ [(⟨kind, die, unit, d.frSeq, s.beat, data⟩ : FlightRec)]).drop (d.recorder.length - 4095)
      frSeq := d.frSeq + 1 }
  { s1 with
    recorder := (s1.recorder ++ [(⟨kind, die, unit, s1.frSeq, s.beat, data⟩ : FlightRec)]).drop (s1.recorder.length - 4095)
    frSeq := s1.frSeq + 1 }.raiseMsix (2 + kind)

/-- An event bit of ctl.evpend set in a slot; a bit that goes to 1 under its mask posts the event of SLEEP (R335). -/
def Slot.post (sl : Slot) (bit : Nat) : Slot :=
  if wbit sl.evpend bit then sl
  else { sl with evpend := sl.evpend ||| ofN (2 ^ bit), event := sl.event || wbit sl.evmask bit }

/-- An event posted to every slot of a core (R335). -/
def State.postCore (s : State) (n bit : Nat) : State :=
  s.modCore n fun c => { c with slots := c.slots.map fun sl => sl.post bit }

/-- An event posted to a die's control core; an I/O die has none, and every die control core is told of its events (R335). DESIGN CHOICE:
log 70. -/
def State.postDie (s : State) (die bit : Nat) : State :=
  if die < 24 then s.postCore (dctlBase + die) bit else (List.range 24).foldl (fun a d => a.postCore (dctlBase + d) bit) s

/-- An uncorrectable error is reported on a die by a unit of it: counted, posted and recorded (R334, R335, R348). -/
def State.eccOn (s : State) (d unit : Nat) : State :=
  ((s.modDie d fun x => { x with errUncorr := x.errUncorr + 1 }).postDie d 7).record d 2 unit [ofN unit, 0]

/-- An uncorrectable error is reported on a core's die. -/
def State.eccEvent (s : State) (core : Nat) : State := s.eccOn (dieOf core) core

/-- A record appended to the context's fault queue and copied to the administrator's log (R333, R339): when the next
entry is still full it waits and FAULTQ is posted, and while an atomic holds the entry it waits too (R196). A context whose FQN is 0 has no queue: its records reach the log alone
(DEDUCED, log 46). -/
def State.faultQueue (s : State) (r : FaultRec) : State :=
  match s.context? r.ctx with
  | none => s
  | some c =>
    let w4 := s.idCore r.ctx r.core % 2 ^ 15 + r.slot * 2 ^ 15 + r.ctx * 2 ^ 18
    let ws := r.words ++ [ofN w4, ofN s.beat, 0, 0]
    let adm := if c.conf then [ws.getD 0 0, 0, 0, 0, ofN w4, ofN s.beat, 0, 0] else ws
    let k := c.fq + 64 * (c.fqNext % c.fqN)
    if c.fqN = 0 then s.logAdmin adm
    else if s.full k then { (s.postDie (dieOf r.core) 2) with faultWait := s.faultWait ++ [r] }
    else if s.held k then { s with faultWait := s.faultWait ++ [r] }
    else ((s.putEntry r.ctx k ws).modContext r.ctx fun x => { x with fqNext := x.fqNext + 1 }).logAdmin adm

/-- Word 0 of a fault record (R205). -/
def recordHeader (slot cause kind : Nat) (need deliv : Bool) (size seq : Nat) : Word :=
  ofN (slot + cause * 2 ^ 8 + kind * 2 ^ 16 + b2n need * 2 ^ 18 + b2n deliv * 2 ^ 19 + size * 2 ^ 20 + seq % 2 ^ 32 * 2 ^ 32)

/-- The lowest record of a core's RECORD area that was free when the rotation began (R212). -/
def State.freeRecord? (s : State) (core : Nat) : Option Nat :=
  (List.range 8).find? fun i => !s.full (recordKey core (32 * i)) && !(s.core core).recFreed.contains i

/-- A fault record written into the RECORD area, words 1-3 first and the header last, set-full (R205). None when no
record is free (R207). SEQ of a core's first record is 1 (DESIGN CHOICE, log 72). -/
def State.writeRecord (s : State) (core slot cause kind : Nat) (need : Bool) (size : Nat) (pc addr data : Word) :
    Option State :=
  match s.freeRecord? core with
  | none => none
  | some i =>
    let seq := (s.core core).recSeq + 1
    let k := recordKey core (32 * i)
    let s1 := ((s.writeWord (k + 8) pc).writeWord (k + 16) addr).writeWord (k + 24) data
    let s2 := (s1.writeWord k (recordHeader slot cause kind need false size seq)).setFull k true
    let s3 := (s2.modCore core fun c => { c with recSeq := seq, recNew := c.recNew ++ [i] }).record (dieOf core) 1 core (s.recorded ⟨core, slot⟩ [pc, addr])
    some (if cause = 16 then s3.eccEvent core else s3)

/-- The valid records of a slot: index and header. DEDUCED: log 18. -/
def State.recordsOf (s : State) (t : ThreadRef) : List (Nat × Word) :=
  (List.range 8).filterMap fun i =>
    let k := recordKey t.core (32 * i)
    let h := s.readWord k
    if s.full k && wbits h 2 0 == t.slot then some (i, h) else none

/-- A store fault waits for delivery to the thread (R206); a record counts from the rotation after it is written (R212). -/
def State.storeFaultPending (s : State) (t : ThreadRef) : Bool := (s.recordsOf t).any fun r => !wbit r.2 19 && !(s.core t.core).recNew.contains r.1

/-- A record that no thread's RECORD area takes goes straight to the context's fault queue: its SEQ is the core's next, and the
flight recorder takes it as it does any other (R207, R333, R348). -/
def State.queueRecord (s : State) (core slot ctx cause kind : Nat) (need deliv : Bool) (size : Nat) (pc addr data : Word) : State :=
  let seq := (s.core core).recSeq + 1
  let s1 := (s.modCore core fun c => { c with recSeq := seq }).record (dieOf core) 1 core (s.recordedOf ctx [pc, addr])
  s1.faultQueue ⟨ctx, core, slot, [recordHeader slot cause kind need deliv size seq, pc, addr, data]⟩

/-- A record of an engine command (KIND 2) for its issuing thread: in the RECORD area, or, once that thread has ended, in
the context's fault queue (R207). SIZE is 3 but for an XFER, whose ESIZE it is (R205). None while no record is free. DEDUCED:
log 17. -/
def State.engineRecord (s : State) (core slot ctx : Nat) (ended : Bool) (cause : Nat) (need : Bool) (pc addr data : Word)
    (size : Nat := 3) : Option State :=
  if ended then
    some ((if cause = 16 then s.eccEvent core else s).queueRecord core slot ctx cause 2 need false size pc addr data)
  else s.writeRecord core slot cause 2 need size pc addr data

/-- A copy whose thread, in this slot, has ended. -/
def Copy.disown (slot : Nat) (c : Copy) : Copy := { c with ended := c.ended || c.slot == slot }
/-- A command whose thread, of this identity in this slot, has ended. -/
def MxCmd.disown (slot : Nat) (who : List Nat) (c : MxCmd) : MxCmd :=
  { c with ended := c.ended || (c.slot == slot && c.ident == who) }

/-- A granted command whose thread has ended. -/
def Stepping.disown (t : ThreadRef) (who : List Nat) (x : Stepping) : Stepping :=
  if x.core = t.core then { x with cmd := x.cmd.disown t.slot who } else x

/-- The copies and array commands of a thread that ends go on without it (R124). -/
def State.disown (s : State) (t : ThreadRef) (th : Thread) : State :=
  let s1 := s.modCore t.core fun c =>
    { c with copies := c.copies.map (Copy.disown t.slot), mxQueue := c.mxQueue.map (MxCmd.disown t.slot th.ident) }
  s1.modCluster (clusterOf t.core) fun c =>
    { c with stepping := c.stepping.map (Stepping.disown t th.ident), finishing := c.finishing.map (Stepping.disown t th.ident) }

/-- A record's header emptied in this rotation is not yet free (R212). -/
def State.noteFreed (s : State) (key : Nat) : State :=
  if isRecord key ∧ key % 32 < 8 then
    s.modCore (key / 2 ^ 8 % 2 ^ 16) fun c => { c with recFreed := c.recFreed ++ [key % 256 / 32] }
  else s

/-- Every record of a thread that halts is moved to the context's fault queue and freed (R207, R212). DEDUCED: log 18. -/
def State.moveRecords (s : State) (t : ThreadRef) (ctx : Nat) : State :=
  (s.recordsOf t).foldl (fun a r =>
    let k := recordKey t.core (32 * r.1)
    let ws := [r.2, a.readWord (k + 8), a.readWord (k + 16), a.readWord (k + 24)]
    ((a.faultQueue ⟨ctx, t.core, t.slot, ws⟩).setFull k false).noteFreed k) s

/-! ## Halting a thread (R78, R124, R173, R237, R385) -/

/-- A member leaves the squad of its channel: it is no longer named by the publication. -/
def State.unsubscribe (s : State) (t : ThreadRef) (th : Thread) : State :=
  match (s.context? th.ctx).bind fun c => c.physical? th.sqCh with
  | some n => s.modCore n fun c => { c with pub := c.pub.map fun p => { p with members := p.members.filter fun m => m != t } }
  | none => s

/-- The thread waits at a JOIN, which has already taken it out of its away count (R170). -/
def Thread.joining (th : Thread) : Bool := match th.wait with | some ⟨.join _, _, _⟩ => true | _ => false

/-- An away count of the channel a thread left changed, whichever publication the channel holds (R172), while its context still holds the
core (R187). -/
def State.modAway (s : State) (th : Thread) (id : Nat) (f : Nat → Nat) : State :=
  match (s.context? th.ctx).bind fun c => c.physical? th.sqCh with
  | none => s
  | some n =>
    if s.heldBy n th.ctx then s.modCore n fun c => { c with away := c.away.setIfInBounds id (f ((c.away[id]?).getD 0)) } else s

/-- The away count of a thread away under a non-zero rendezvous id falls by one (R172). -/
def State.uncount (s : State) (th : Thread) : State :=
  if th.sq = .away ∧ th.sqRdv ≠ 0 ∧ !th.joining then s.modAway th th.sqRdv (· - 1) else s

/-- The publication of a core ends without ENDPUB (R178): its channel is closed, and its members leave at the resume PC once
they have executed what was published. -/
def State.endPublication (s : State) (n : Nat) (resume : Word) : State :=
  match (s.core n).pub with
  | none => s
  | some b => b.members.foldl (fun a m => a.modThread m fun x => { x with endAt := some (pcOf resume) })
      (s.modCore n fun c => { c with pub := none })

/-- A request of a halted thread: a result it would bring is discarded and a parked one is withdrawn; a store, FE.CLR or
reduction is performed as if the thread ran (R385). -/
def Flight.abandon (f : Flight) (t : ThreadRef) : Flight :=
  match f.kind with
  | .stS | .feClr | .red _ => f
  | _ => if f.thread = t ∧ f.detached = none then { f with orphan := true, withdrawal := true } else f

/-- A thread halts other than by HALT (R78, R173, R385): outstanding results are discarded, windows closed, parked
requests withdrawn without a trap, the records it owns moved to the fault queue; its store queue drains later and its
state is kept. A drain handler's end is seen by the drain (R237). -/
def State.haltThread (s : State) (t : ThreadRef) : State :=
  match s.thread? t with
  | none => s
  | some th =>
    let s1 := if th.sq = .publishing then s.endPublication t.core (if th.mode = .trap then th.trapPc else th.pc) else s
    let s2 := (((s1.unsubscribe t th).uncount th).moveRecords t th.ctx).disown t th
    let s3 := { s2 with flights := s2.flights.map (Flight.abandon · t) }
    s3.modThread t fun th => { th with
      halted := true, outs := [], wait := none, trapPend := none, subBuf := [], subDue := 0, killAt := none, endAt := none }

/-! ## Traps (R26, R76-R79, R176, R177) -/

/-- Taking a trap: the trap registers are written, the mode becomes trap and the PC the vector (R76). A trap taken in
trap mode halts the thread instead, with a record of the second cause in the fault queue (R78, R333, R348). A subscribed
member leaves its squad (R164, R176). An uncorrectable error is reported on the die. -/
def State.enterTrap (s0 : State) (t : ThreadRef) (c : Cause) (addr info pc : Word) : State :=
  let s := if c = .eccUncorrectable then s0.eccEvent t.core else s0
  match s.thread? t with
  | none => s
  | some th =>
    if th.mode = .trap then
      ((s.haltThread t).record (dieOf t.core) 0 t.core (s.recorded t [th.pc])).queueRecord t.core t.slot th.ctx c.code 3 false true 0
        pc addr info
    else
      let member := th.sq = .subscribed || th.sq = .held
      let s1 := if member then s.unsubscribe t th else s
      let th1 := { th with
        trapCause := BitVec.ofNat 8 c.code, trapCtl := th.mode == .control, trapPc := pc, trapAddr := addr, trapInfo := info,
        mode := .trap, pc := pcOf (th.trapVec + ofN (64 * c.code)), wait := none, trapPend := none, outs := [], fetched := none,
        busy := 0,
        sq := if member then .trapped else th.sq,
        sqLeftpc := if member then pc else th.sqLeftpc,
        subBuf := if member then [] else th.subBuf,
        subDue := if member then 0 else th.subDue
        endAt := none }
      ((s1.setThread t th1).traceEvent 2 th.ctx t.core t.slot pc (ofN c.code))

/-- A result that has faulted. -/
def OutValue.isFault : OutValue → Bool
  | .fault .. => true
  | _ => false

/-- Whether every outstanding result of a thread has been written (R26). -/
def Thread.settled (th : Thread) : Bool := th.outs.all fun o => o.value == .written

/-- A trap is raised at an instruction, and takes its rotation (R213): the thread waits until every outstanding result has
been written or has faulted, then enters (R26). In trap mode it halts at once, and what is outstanding is discarded (R78). -/
def State.raise (s : State) (t : ThreadRef) (c : Cause) (addr info pc : Word) : State :=
  match s.thread? t with
  | none => s
  | some th =>
    let s1 := s.setThread t { th with issued := true, wait := none }
    if th.settled ∨ th.mode = .trap then s1.enterTrap t c addr info pc
    else s1.setThread t { th with issued := true, wait := some ⟨.trapEntry, s.beat, 0⟩, trapPend := some ⟨c, addr, info, pc⟩ }

/-- Whether every outstanding result of a thread has been written or has faulted (R26, R257). -/
def Thread.resolved (th : Thread) : Bool :=
  th.outs.all fun o => match o.value with | .written => true | .fault _ _ _ => true | _ => false

/-- A wait of an instruction that has issued and is not over. In every other wait the instruction at the PC has not
issued, or, departing, has had no effect yet (R26). -/
def WaitKind.engaged : WaitKind → Bool
  | .work _ | .fill _ | .pub _ | .sub _ | .join _ | .rdv _ | .chSync | .sqkill .. | .send .. | .bar .. | .barSync _ | .launch .. =>
    true
  | .depart ..  | .result | .fetch _ | .miss _ | .port | .room | .older | .batch | .sleep | .windows | .trapEntry => false

/-- A thread waits at an instruction that has issued. -/
def Thread.engaged (th : Thread) : Bool := match th.wait with
  | some w => w.kind.engaged
  | none => false

/-- Words a publisher has sent are executed by its members (R161). -/
def Thread.member (th : Thread) : Bool := th.sq == .subscribed || th.sq == .held

/-- The address of the instruction the thread issues next: the channel PC for a member (R161). -/
def Thread.ipc (th : Thread) : Word :=
  if th.member then (match th.subBuf with | e :: _ => e.pc | [] => th.pc) else th.pc

/-- The oldest outstanding result that has faulted, with its cause, address and information (R25). -/
def firstFault : List Out → Option (Out × Cause × Word × Word)
  | [] => none
  | o :: r => match o.value with
    | .fault c addr info => some (o, c, addr, info)
    | _ => firstFault r

/-- A trap stands in place of the thread's next instruction: a result has faulted, or a trap waits, every other result has
been written or has faulted (R25, R26), or is discarded in trap mode (R78), and no instruction that has issued waits any more. A member reports a fault
window-late in place of the next channel instruction due to it (R27). DEDUCED: log 6. -/
def Thread.trapDue (th : Thread) : Bool :=
  !th.engaged && (th.resolved || th.mode == .trap) && (th.trapPend.isSome || (match firstFault th.outs with
    | some (o, _) => o.issued == 0 || !th.member || decide (0 < th.subDue)
    | none => false))

/-- trap.info of a fault that arrives when o.issued window instructions have issued (R25): bits [58:56] keep the tier of an
uncorrectable error (R77). -/
def lateInfo (o : Out) (info : Word) : Word :=
  (info &&& ofN (7 * 2 ^ 56)) ||| ofN (2 ^ 63 + o.issued % 16 * 2 ^ 59 + o.pc.toNat % 2 ^ 56)

/-- The trap that stands in place of the thread's next instruction is taken (R25, R26, R213): of the oldest faulted result,
precisely at its instruction when no window instruction has issued and otherwise window-late, else the one that waits. The
trap occupies the rotation, like the one in which a trap that had to wait was raised. DEDUCED: log 6. Where a GO or a home-execute access waits
to depart, its own address is the PC saved, and it counts among the instructions issued in the window (DESIGN CHOICE, log 71). -/
def State.settle (s : State) (t : ThreadRef) : State :=
  match s.thread? t with
  | none => s
  | some th =>
    if th.trapDue then
      let s1 := s.setThread t { th with issued := true }
      match firstFault th.outs, th.trapPend with
      | some (o, c, addr, info), p =>
        if o.issued = 0 then s1.enterTrap t c addr info o.pc
        else s1.enterTrap t c addr (lateInfo o info) (match p with | some p => p.pc | none => th.ipc)
      | none, some p => s1.enterTrap t p.cause p.addr p.info p.pc
      | none, none => s
    else s

/-- STORE_FAULT is raised at an instruction (R206): every record of the thread that counts by now (R212) is marked
delivered, trap.addr is the RECORD address of the one with the lowest SEQ, and trap.info their number. -/
def State.deliverStoreFault (s : State) (t : ThreadRef) (pc : Word) : State :=
  let rs := (s.recordsOf t).filter fun r => !(s.core t.core).recNew.contains r.1
  let first := rs.foldl (fun (best : Option (Nat × Word)) r => match best with
    | none => some r
    | some b => if wbits r.2 63 32 < wbits b.2 63 32 then some r else some b) none
  let s1 := rs.foldl (fun a r => a.writeWord (recordKey t.core (32 * r.1)) (r.2 ||| ofN (2 ^ 19))) s
  s1.raise t .storeFault (ofN (0xFFFFFFFFFFFBFF00 + 32 * (first.map Prod.fst).getD 0)) (ofN (rs.length % 16)) pc

/-- Returning from a trap (R79, R123): PC := trap.pc with bits [1:0] zero, the mode to control when the trap was taken
from it and otherwise run; a trapped member is away under id 0 from then on (R164). A target that fails the check of
R117 traps in the mode returned to, after the waits of R26. -/
def State.returnTrap (s : State) (t : ThreadRef) (th : Thread) : State :=
  let target := th.trapPc &&& ~~~(3#64)
  let mode := if th.trapCtl then Mode.control else Mode.run
  let sq := if th.sq = .trapped then SqState.away else th.sq
  let s1 := s.setThread t { th with pc := pcOf target, mode := mode, sq := sq, sqRdv := if th.sq = .trapped then 0 else th.sqRdv, fetched := none, issued := true }
  if canonical target then s1 else s1.raise t .access target 0 target

end Sys2Proof.Machine
end

