-- ==== Sys2Proof/Machine/Issue.lean ====
section
/-! DEFINITION. What every instruction does around its own effect: the order of checks (R39), predicates (R16), lookahead
windows (R21-R27), ports (R64), publication (R160), and retirement (R103). -/

namespace Sys2Proof.Machine

/-- What the encoding of an instruction says of it apart from its effect. -/
structure Meta where
  /-- scalar registers read, through fields or implicitly -/
  rd : List Nat
  /-- scalar registers written -/
  wr : List Nat
  /-- vector registers named -/
  vs : List Nat
  /-- rotations occupied (R103, R130) -/
  occ : Nat
  /-- a vector or flag-operation major: the predicate is a lane mask (R16, R17) -/
  masked : Bool
  /-- TLBW, SLEEP, special registers 0x4000-0x7FFF: control privilege (R67, R68) -/
  priv : Bool
  /-- k0-k3: trap mode alone (R68) -/
  trapOnly : Bool
  /-- has a register destination with a lookahead window (R21) -/
  window : Bool
  /-- executed privately, never published (R160) -/
  quiet : Bool
  /-- raises ILL on a masthead core (R375) -/
  notMast : Bool
  /-- HALT and GO: a member whose own predicate fails leaves the squad (R124, R164) -/
  leaveOff : Bool
  /-- ERET: ILL outside trap mode (R31) -/
  inTrap : Bool
  /-- BTAG: s30 in a field neither waits nor pops by itself (R181) -/
  noPort : Bool
  deriving DecidableEq, Repr

/-- An instruction that names no register and occupies one rotation. -/
def Meta.plain : Meta := ⟨[], [], [], 1, false, false, false, false, false, false, false, false, false⟩

/-- An instruction that reads and writes scalar registers. -/
def Meta.scalar (rd wr : List Nat) : Meta := { Meta.plain with rd := rd, wr := wr }

/-- What a body answers. -/
inductive Res where
  /-- executed; the thread goes on at the next instruction -/
  | done (s : State)
  /-- a control transfer to this target (R117) -/
  | jump (s : State) (target : Word)
  /-- executed; the body has set the PC and the wait itself -/
  | stay (s : State)
  /-- issued, and waits at this instruction, within a budget, until an event completes it -/
  | block (k : WaitKind) (budget : Word) (s : State)
  /-- begun and not over: the state as it stands, in which the thread waits before the instruction -/
  | hold (s : State)
  /-- not issued: the thread waits before it -/
  | wait (k : WaitKind)
  /-- not issued: the thread waits for the translation of this address, wanted for this kind of access (R280) -/
  | miss (va : Word) (kind : Nat)
  /-- raises a trap -/
  | trap (c : Cause) (addr info : Word)
  deriving DecidableEq, Repr

/-- A window whose instructions have all issued while its result has not been written (R23), or a result that has
faulted (R25). -/
def Thread.expired (th : Thread) : Bool :=
  th.outs.any fun o => (o.left == 0 && o.value != .written) || (match o.value with | .fault .. => true | _ => false)

/-- Outstanding register results (R23). -/
def Thread.outstanding (th : Thread) : Nat := (th.outs.filter fun o => o.value != .written).length

/-- The class number of R77. -/
def RegClass.code : RegClass → Nat
  | .s => 0 | .v => 1 | .f => 2

/-- The destination of an open window that the instruction names (R22). -/
def Thread.hazard (th : Thread) (m : Meta) : Option Out :=
  th.outs.find? fun o => 0 < o.left && (match o.cls with
    | .s => m.rd.contains o.reg || m.wr.contains o.reg
    | .v => m.vs.contains o.reg
    | .f => false)

/-- One more instruction has issued: windows run on, and a result that is written is forgotten when its window ends. -/
def tickOuts (outs : List Out) : List Out :=
  (outs.map fun o => { o with left := o.left - 1, issued := o.issued + 1 }).filter fun o =>
    !(o.left == 0 && o.value == .written)

/-- Results bound for s31 that will be pushed when they are written (R64). -/
def Thread.bound31 (th : Thread) : Nat :=
  (th.outs.filter fun o => o.cls == .s && o.reg == 31 && o.value != .written).length

/-- What stands before the effect of an instruction. -/
inductive Gate where
  | noThread
  | wait (k : WaitKind)
  | trap (c : Cause) (info : Word)
  /-- the predicate fails: the instruction issues without effect -/
  | skip
  | go
  deriving DecidableEq, Repr

/-- The checks of R39 and the waits before issue, in order: a wait for an expired window (R23), ILL in this mode or on
this core, PRIV, LA_HAZARD, the predicate (R16), a fifth outstanding result (R23), the port queues (R64). -/
def gate (m : Meta) (p : Pred) (s : State) (t : ThreadRef) (th : Thread) : Gate :=
  if !th.live then .noThread
  else if th.expired then .wait .result
  else if (m.notMast && roleOf t.core == .masthead) || (m.inTrap && th.mode != .trap) then .trap .ill (ofN s.ir.toNat)
  else if (m.priv && !th.privileged) || (m.trapOnly && th.mode != .trap) then .trap .priv (ofN s.ir.toNat)
  else match th.hazard m with
    | some o => .trap .laHazard (ofN (o.reg + 32 * o.cls.code))
    | none =>
      if !m.masked && !predHolds p th then .skip
      else if m.window && 4 ≤ th.outstanding then .wait .result
      else if m.rd.contains 30 && !m.noPort && th.inEn
          && (match th.inq with | w :: _ => decide (s.beat < w.avail) | [] => true) then .wait .port
      else if m.wr.contains 31 && th.outEn && 8 ≤ th.outq.length + th.bound31 then .wait .port
      else .go

/-- A published instruction reaches the buffer of every member, and a new subscriber may still need it (R162, R167). -/
def State.publish (s : State) (t : ThreadRef) (th : Thread) (pc : Word) : State :=
  if th.sq = .publishing ∧ th.mode = .run then
    match (s.core t.core).pub with
    | none => s
    | some b =>
      let e : ChanEntry := ⟨s.ir, pc, s.beat, false⟩
      let s1 := s.modCore t.core fun c => { c with
        pub := some { b with recent := (b.recent.filter fun x => decide (s.beat ≤ x.rot + 12)) ++ [e] } }
      (b.members.filter (· != t)).foldl (fun a m => a.modThread m fun x => { x with subBuf := x.subBuf ++ [e] }) s1
  else s

/-- The thread as an instruction begins: a member takes its word from the buffer and its PC is the channel PC (R161);
windows run; the slot has issued in this rotation and is busy for the rest of the instruction's rotations (R103). -/
def Thread.begin_ (th : Thread) (occ : Nat) : Thread :=
  { th with
    pc := th.ipc
    subBuf := if th.member then th.subBuf.tail else th.subBuf
    subDue := if th.member then th.subDue - 1 else th.subDue
    outs := tickOuts th.outs
    busy := occ - 1
    issued := true
    wait := none
    fetched := none }

/-- The instruction pushes a word to its thread's outbound port (R64). One with a window pushes when its result is written. -/
def Thread.pushes (th : Thread) (m : Meta) : Bool := m.wr.contains 31 && !m.window && th.outEn

/-- The state as an instruction begins: the thread as above, the word published unless it is private (R160), and band.OUT 1
where it pushes a port word in a region (R308). -/
def State.begin_ (s : State) (t : ThreadRef) (th : Thread) (m : Meta) : State :=
  let s1 := s.setThread t (th.begin_ m.occ)
  let s2 := if m.quiet then s1 else s1.publish t th th.ipc
  if th.pushes m then s2.effectOut th else s2

/-- The word popped through s30 leaves the inbound queue, and its tag goes to ITAG (R64). -/
def Thread.pop (th : Thread) (m : Meta) (was : Thread) : Thread :=
  if m.rd.contains 30 && !m.noPort && was.inEn then
    match th.inq with
    | w :: r => { th with inq := r, portTag := setBits th.portTag 7 0 w.tag.toNat }
    | [] => th
  else th

/-- The thread waits: the rotation from which it waits is kept while it waits for the same thing. -/
def State.await (s : State) (t : ThreadRef) (k : WaitKind) : State :=
  s.modThread t fun th => { th with wait := match th.wait with
    | some w => if w.kind = k then some w else some ⟨k, s.beat, 0⟩
    | none => some ⟨k, s.beat, 0⟩ }

/-- A member leaves its squad and fetches at a (R164). -/
def State.leaveSquad (s : State) (t : ThreadRef) (leftpc a : Word) : State :=
  match s.thread? t with
  | none => s
  | some th =>
    (s.unsubscribe t th).modThread t fun x => { x with
      sq := .fetching, sqRdv := 0, sqDepth := 0, sqLeftpc := leftpc, pc := a, subBuf := [], subDue := 0, endAt := none }

/-- A miss with one waiter more. -/
def Miss.join (w : Waiter) (m : Miss) : Miss :=
  { m with waiters := if m.waiters.contains w then m.waiters else m.waiters ++ [w] }

/-- A failed miss without this waiter. -/
def Miss.leave (w : Waiter) (m : Miss) : Miss :=
  if m.failed.isSome then { m with waiters := m.waiters.erase w } else m

/-- A translation miss is joined, or opened with this thread as the first requester (R279); when all 64 of the unit are
in use the thread only waits. -/
def State.joinMiss (s : State) (u ctx : Nat) (va : Word) (kind : Nat) (first : ThreadRef) (w : Waiter) : State :=
  let vpn := wbits va 55 16
  let unit := s.unit u
  if unit.misses.any fun m => m.failed.isNone && m.ctx == ctx && m.vpn == vpn then
    s.modUnit u fun x => { x with misses := modFirst (fun m => m.failed.isNone && m.ctx == ctx && m.vpn == vpn) (Miss.join w) x.misses }
  else if 64 ≤ (unit.misses.filter fun m => m.failed.isNone).length then s
  else s.modUnit u fun x => { x with misses := x.misses ++ [⟨ctx, vpn, kind, va, first, false, [w], none⟩] }

/-- A transfer's target, checked before anything is written: a target that is not canonical raises ACCESS (R117). A
member makes no transfer (R118). -/
def State.transfer (s : State) (t : ThreadRef) (th : Thread) (target : Word) : State :=
  if th.member then s.modThread t fun x => { x with pc := nextPc x.pc } else s.modThread t fun x => { x with pc := target }

/-- A thread that traps has met every failure of a miss it waited on (R282). -/
def State.forgetFailures (s : State) (t : ThreadRef) : State :=
  if (s.unit (unitOf t.core)).misses.any fun m => m.failed.isSome && m.waiters.contains (.thread t) then
    s.modUnit (unitOf t.core) fun u =>
      { u with misses := (u.misses.map (Miss.leave (.thread t))).filter fun m => m.failed.isNone || !m.waiters.isEmpty }
  else s

/-- The answer of a body made a next state of the machine. s is the state before, s1 the state in which the body ran. -/
def finish (m : Meta) (s : State) (t : ThreadRef) (th : Thread) (r : Res) : State :=
  match r with
  | .done s2 => s2.modThread t fun x => { x.pop m th with pc := nextPc x.pc }
  | .jump s2 target => (s2.modThread t fun x => x.pop m th).transfer t th target
  | .stay s2 => s2.modThread t fun x => x.pop m th
  | .block k b s2 => s2.modThread t fun x => { x.pop m th with wait := some ⟨k, s.beat, b⟩ }
  | .hold s2 => s2
  | .wait k => s.await t k
  | .miss va kind => (s.joinMiss (unitOf t.core) th.ctx va kind t (.thread t)).await t (.miss va)
  | .trap c addr info => (s.forgetFailures t).raise t c addr info th.ipc

/-- An instruction issues: the gate, then its body on the begun state, then its end. -/
def issue (m : Meta) (p : Pred) (s : State) (body : State → Thread → Res) : Host.Outcome State Fault Refusal :=
  match s.thread? s.cur with
  | none => .fault .noThread
  | some th =>
    match gate m p s s.cur th with
    | .noThread => .fault .noThread
    | .wait k => .next (s.await s.cur k)
    | .trap c info => .next (s.raise s.cur c 0 info th.ipc)
    | .skip =>
      let s1 := s.begin_ s.cur th { m with wr := [] }
      if m.leaveOff && th.member then .next (s1.leaveSquad s.cur th.ipc (nextPc th.ipc))
      else .next (s1.modThread s.cur fun x => { x with pc := nextPc x.pc })
    | .go => .next (finish m s s.cur th (body (s.begin_ s.cur th m) (th.begin_ m.occ)))

/-- An instruction whose whole effect is on its own thread. -/
def issueLocal (m : Meta) (p : Pred) (s : State) (f : Thread → Thread) : Host.Outcome State Fault Refusal :=
  issue m p s fun s1 th => .done (s1.setThread s1.cur (f th))

end Sys2Proof.Machine
end

