-- ==== Sys2Proof/Machine/Translate.lean ====
section
/-! DEFINITION. From a virtual address to the word it names: windows (R188), grants (R189), translation (R190, R278),
fabric windows (R365, R366), the order of checks (R192), home-execute pages (R288, R291), confidential frames (R338). -/

namespace Sys2Proof.Machine

/-- The window of a virtual address (R188). -/
inductive Win where
  | global
  | fabric
  | core (c off : Nat)
  | record (off : Nat)
  | local_ (off : Nat)
  | none
  deriving DecidableEq, Repr

/-- The window of an address (R188). -/
def windowOf (a : Word) : Win :=
  let n := a.toNat
  if n < 2 ^ 55 then .global
  else if 0xFF80000000000000 ≤ n ∧ n ≤ 0xFFBFFFFFFFFFFFFF then .fabric
  else if 0xFFFE000000000000 ≤ n ∧ n ≤ 0xFFFE00017FFFFFFF then .core (n / 2 ^ 18 % 2 ^ 15) (n % 2 ^ 18)
  else if 0xFFFFFFFFFFFBFF00 ≤ n ∧ n ≤ 0xFFFFFFFFFFFBFFFF then .record (n % 256)
  else if 0xFFFFFFFFFFFC0000 ≤ n then .local_ (n % 2 ^ 18)
  else .none

/-- A permission of a page (R192, R281). -/
inductive Perm where
  | none | rd | wr | ex
  deriving DecidableEq, Repr

/-- What a form asks of an address (R192): its size, the bits of trap.info (R77, R386), the permission it needs, the
KIND of its miss message (R280), and whether it may name the RECORD window (R192) and the FABRIC window (R367). -/
structure Acc where
  size : Nat
  wr : Bool
  fe : Bool
  engine : Bool
  perm : Perm
  kind : Nat
  record : Bool
  fabric : Bool
  deriving DecidableEq, Repr

/-- trap.info of an access (R77, R386). -/
def Acc.info (a : Acc) : Word := ofN (b2n a.wr + 2 * b2n a.fe + 4 * b2n a.engine)

/-- A plain load of n bytes. -/
def accLoad (n : Nat) : Acc := ⟨n, false, false, false, .rd, 0, true, true⟩
/-- A plain store of n bytes. -/
def accStore (n : Nat) : Acc := ⟨n, true, false, false, .wr, 1, false, true⟩
/-- LD.W and FE.PROBE. -/
def accFeRead : Acc := ⟨8, false, true, false, .rd, 3, true, true⟩
/-- LD.T and FE.CLR. -/
def accFeTake : Acc := ⟨8, true, true, false, .wr, 3, true, true⟩
/-- ST.F, ST.S, atomics and reductions. -/
def accFeWrite : Acc := ⟨8, true, true, false, .wr, 3, false, true⟩
/-- TICKET and BQ.POP. -/
def accClaim : Acc := ⟨8, true, true, false, .wr, 3, false, false⟩
/-- A vector load lane. -/
def accVLoad : Acc := ⟨4, false, false, false, .rd, 0, false, false⟩
/-- A vector store lane. -/
def accVStore : Acc := ⟨4, true, false, false, .wr, 1, false, false⟩
/-- An engine's read of a word. -/
def accEngineRead : Acc := ⟨8, false, false, true, .rd, 0, false, false⟩
/-- An engine's plain write of a word. -/
def accEngineWrite : Acc := ⟨8, true, false, true, .wr, 1, false, false⟩
/-- An engine's access that reads or writes the bit. -/
def accEngineFe (wr : Bool) : Acc := ⟨8, wr, true, true, if wr then .wr else .rd, 3, false, false⟩
/-- An instruction fetch (R117). -/
def accFetch : Acc := ⟨4, false, false, false, .ex, 2, false, false⟩
/-- GO (R293). -/
def accGo : Acc := ⟨1, false, false, false, .none, 0, false, false⟩

/-- A fabric window as an access finds it (R365). -/
structure FabWin where
  port : Nat
  alt : Option Nat
  pkg : Nat
  rctx : Nat
  addr : Word
  tmo : Nat
  deriving DecidableEq, Repr

/-- The key of a remote word: its package, context and address there, whichever window names it (R364, R366). -/
def FabWin.key (w : FabWin) : Nat := (2 ^ 40 + w.pkg * 2 ^ 12 + w.rctx) * 2 ^ 64 + w.addr.toNat

/-- Where an access goes. -/
inductive Xl where
  /-- to this word, by way of this entry if it was translated -/
  | ok (key : Nat) (e : Option TlbEntry)
  /-- to a record of another slot, which reads as zero (R205) -/
  | zero
  /-- to a remote package -/
  | remote (w : FabWin)
  | fault (c : Cause) (info : Word)
  /-- a translation is wanted -/
  | miss
  deriving DecidableEq, Repr

/-! ## Translation (R278, R281) -/

/-- Bytes of a page size code (R281). -/
def pageBytes (size : Nat) : Nat := match size with | 0 => 2 ^ 16 | 1 => 2 ^ 22 | _ => 2 ^ 30

/-- The entry covers a virtual address of its context. -/
def TlbEntry.covers (e : TlbEntry) (ctx : Nat) (va : Nat) : Bool :=
  e.ctx == ctx && va / pageBytes e.size == e.vpn * 2 ^ 16 / pageBytes e.size

/-- The physical key of an address under the entry (R276). -/
def TlbEntry.keyOf (e : TlbEntry) (va : Nat) : Nat := e.tier * 2 ^ 52 + e.frame * 2 ^ 16 + va % pageBytes e.size

/-- Whether the entry grants a permission. DEDUCED: log 25. -/
def TlbEntry.grants (e : TlbEntry) (p : Perm) : Bool :=
  match p with
  | .none => true | .rd => e.rd | .wr => e.wr | .ex => e.ex

/-- The entry for an address: the core's micro-TLB, then the unit's second level (R278). -/
def State.findEntry (s : State) (core ctx va : Nat) : Option TlbEntry :=
  match (s.core core).utlb.find? fun e => e.covers ctx va with
  | some e => some e
  | none => (s.unit (unitOf core)).tlb.find? fun e => e.covers ctx va

/-- A hit refills the micro-TLB, which holds 32 entries; the oldest beyond them is dropped (R278; DESIGN CHOICE, log 66). -/
def State.refill (s : State) (core : Nat) (e : Option TlbEntry) : State :=
  match e with
  | none => s
  | some e =>
    if (s.core core).utlb.contains e then s
    else s.modCore core fun c => { c with utlb := e :: c.utlb.take 31 }

/-- The cause with which OP 2 has failed a miss this waiter waits on (R282). -/
def State.failedMiss (s : State) (core ctx : Nat) (va : Word) (w : Waiter) : Option Cause :=
  ((s.unit (unitOf core)).misses.find? fun m =>
    m.failed.isSome && m.ctx == ctx && m.vpn == wbits va 55 16 && m.waiters.contains w).bind Miss.failed

/-- A waiter other than a thread has met the failure of its miss, which goes once every waiter has. -/
def State.meetFailure (s : State) (core : Nat) (w : Waiter) : State :=
  s.modUnit (unitOf core) fun u =>
    { u with misses := (u.misses.map (Miss.leave w)).filter fun m => m.failed.isNone || !m.waiters.isEmpty }

/-! ## Grants (R189) -/

/-- The grant of the context on a core that holds an offset. -/
def State.grantAt? (s : State) (core off ctx : Nat) : Option Grant :=
  (s.core core).grants.find? fun g => g.band.ctx == ctx && decide (g.base ≤ off) && decide (off < g.base + g.size)

/-- A scratchpad offset the thread may reach on a core: one that a band of its context holds there (R189). The firmware
threads of control cores reach the whole of their own scratchpad (DEDUCED, log 7). -/
def State.scratchOk (s : State) (own core off ctx : Nat) (th : Thread) : Bool :=
  (s.grantAt? core off ctx).isSome || (core == own && th.privileged)

/-! ## Fabric windows (R365, R366) -/

/-- A word of a context's fabric window table. A context whose FWIN is 0, its reset value, has none (DESIGN CHOICE, log 45). -/
def State.fwinWord (s : State) (c : Context) (off : Nat) : Word := if c.fwin = 0 then 0 else s.readWord (c.fwin + off)

/-- The window a FABRIC address selects, checked for a permission bit of its word 0 (R366). -/
def State.fabWindow? (s : State) (ctx : Nat) (a : Word) (permBit : Nat) : Option FabWin :=
  match s.context? ctx with
  | none => none
  | some c =>
    let w := wbits a 53 48
    let o := wbits a 47 0
    let nwin := wbits (s.fwinWord c 0) 6 0
    let w0 := s.fwinWord c (64 + 32 * w)
    let size := (s.fwinWord c (64 + 32 * w + 16)).toNat
    let tmo := wbits (s.fwinWord c (64 + 32 * w + 24)) 31 0
    if w < nwin ∧ wbit w0 0 ∧ o < size ∧ wbit w0 permBit then
      some ⟨wbits w0 9 5, if wbit w0 15 then some (wbits w0 14 10) else none, wbits w0 31 16, wbits w0 43 32,
        s.fwinWord c (64 + 32 * w + 8) + ofN o, if tmo = 0 then 2 ^ 22 else tmo⟩
    else none

/-- The permission bit of window word 0 a form needs (R365). -/
def Acc.fabBit (a : Acc) : Nat := if a.fe then 3 else if a.wr then 2 else 1

/-! ## The order of checks (R192) -/

/-- The word of a RECORD area whose header names another slot (R205). -/
def State.foreignRecord (s : State) (key slot : Nat) : Bool :=
  isRecord key && wbits (s.readWord (key / 32 * 32)) 2 0 != slot

/-- An address resolved for a thread, steps 2 to 4 of R192. A record whose header names another slot reads as zero
(R205). -/
def State.resolve (s : State) (t : ThreadRef) (th : Thread) (va : Word) (a : Acc) (w : Waiter) : Xl :=
  match windowOf va with
  | .none => .fault .access a.info
  | .record off =>
    if th.mode = .trap ∧ a.record then
      if s.foreignRecord (recordKey t.core off) t.slot then .zero else .ok (recordKey t.core off) none
    else .fault .access a.info
  | .local_ off =>
    if s.scratchOk t.core t.core off th.ctx th then .ok (scratchKey t.core off) none else .fault .access a.info
  | .core c off =>
    match s.physical? th.ctx c with
    | none => .fault .access a.info
    | some n => if s.scratchOk t.core n off th.ctx th then .ok (scratchKey n off) none else .fault .access a.info
  | .fabric =>
    if a.fabric then
      match s.fabWindow? th.ctx va a.fabBit with
      | some f => .remote f
      | none => .fault .access a.info
    else .fault .access a.info
  | .global =>
    match s.findEntry t.core th.ctx va.toNat with
    | some e =>
      if !e.grants a.perm then .fault .access a.info
      else if e.tier = 2 ∧ a.fe then .fault .feUnsupported a.info
      else .ok (e.keyOf va.toNat) (some e)
    | none =>
      match s.failedMiss t.core th.ctx va w with
      | some c => .fault c a.info
      | none => .miss

/-- The key of an address of a thread, as the core's translation and its context's windows give it now, without checks: it says which
word the address names. -/
def State.keyOf? (s : State) (t : ThreadRef) (ctx : Nat) (va : Word) : Option Nat :=
  match windowOf va with
  | .local_ off => some (scratchKey t.core off)
  | .core c off => (s.physical? ctx c).map fun n => scratchKey n off
  | .global => (s.findEntry t.core ctx va.toNat).map fun e => e.keyOf va.toNat
  | .record off => some (recordKey t.core off)
  | .fabric => (s.fabWindow? ctx va 0).map FabWin.key
  | .none => none

/-! ## Migration targets (R287, R288, R291) -/

/-- The home die of a near key (R276). -/
def homeDie (key : Nat) : Nat := key / 2 ^ 35 % 64
/-- The core beside which a near frame lies (R276, R288). -/
def coreBeside (key : Nat) : Nat := homeDie key * 1024 + key / 2 ^ 16 % 16 * 64 + key / 2 ^ 20 % 64

/-- The band of the thread is being saved (R287). -/
def State.savingBand (s : State) (th : Thread) : Bool :=
  match s.band? th.bandRef with
  | some b => b.state == .saving || b.state == .saved
  | none => false

/-- A thread may migrate (R287). -/
def State.mayMigrate (s : State) (t : ThreadRef) (th : Thread) : Bool :=
  roleOf t.core == .compute && th.mode == .run && th.sq != .publishing && th.handler.isNone && !th.inEn && !th.outEn
    && !s.savingBand th

/-- A core the thread may migrate to: another one, in its context's table and held by it (R288). -/
def State.arrivalOk (s : State) (t : ThreadRef) (ctx n : Nat) : Bool :=
  n != t.core && ((s.context? ctx).bind fun c => c.logical? n).isSome && s.heldBy n ctx

/-- The arrival core of an address (R288), if there is one the thread may migrate to. -/
def State.arrival? (s : State) (t : ThreadRef) (th : Thread) (va : Word) (key : Nat) : Option Nat :=
  let n := match windowOf va with
    | .core c _ => s.physical? th.ctx c
    | .global => if tierOf key = 0 then some (coreBeside key) else none
    | _ => none
  match n with
  | some n => if s.mayMigrate t th && s.arrivalOk t th.ctx n then some n else none
  | none => none

/-- The core a home-execute access migrates to (R291): the page is home-execute and its home is another die. -/
def State.homeExec? (s : State) (t : ThreadRef) (th : Thread) (va : Word) (key : Nat) (e : Option TlbEntry) : Option Nat :=
  match e with
  | some e => if e.hx ∧ homeDie key ≠ dieOf t.core then s.arrival? t th va key else none
  | none => none

/-! ## Confidential frames (R338) -/

/-- The key slot is generated and confidential. -/
def State.keyConf (s : State) (slot : Nat) : Bool := s.keys.any fun k => k.1 == slot && k.2.1

/-- How an access of this thread passes the encryption of its frame (R336, R338): near and far memory are encrypted under the KEY
of the translation entry; in a frame of a confidential slot only a run-mode or trap-mode thread without control privilege, of
the context whose KEY names the slot, decrypts and encrypts. -/
def State.cipherFor (s : State) (th : Thread) (e : Option TlbEntry) : Keying :=
  match e with
  | none => .plain
  | some e =>
    let own := match s.context? th.ctx with | some c => c.key == e.key | none => false
    if 2 ≤ e.tier then .plain
    else if s.keyConf e.key && !(own && !th.privileged) then .sealed e.key
    else .under e.key

/-- Every unit of n bytes from key on was written under the key the slot holds now, or has not been written under any. -/
def State.keyFits (s : State) (slot key n : Nat) : Bool :=
  (unitsOf key n).all fun u => match lookup? s.unitKeys u with | none => true | some k => k == s.keyNow slot

/-- The 16-byte block of a byte, encrypted under a key (R336). -/
def State.cipherBlock (s : State) (k : Nat × Nat) (key : Nat) : List Byte :=
  (range (key / 16 * 16) 16).map fun a => Config.cipherByte k.1 k.2 a ((range (key / 16 * 16) 16).map s.readByte)

/-- A byte as decryption under a slot's key gives it: what was written, if that was written under the same key, and otherwise
the decryption of another key's ciphertext (R336). DESIGN CHOICE: log 37. -/
def State.byteUnder (s : State) (slot key : Nat) : Byte :=
  match lookup? s.unitKeys (key / 64) with
  | none => s.readByte key
  | some k =>
    let n := s.keyNow slot
    if k = n then s.readByte key else Config.decipherByte n.1 n.2 key (s.cipherBlock k key)

/-- A byte as it stands encrypted in memory. -/
def State.byteSealed (s : State) (slot key : Nat) : Byte :=
  let k := (lookup? s.unitKeys (key / 64)).getD (s.keyNow slot)
  Config.cipherByte k.1 k.2 key ((range (key / 16 * 16) 16).map s.readByte)

/-- n bytes as an access sees them: decrypted under its frame's key, or ciphertext where it may not decrypt (R336, R338). -/
def State.readAs (s : State) (cipher : Keying) (key n : Nat) : Nat :=
  match cipher with
  | .plain => s.readMem key n
  | .under slot =>
    if s.keyFits slot key n then s.readMem key n else ofLeBytes ((range key n).map (s.byteUnder slot))
  | .sealed slot => ofLeBytes ((range key n).map (s.byteSealed slot))

/-- A unit about to be written in part under a slot's key: the bytes that stay are decrypted and encrypted under it (R336). -/
def State.rekey (s : State) (slot u : Nat) : State :=
  let n := s.keyNow slot
  match lookup? s.unitKeys u with
  | none => { s with unitKeys := insertKey s.unitKeys u n }
  | some k =>
    if k = n then s
    else { s.writeBytes (64 * u) ((range (64 * u) 64).map (s.byteUnder slot)) with unitKeys := insertKey s.unitKeys u n }

/-- n bytes written under a frame's key, or discarded and logged where the access may not encrypt (R336, R338). -/
def State.writeAs (s : State) (cipher : Keying) (key n x : Nat) : State :=
  match cipher with
  | .plain => s.writeMem key n x
  | .under slot => ((unitsOf key n).foldl (fun a u => a.rekey slot u) s).writeMem key n x
  | .sealed _ => s.logAdmin [ofN 338, ofN key]

/-- A word of a confidential context: in a scratchpad it holds, or written under a confidential key. -/
def State.confWord (s : State) (key : Nat) : Bool :=
  if tierOf key = 3 then (List.range 8).any fun i => s.confSlot ⟨keyCore key, i⟩
  else match lookup? s.unitKeys (key / 64) with | some k => s.keyConf k.1 | none => false

/-- The word has an uncorrectable error (R350), or lies in near memory or a scratchpad of a fenced die (R351). DEDUCED: log 61. -/
def State.eccAt (s : State) (key : Nat) : Bool :=
  s.eccBad.contains (wordKey key) || (tierOf key == 0 && (s.die (homeDie key)).fenced)
    || (tierOf key == 3 && (s.die (dieOf (keyCore key))).fenced)

/-- The die that counts the corrected errors of a word: a near word's home, an I/O die for a far word, the core's die
(R334, R349). -/
def errDie (key : Nat) : Nat :=
  match tierOf key with
  | 0 => homeDie key | 1 => 24 + key / 2 ^ 40 % 4 | _ => dieOf (keyCore key)

/-- A single-bit error of a word is corrected, and counted (R277, R349). -/
def State.correct (s : State) (key : Nat) : State :=
  let w := wordKey key
  if s.eccSoft.contains w then
    ({ s with eccSoft := s.eccSoft.erase w }.modDie (errDie key) fun d => { d with errCorr := d.errCorr + 1 }).record
      (errDie key) 2 0 [if s.confWord w then 0 else ofN w]
  else s

/-- A unit of the package has read these words: single-bit errors are corrected, and an uncorrectable one is reported (R335, R349). -/
def State.readErrors (s : State) (keys : List Nat) : State :=
  keys.foldl (fun a k => if a.eccAt k then a.eccOn (errDie k) 0 else a.correct k) s

/-- The tier field of an ECC trap (R77): 0 scratchpad, 1 memory-side cache, 2 near, a fenced die's too (R351), 3 far. -/
def State.eccTier (s : State) (key : Nat) : Word :=
  ofN ((match tierOf key with
    | 0 => if s.eccCache.contains (wordKey key) && !(s.die (homeDie key)).fenced then 1 else 2
    | 1 => 3
    | _ => 0) * 2 ^ 56)

/-- The single-bit errors of n bytes from key on are corrected. -/
def State.correctAll (s : State) (key n : Nat) : State :=
  (List.range ((key % 8 + n + 7) / 8)).foldl (fun a i => a.correct (wordKey key + 8 * i)) s

/-! ## Words held by LD.T (R200) -/

/-- The key of an address in the held-take list: what translation gives now or, once it has dropped the page, gave at the take. -/
def State.takeKey? (s : State) (t : ThreadRef) (th : Thread) (a : Word) : Option Nat :=
  (s.keyOf? t th.ctx a).or ((th.heldKeys.find? fun p => p.1 == a).map Prod.snd)

/-- An address of the held-take list names the word of an access, whatever window or page they go by (R189, R190). -/
def State.sameWord (s : State) (t : ThreadRef) (th : Thread) (x a : Word) (key : Nat) : Bool :=
  x == a || (s.takeKey? t th x).any fun k => wordKey k == wordKey key

/-- The thread holds the word at an address (R200). -/
def State.holdsTake (s : State) (t : ThreadRef) (th : Thread) (a : Word) (key : Nat) : Bool :=
  th.heldTakes.any fun x => s.sameWord t th x a key

/-- A taken word joins the held-take list, which keeps the last four (R200). A record whose header is taken is freed, for
the core to fill, and is not held (R205; log 47). -/
def Thread.noteTake (th : Thread) (a : Word) (key : Nat) : Thread :=
  if (match windowOf a with | .record _ => true | _ => false) then th
  else { th with
    heldTakes := (th.heldTakes ++ [a]).drop (th.heldTakes.length - 3)
    heldKeys := (th.heldKeys.filter fun p => p.1 != a && th.heldTakes.contains p.1) ++ [(a, key)] }

/-- A filled word leaves the held-take list (R200). -/
def State.noteFill (s : State) (t : ThreadRef) (a : Word) (key : Nat) : State :=
  s.modThread t fun th => { th with heldTakes := th.heldTakes.filter fun x => !s.sameWord t th x a key }

/-! ## Effects outside an idempotent region (R308) -/

/-- A written range that leaves the thread's window, or lies in the FABRIC window. -/
def State.effectRange (s : State) (th : Thread) (a : Word) (n : Nat) : State :=
  match th.region with
  | none => s
  | some r =>
    if windowOf a = .fabric ∨ a.toNat < r.base.toNat ∨ r.base.toNat + r.size.toNat < a.toNat + n then s.effectOut th else s

/-- Any access through the FABRIC window. -/
def State.effectFabric (s : State) (th : Thread) (a : Word) : State :=
  if windowOf a = .fabric then s.effectOut th else s

end Sys2Proof.Machine
end

