-- ==== Sys2Proof/Machine/Holder.lean ====
section
/-! DEFINITION. What the holder of a word does with the requests that reach it (R193-R198, R201, R202, R267, R378,
R285, R286), and the order in which one thread's accesses are performed (R247, R253). -/

namespace Sys2Proof.Machine

namespace State

/-- The request with a serial number. -/
def flight? (s : State) (id : Nat) : Option Flight := s.flights.find? fun f => f.id == id
/-- A request changed. -/
def modFlight (s : State) (id : Nat) (g : Flight → Flight) : State :=
  { s with flights := modFirst (fun f => f.id == id) g s.flights }
/-- A request that is over. -/
def dropFlight (s : State) (id : Nat) : State := { s with flights := eraseFirst (fun f => f.id == id) s.flights }

/-- The queue of a word (R195). -/
def queue (s : State) (key : Nat) : List Nat := lookupD s.queues key []
/-- The queue of a word replaced; an empty queue is not listed. -/
def setQueue (s : State) (key : Nat) (q : List Nat) : State :=
  { s with queues := if q.isEmpty then eraseKey s.queues key else insertKey s.queues key q }

/-- The launch priority of a thread (R295). -/
def prioOf (s : State) (th : Thread) : Nat :=
  match s.launch? th.ctx th.launch with | some l => l.rec_.prio | none => 0

end State

/-! ## Kinds of requests -/

/-- A request that waits for the bit of its word (R195): some true for full, some false for empty. -/
def ReqKind.awaits : ReqKind → Option Bool
  | .ldW | .ldT | .amo _ | .red _ | .ticket _ | .bqPop => some true
  | .stF => some false
  | _ => none

/-- An acquire (R247). -/
def ReqKind.acquires : ReqKind → Bool
  | .ldW | .ldT | .amo _ | .bqPop => true
  | _ => false

/-- A release (R247). -/
def ReqKind.releases : ReqKind → Bool
  | .stF | .stS | .amo _ => true
  | _ => false

/-- A fill (R195). -/
def ReqKind.fills : ReqKind → Bool
  | .stF | .stS => true
  | _ => false

/-- A reduction. -/
def ReqKind.isRed : ReqKind → Bool
  | .red _ => true
  | _ => false

/-- An access that changes its word or bit. -/
def ReqKind.writes : ReqKind → Bool
  | .load .. | .vload .. | .ldW | .feProbe => false
  | _ => true

/-- The word of an access, or a lane's word of a vector load. -/
def Flight.touches (f : Flight) (w : Nat) : Bool :=
  match f.kind with
  | .vload ls _ => ls.any fun l => wordKey l.2.2.1 == w
  | _ => wordKey f.key == w

/-- A request of the thread in a slot; a detached one is a saved thread's (R311). -/
def Flight.of (f : Flight) (t : ThreadRef) : Bool := f.thread == t && f.detached.isNone

/-- A request of a remote package at its home: no thread of this package stands behind it (R368). -/
def Flight.home (f : Flight) : Bool := decide (coreCount ≤ f.thread.core)

/-- An atomic whose take has been granted has acquired. -/
def Flight.acquiring (f : Flight) : Bool :=
  f.kind.acquires && (match f.stage with | .granted _ | .filling _ => false | _ => true)

/-- AMO and RED operations by FN6 of the AMO (R201). -/
def amoOp (op : Nat) (old v n : Word) : Word :=
  match op with
  | 0 => old + v
  | 1 => old &&& v
  | 2 => old ||| v
  | 3 => old ^^^ v
  | 4 => if v.slt old then v else old
  | 5 => if old.slt v then v else old
  | 6 => if v.ult old then v else old
  | 7 => if old.ult v then v else old
  | 8 => v
  | _ => if old = v then n else old

/-! ## The order of one thread's accesses -/

/-- The pieces of a store-queue entry, each with its key: what translation gives now or, once it has dropped the page, gave at
issue. -/
def State.keyedPieces (s : State) (t : ThreadRef) (ctx : Nat) (e : StoreEntry) : List ((Word × Nat × Word) × Option Nat) :=
  (e.pieces.zip e.keys).map fun p => (p.1, (s.keyOf? t ctx p.1.1).or p.2)

/-- A store-queue entry touches a word. -/
def State.entryTouches (s : State) (t : ThreadRef) (ctx : Nat) (e : StoreEntry) (w : Nat) : Bool :=
  (s.keyedPieces t ctx e).any fun p => p.2.any fun k => wordKey k == w

/-- A store-queue entry has a piece in the GLOBAL window whose page no one has translated yet: it may touch any word of memory. -/
def State.entryUnknown (s : State) (t : ThreadRef) (ctx : Nat) (e : StoreEntry) : Bool :=
  (s.keyedPieces t ctx e).any fun p => p.2.isNone && windowOf p.1.1 == .global

/-- The older store-queue entries of a thread hold back its access at a key: each a release; one to the same word, unless the access
is a plain load, which sees its bytes (R151); and one that may be to the same word, unless it stands behind a failed store, which
waits for a record (R207). -/
def State.storesBlock (s : State) (t : ThreadRef) (th : Thread) (id key : Nat) (release plainLoad : Bool) : Bool :=
  let older := th.storeQ.filter fun e => decide (e.id < id)
  (older.any fun e => release || (!plainLoad && s.entryTouches t th.ctx e (wordKey key)))
    || (decide (tierOf key < 3) && (older.takeWhile fun e => e.failed.isNone).any fun e => s.entryUnknown t th.ctx e)

/-- An older reduction of the thread holds back its younger access to the same word (R250). Once the reduction has reached its holder
it may wait there for the thread's own fill, which goes on (R202). -/
def Flight.redBlocks (y : Flight) (key : Nat) (fill : Bool) : Bool :=
  y.touches (wordKey key) && (!fill || (match y.stage with | .toSend | .sent | .refused => true | _ => false))

/-- An access of a thread, at the word of key and with serial number id, is held back by an older one that has not been
performed: one to the same word, an acquire, or, for a release, any at all but a reduction (R247, R250). DEDUCED: log 9. -/
def State.blockedBy (s : State) (t : ThreadRef) (id key : Nat) (release plainLoad fill : Bool) : Bool :=
  (s.flights.any fun y => y.of t && decide (y.id < id) &&
    (if y.kind.isRed then y.redBlocks key fill else release || y.acquiring || y.touches (wordKey key)))
  || (match s.thread? t with
      | none => false
      | some th => s.storesBlock t th id key release plainLoad)
  || (release && s.fabReqs.any fun r => r.thread == some t && decide (r.id < id))

/-- A grant of the context that holds an offset. -/
def Grant.holds (g : Grant) (ctx off : Nat) : Bool :=
  g.band.ctx == ctx && decide (g.base ≤ off) && decide (off < g.base + g.size)

/-- A word that a context holds on a core only by the grant of a saved band: requests to it wait (R314). -/
def State.grantSaved (s : State) (ctx key : Nat) : Bool :=
  tierOf key == 3 && !isRecord key &&
    (let gs := (s.core (keyCore key)).grants.filter fun g => g.holds ctx (key % 2 ^ 18)
     !gs.isEmpty && gs.all fun g => g.saved)

/-- A plain access has reached a word of a saved band: it keeps its place among those that wait there (R314). -/
def State.holdSaved (s : State) (key : Nat) (w : SavedWait) : State :=
  if s.savedWaits.any fun x => x.2.1 == wordKey key && x.2.2 == w then s
  else { s.tick with savedWaits := s.savedWaits ++ [(s.serial, wordKey key, w)] }

/-- A request is held back (see `State.blockedBy`). -/
def State.blocked (s : State) (f : Flight) : Bool :=
  s.blockedBy f.thread f.id f.key f.kind.releases (f.stage != .toSend && match f.kind with | .load .. => true | _ => false)
    f.kind.fills

/-- Whether every older access of a thread, up to a serial number, has been performed or recorded; reductions are left
out where the caller says so (R257). -/
def State.allPerformed (s : State) (t : ThreadRef) (upTo : Nat) (reds : Bool) : Bool :=
  !(s.flights.any fun y => y.of t && decide (y.id ≤ upTo) && (reds || !y.kind.isRed))
  && (match s.thread? t with | none => true | some th => !th.storeQ.any fun e => decide (e.id ≤ upTo))
  && !(s.fabReqs.any fun r => r.thread == some t && decide (r.id ≤ upTo) && r.xfer.isNone)

/-! ## Results -/

/-- Status and data of a reply (R360, R366): 0, or the code of the cause with what trap.info carries for it; the manual
gives the status no encoding (DESIGN CHOICE, log 42). -/
def OutValue.status : OutValue → Nat × Word
  | .word w | .bcast w _ => (0, w)
  | .fault c _ info => (c.code, info)
  | _ => (0, 0)

/-- The result of a request reaches its thread's register, is recorded for a saved thread (R311) or for the reply to a
remote package (R368), or is discarded. -/
def State.deliver (s : State) (f : Flight) (v : OutValue) : State :=
  if f.orphan then s
  else if f.home then
    { s with homeReqs := modFirst (fun h => h.flight == f.id) (fun h => { h with reply := some v.status }) s.homeReqs }
  else match f.detached with
    | some k =>
      match v with
      | .word w | .bcast w _ => (s.writeWord (k + 16) w).writeWord k (s.readWord k ||| ofN (2 ^ 8))
      | .fault .feTimeout _ _ => s.writeWord k (s.readWord k ||| ofN (2 ^ 9))
      | _ => s
    | none => s.modThread f.thread fun th =>
        { th with outs := modFirst (fun o => o.id == f.id) (fun o => { o with value := v }) th.outs }

/-- A thread that waits at its ST.F, or at an atomic for its take, goes on at the next instruction. -/
def State.resume (s : State) (t : ThreadRef) (id : Nat) : State :=
  s.modThread t fun th =>
    if (th.wait.map Wait.kind) = some (.fill id) then { th with wait := none, pc := nextPc th.pc } else th

/-- n bytes at a key as a load with serial number id sees them: the thread's own older queued stores come before memory
(R151). -/
def State.loadBytes (s : State) (f : Flight) (key n : Nat) : Nat :=
  let base := s.readAs f.cipher key n
  match s.thread? f.thread with
  | none => base
  | some th =>
    let ps := (th.storeQ.filter fun e => decide (e.id < f.id)).flatMap fun e =>
      (s.keyedPieces f.thread f.ctx e).filterMap fun p => p.2.map fun k => (k, p.1.2.1, p.1.2.2)
    ofLeBytes ((List.range n).map fun i =>
      ps.foldl (fun b p => if p.1 ≤ key + i ∧ key + i < p.1 + p.2.1 then BitVec.ofNat 8 (p.2.2.toNat / 256 ^ (key + i - p.1)) else b)
        (BitVec.ofNat 8 (base / 256 ^ i)))

/-- A load's result extended to 64 bits (R193). -/
def extend (size : Nat) (signed : Bool) (x : Nat) : Word := if signed then sext (8 * size) x else ofN x

/-! ## Waiter tables and park lists (R197, R285, R286) -/

/-- The holder of a key: a core's scratchpad, a compute die or an I/O die. -/
def holderOf (key : Nat) : Nat × Nat :=
  match tierOf key with
  | 0 => (0, homeDie key)
  | 1 => (1, key / 2 ^ 40 % 4)
  | 2 => (2, 0)
  | _ => (3, keyCore key)

/-- Waiter entries of a holder (R197). -/
def waiterEntries (h : Nat × Nat) : Nat := if h.1 = 3 then 32 else 4096

/-- Entries of a holder in use. -/
def State.waitersAt (s : State) (h : Nat × Nat) : Nat :=
  (s.flights.filter fun f => f.stage == .queued none && holderOf f.key == h).length

/-- KIND of a park-list entry (R285), which lists none for BQ.POP: that of a TICKET (DESIGN CHOICE, log 22). -/
def parkKind : ReqKind → Nat
  | .ldW => 0 | .ldT => 1 | .stF => 2 | .amo _ => 3 | .red _ => 4 | _ => 5

/-- A free entry of a context's park list, which no atomic holds (R196). -/
def State.parkFree? (s : State) (c : Context) : Option Nat :=
  ((List.range c.parkN).map fun i => c.park + 32 * i).find? fun k => !s.full k && !s.held k

/-- The park-list entry of a request written, words 1-3 first (R285). A scratchpad word has no physical address in the manual:
PADDR holds the model's key of it (DESIGN CHOICE, log 22). -/
def State.parkWrite (s : State) (k : Nat) (f : Flight) (det : Bool) : State :=
  let expiry := if f.budget = BitVec.allOnes 64 then f.budget else ofN (f.issuedAt + f.budget.toNat)
  let w0 := parkKind f.kind + 8 * b2n det + s.idCore f.ctx f.thread.core % 2 ^ 15 * 2 ^ 8
    + f.thread.slot * 2 ^ 23 + f.seq % 2 ^ 32 * 2 ^ 32
  s.putEntry f.ctx k [ofN w0, ofN (wordKey f.key), if f.kind = .stF then f.data else 0, expiry]

/-- The park-list entry a request occupies. -/
def Stage.entry? : Stage → Option Nat
  | .queued k => k
  | .parked k => k
  | _ => none

/-- DET of the entry a request occupies, if it does (R285). -/
def State.parkDet (s : State) (f : Flight) (det : Bool) : State :=
  match f.stage.entry? with
  | some k => s.writeWord k (setBits (s.readWord k) 3 3 (b2n det))
  | none => s

/-- The entry a request occupies is freed (R285). -/
def State.parkFree (s : State) (f : Flight) : State :=
  match f.stage.entry? with
  | some k => s.setFull k false
  | none => s

/-- The key under which a request queues: its word's (R195). -/
def Flight.queueKey (f : Flight) : Nat := wordKey f.key

/-- A spilled request (R286). -/
def Stage.spilled : Stage → Bool
  | .queued (some _) => true
  | _ => false

/-- A spilled request of a holder that comes first in its word's queue. -/
def State.firstSpilled? (s : State) (h : Nat × Nat) : Option Flight :=
  (s.flights.find? fun f => holderOf f.key == h && f.stage.spilled).bind fun f =>
    (s.queue f.queueKey).findSome? fun id => (s.flight? id).filter fun g => g.stage.spilled

/-- The holder takes spilled requests back into its table, those of a word in the order of SEQ, while entries are free
(R286). -/
def State.unspillFrom : Nat → State → Nat × Nat → State
  | 0, s, _ => s
  | n + 1, s, h =>
    if s.waitersAt h < waiterEntries h then
      match s.firstSpilled? h with
      | some f => unspillFrom n ((s.parkFree f).modFlight f.id fun x => { x with stage := .queued none }) h
      | none => s
    else s

/-- The holder's table is filled up with spilled requests. -/
def State.unspill (s : State) (h : Nat × Nat) : State := s.unspillFrom (s.flights.length + 1) h

/-- The position the next request of a queue gets (R285). -/
def State.nextSeq (s : State) (qk : Nat) : Nat :=
  match (s.queue qk).getLast?.bind s.flight? with
  | some f => f.seq + 1
  | none => 0

/-- A request that no entry of the park list is free for: its core keeps it and resends it, and the die control core of its die
is told (R286; DESIGN CHOICE, log 22). -/
def State.refuse (s : State) (f : Flight) : State :=
  (s.modFlight f.id fun x => { x with stage := .refused }).postDie (dieOf f.thread.core) 3

/-- A request joins the tail of its word's queue: in the waiter table, or spilled to the park list, or, with no entry
free there, refused (R195, R286), the control core of the requester's die being told (DESIGN CHOICE, log 22). -/
def State.join (s0 : State) (f0 : Flight) : State :=
  let s := s0.unspill (holderOf f0.key)
  let f := { f0 with seq := s.nextSeq f0.queueKey }
  let enter (s : State) (st : Stage) :=
    (s.modFlight f.id fun x => { x with stage := st, seq := f.seq }).setQueue f.queueKey (s.queue f.queueKey ++ [f.id])
  if s.waitersAt (holderOf f.key) < waiterEntries (holderOf f.key) then enter s (.queued none)
  else match s.context? f.ctx with
    | none => enter s (.queued none)
    | some c =>
      match s.parkFree? c with
      | some k => enter (s.parkWrite k f f.detached.isSome) (.queued (some k))
      | none => s.refuse f

/-- A request that reaches a word of a saved band waits there until the band resumes (R314): a conditional one and a reduction
in a park-list entry of the form of a detached one, any other, for which an entry has no KIND, without one. DEDUCED: log 22. -/
def State.parkSaved (s : State) (f : Flight) : State :=
  let place (s : State) (st : Stage) := s.tick.modFlight f.id fun x => { x with stage := st, seq := s.serial }
  match if f.kind.awaits.isSome then s.context? f.ctx else none with
  | none => place s (.parked none)
  | some c =>
    match s.parkFree? c with
    | some k => place (s.parkWrite k { f with seq := s.serial } true) (.parked (some k))
    | none => s.refuse f

/-- A request leaves its queue; its park-list entry is emptied. -/
def State.unjoin (s : State) (f : Flight) : State :=
  (s.setQueue f.queueKey ((s.queue f.queueKey).erase f.id)).parkFree f

/-! ## Performing a request -/

/-- A BQ.POP is being served on the queue word (R378). -/
def State.claimServed (s : State) (q : Nat) : Bool :=
  s.flights.any fun f => f.kind == .bqPop && f.data2 == 1 && f.data == ofN q

/-- The record of an access of a thread that has faulted: of one that has halted it goes on to the context's fault queue.
None while no record is free (R207). -/
def State.recordFault (s : State) (t : ThreadRef) (cause kind : Nat) (pc addr data : Word) : Option State :=
  (s.writeRecord t.core t.slot cause kind false 3 pc addr data).map fun s1 =>
    match s1.thread? t with
    | some th => if th.halted then s1.moveRecords t th.ctx else s1
    | none => s1

/-- The record of a failed reduction (R202): kept back while no record is free (R207). -/
def State.reductionFault (s : State) (f : Flight) (c : Cause) : Option State :=
  (s.recordFault f.thread c.code 1 f.pc f.va f.data).map fun s1 =>
    (s1.dropFlight f.id).modThread f.thread fun th => { th with pending := th.pending - 1 }

/-- The address at which a request fails (R77): its own or, of a claim at its ready word, that word's (R378). -/
def Flight.failAddr (f : Flight) : Word :=
  if f.kind = .bqPop ∧ f.data2 = 1 then f.va + ofN (f.key - f.data.toNat) else f.va

/-- A request of the thread that fails keeps its place at its core while no record is free, and is tried again (R207). -/
def State.keepBack (s : State) (f : Flight) : State := s.modFlight f.id fun x => { x with stage := .sent }

/-- An uncorrectable error met by a request (R25, R202, R350). A saved thread's request meets it when the thread is back;
a remote package's is answered with it (R366). -/
def State.failEcc (s : State) (f : Flight) : State :=
  if f.orphan then s.dropFlight f.id
  else if f.detached.isSome then s.keepBack f
  else if f.home then ((s.eccOn (errDie f.key) 0).deliver f (.fault .eccUncorrectable f.va (s.eccTier f.key))).dropFlight f.id
  else match f.kind with
  | .red _ => (s.reductionFault f .eccUncorrectable).getD (s.keepBack f)
  | .stF => (s.dropFlight f.id).raise f.thread .eccUncorrectable f.va (s.eccTier f.key) f.pc
  | .amo _ =>
    let s1 := (s.dropFlight f.id).modThread f.thread fun th => { th with outs := th.outs.filter fun o => o.id != f.id }
    s1.raise f.thread .eccUncorrectable f.va (s.eccTier f.key) f.pc
  | .stS | .feClr =>
    match s.recordFault f.thread 16 0 f.pc f.va f.data with
    | some s1 => s1.dropFlight f.id
    | none => s.keepBack f
  | _ => (s.deliver f (.fault .eccUncorrectable f.failAddr (s.eccTier f.key))).dropFlight f.id

/-- A request performed at the holder, its condition holding and its word not held. A single-bit error is corrected
first. A record that has come to belong to another slot reads as zero, and nothing else happens (R205). -/
def State.performAt (s0 : State) (f : Flight) : State :=
  let s := s0.correct f.key
  let w := wordKey f.key
  if s.eccAt f.key then s.failEcc f
  else if !f.home && s.foreignRecord f.key f.thread.slot then (s.deliver f (.word 0)).dropFlight f.id
  else match f.kind with
  | .load n sg => (s.deliver f (.word (extend n sg (s.loadBytes f f.key n)))).dropFlight f.id
  | .vload .. => s
  | .feProbe => (s.deliver f (.word (ofN (b2n (s.full w))))).dropFlight f.id
  | .ldW => (s.deliver f (.word (ofN (s.readAs f.cipher w 8)))).dropFlight f.id
  | .ldT =>
    let s1 := ((s.deliver f (.word (ofN (s.readAs f.cipher w 8)))).setFull w false).noteFreed w
    (if f.orphan || f.detached.isSome then s1 else s1.modThread f.thread fun th => th.noteTake f.va f.key).dropFlight f.id
  | .stF =>
    let s1 := ((s.writeAs f.cipher w 8 f.data.toNat).setFull w true).dropFlight f.id
    if f.detached.isSome then s1.deliver f (.word 0)
    else if f.orphan then s1
    else (s1.noteFill f.thread f.va f.key).resume f.thread f.id
  | .stS => ((s.writeAs f.cipher w 8 f.data.toNat).setFull w true).dropFlight f.id
  | .feClr => ((s.setFull w false).noteFreed w).dropFlight f.id
  | .ticket bc =>
    let old := s.readAs f.cipher w 8
    let v := if bc then OutValue.bcast (ofN old) s.serial else .word (ofN old)
    ((s.tick.writeAs f.cipher w 8 ((old + 1) % 2 ^ 64)).deliver f v).dropFlight f.id
  | .red op =>
    let old := ofN (s.readAs f.cipher w 8)
    ((s.writeAs f.cipher w 8 (amoOp op old f.data 0).toNat).dropFlight f.id).modThread f.thread fun th =>
      { th with pending := th.pending - 1 }
  | .amo op =>
    if f.home then
      let old := ofN (s.readAs f.cipher w 8)
      (((s.writeAs f.cipher w 8 (amoOp op old f.data f.data2).toNat).setFull w true).deliver f (.word old)).dropFlight f.id
    else
    { (s.modFlight f.id fun x => { x with stage := .granted (ofN (s.readAs f.cipher w 8)) }) with
      holds := s.holds ++ [⟨w, f.id, []⟩] }
  | .bqPop =>
    if f.data2 = 1 then
      -- the ready word has been read: the claim ends and NEXT advances
      let q := f.data.toNat
      let next := s.readAs f.cipher q 4
      ((s.writeAs f.cipher q 4 (next + 1)).deliver f (.word (ofN next))).dropFlight f.id
    else
      let next := s.readAs f.cipher w 4
      let count := s.readAs f.cipher (w + 4) 4
      if (w % 2 ^ 16) + 8 + 8 * count > 2 ^ 16 then (s.deliver f (.fault .access f.va 3)).dropFlight f.id
      else if count ≤ next then (s.deliver f (.word (BitVec.allOnes 64))).dropFlight f.id
      else s.modFlight f.id fun x => { x with data := ofN w, data2 := 1, key := w + 8 + 8 * next, stage := .sent }

/-- The condition of a request holds (R195, R378): a claim has its turn, and, at its ready word, advances NEXT only while no
atomic holds the queue word (R251). -/
def State.holdsFor (s : State) (f : Flight) : Bool :=
  (match f.kind.awaits with | none => true | some b => s.full f.key == b)
  && (f.kind != .bqPop || (if f.data2 = 1 then !s.held f.data.toNat else !s.claimServed (wordKey f.key)))

/-- A claim that waits for the one before it, which is still being served (R378). -/
def State.waitsTurn (s : State) (f : Flight) : Bool := f.kind == .bqPop && f.data2 == 0 && s.claimServed (wordKey f.key)

/-- The head of a word's queue. A claim that waits for its turn keeps its place there and holds nothing else up (R378). -/
def State.queueHead? (s : State) (qk : Nat) : Option Flight :=
  ((s.queue qk).filterMap s.flight?).find? fun f => !s.waitsTurn f

/-- The holder serves a queue from its head while the head's condition holds (R195). -/
def State.serveQueue : Nat → State → Nat → State
  | 0, s, _ => s
  | n + 1, s, qk =>
    match s.queueHead? qk with
    | none => s
    | some f => if s.held f.key || !s.holdsFor f then s else serveQueue n ((s.unjoin f).performAt f) qk

/-- The queue of a word is served. -/
def State.serve (s : State) (key : Nat) : State :=
  (s.serveQueue (s.flights.length + 1) (wordKey key)).unspill (holderOf key)

/-- A claim that has its turn goes to its ready word as a reader; when it ends, the next claim has its turn (R378). -/
def State.claimOn : Nat → State → Nat → State
  | 0, s, _ => s
  | n + 1, s, q =>
    match s.flights.find? fun f => f.kind == .bqPop && f.data2 == 1 && f.data == ofN q && f.stage == .sent with
    | none => s
    | some f =>
      if s.held f.key then s
      else if s.holdsFor f then claimOn n ((s.performAt f).serve q) q
      else s.join f

/-- Every queue word whose claims wait for a turn is looked at: a claim may have ended at a ready word (R378). -/
def State.kickClaims (s : State) : State :=
  (s.flights.filter fun f => f.kind == .bqPop && f.data2 == 0 && f.stage != .sent).foldl (fun a f =>
    let q := wordKey f.key
    let a1 := a.serveQueue (a.flights.length + 1) q
    a1.claimOn (a1.flights.length + 1) q) s

/-- A request reaches its holder: kept at a saved band's word (R314), deferred while the word is held (R196), performed when its condition holds, and
otherwise queued (R195). -/
def State.arrive (s : State) (f : Flight) : State :=
  if s.grantSaved f.ctx f.key then s.parkSaved f
  else if s.held f.key then
    { (s.modFlight f.id fun x => { x with stage := .deferred }) with
      holds := modFirst (fun h => h.key == wordKey f.key) (fun h => { h with deferred := h.deferred ++ [f.id] }) s.holds }
  else if s.holdsFor f then
    let s1 := (s.performAt f).serve f.key
    (match f.kind with
    | .bqPop => s1.claimOn (s1.flights.length + 1) (wordKey f.key)
    | _ => s1).kickClaims
  else s.join f

/-- The bit or word of a key has changed: its queues are served, and claims may go on (R195, R378). -/
def State.changed (s : State) (key : Nat) : State :=
  let w := wordKey key
  ((s.flights.filter fun f => f.kind == .bqPop && f.data2 == 1 && f.data == ofN w).foldl (fun a f => a.serve f.key)
    (s.serve key)).kickClaims

/-- An atomic's fill is performed: the word takes its value, full; the hold ends; the queue is served (R195), and then the
deferred requests are handled in their order of arrival, as if each had then arrived (R196). -/
def State.fillAtomic (s : State) (f : Flight) (new : Word) : State :=
  let w := wordKey f.key
  let d := (s.holds.find? fun h => h.key == w).map Hold.deferred
  let s1 := ((s.writeAs f.cipher w 8 new.toNat).setFull w true).dropFlight f.id
  let s2 := { s1 with holds := eraseFirst (fun h => h.key == w) s1.holds }
  (d.getD []).foldl (fun a id => match a.flight? id with | some x => a.arrive x | none => a) (s2.changed w)

end Sys2Proof.Machine
end

