-- ==== Sys2Proof/Machine/Wire.lean ====
section
/-! DEFINITION. Requests of this package to remote homes (R360-R364, R368): tags, transactions and their ports. -/

namespace Sys2Proof.Machine

/-- A request transaction to a window's home; source, tag and oldest tag are filled in when it is sent. -/
def FabTx.request (op ctx : Nat) (w : FabWin) (operand : Nat) (payload : List Word) : FabTx :=
  ⟨BitVec.ofNat 6 op, 0, BitVec.ofNat 12 w.rctx, BitVec.ofNat 12 ctx, BitVec.ofNat 8 operand, 0, 0, 0, w.addr, payload⟩

/-- The bookkeeping of a request: id is the serial number of the access it carries, va its address in the FABRIC window
and pc its instruction's. -/
def FabReq.mk' (id : Nat) (tx : FabTx) (w : FabWin) (flight : Option Nat) (store thread : Option ThreadRef) (va pc : Word) :
    FabReq :=
  { id := id, tx := tx, port := w.port, alt := w.alt, sentAt := 0, tmo := w.tmo, expired := 0, flight := flight
    store := store, xfer := none, thread := thread, withdrawSent := false, va := va, pc := pc }

/-- Requests outstanding on a tag stream (R362). -/
def State.streamReqs (s : State) (port : Nat) : List FabReq := s.fabReqs.filter fun r => r.tx.stream.toNat == port

/-- A stream has at most 4,096 requests outstanding (R362). -/
def State.streamFull (s : State) (port : Nat) : Bool := 4096 ≤ (s.streamReqs port).length

/-- A request is numbered in the tag stream of its port and handed to the port, carrying the oldest outstanding tag of
the stream (R362). -/
def State.postFabric (s : State) (r : FabReq) : State :=
  let n := lookupD s.fabTags r.port 0
  let tag := BitVec.ofNat 40 n
  let oldest := match s.streamReqs r.port with | x :: _ => x.tx.tag | [] => tag
  let tx := { r.tx with src := s.fabricId, tag := tag, stream := BitVec.ofNat 5 r.port, oldest := oldest }
  { s with
    fabTags := insertKey s.fabTags r.port (n + 1)
    fabReqs := s.fabReqs ++ [{ r with tx := tx, sentAt := s.beat }]
    fabOut := s.fabOut ++ [(r.port, tx)] }

/-- RED FN6 of a reduction held by the FN6 of its AMO (R32). -/
def redFn (op : Nat) : Nat := if op < 3 then op else op - 1
/-- FN6 of the AMO of the same name (R202). -/
def redOp (fn : Nat) : Nat := if fn < 3 then fn else fn + 1

/-- OP, operand and payload of a remote access (R360, R361). -/
def Flight.wire (f : Flight) : Nat × Nat × List Word :=
  match f.kind with
  | .load n _ => (1, n.log2, [])
  | .ldW => (3, 3, [])
  | .ldT => (4, 3, [])
  | .stF => (5, 3, [f.data])
  | .stS => (6, 3, [f.data])
  | .feClr => (7, 3, [])
  | .feProbe => (8, 3, [])
  | .amo op => (9, op, [f.data, f.data2])
  | .red op => (10, redFn op, [f.data])
  | _ => (1, 3, [])

/-- The permission bit of the window a remote access needs (R365). -/
def ReqKind.fabBit : ReqKind → Nat
  | .load .. => 1
  | _ => 3

/-- A remote access leaves once nothing holds it back (R247, R368), by its window as that stands then; while the window is not valid it
stays (DESIGN CHOICE, log 76). -/
def State.trySend (s : State) (id : Nat) : State :=
  match s.flight? id with
  | none => s
  | some f =>
    if f.stage ≠ .toSend ∨ s.blocked f then s
    else match s.fabWindow? f.ctx f.va f.kind.fabBit with
    | none => s
    | some w =>
      if s.streamFull w.port then s
      else
        let x := f.wire
        (s.modFlight id fun y => { y with stage := .remote }).postFabric
          (FabReq.mk' id (FabTx.request x.1 f.ctx w x.2.1 x.2.2) w (some id) none (some f.thread) f.va f.pc)

/-- A withdraw carrying a remote request's tag goes to its home, once, and its reply is awaited as the request's was (R368,
R363). DEDUCED: log 56. -/
def State.sendWithdraw (s : State) (flight : Nat) : State :=
  match s.fabReqs.find? fun r => r.flight == some flight && !r.withdrawSent with
  | none => s
  | some r =>
    { s with
      fabReqs := modFirst (fun x => x.id == r.id) (fun x => { x with withdrawSent := true, sentAt := s.beat, expired := 0 }) s.fabReqs
      fabOut := s.fabOut ++ [(r.port, { r.tx with op := 11, payload := [] })] }

/-- Every remote access that waits to leave is looked at. -/
def State.trySendAll (s : State) : State :=
  (s.flights.filter fun f => f.stage == .toSend).foldl (fun a f => a.trySend f.id) s

end Sys2Proof.Machine
end

