-- ==== Sys2Proof/Machine/Operands.lean ====
section
/-! DEFINITION. Operand forms of memory instructions: MEM and MX addresses (R19, R193), register destinations with their
lookahead windows (R21), and the way a scalar access leaves its thread (R192, R291). -/

namespace Sys2Proof.Machine

/-- s(BASE) + SignExt(OFF6, 6) × size, modulo 2^64 (R19, R193). -/
def Thread.memAddr (th : Thread) (base : Reg) (off : BitVec 6) (size : Nat) : Word :=
  th.readS base.toNat + off.signExtend 64 * ofN size

/-- A register destination with its window opens (R21); its result is written no earlier than in rotation due. DEDUCED: log 10. -/
def Thread.openOut (th : Thread) (id : Nat) (cls : RegClass) (reg la due : Nat) (v : OutValue) : Thread :=
  { th with outs := th.outs ++ [⟨id, cls, reg, la, 0, th.pc, due, v⟩] }

/-- The registers of a scalar memory instruction. -/
def Meta.mem (rd wr : List Nat) (window : Bool) : Meta := { Meta.scalar rd wr with window := window }

/-- A scalar access as its instruction describes it. -/
structure Req where
  kind : ReqKind
  acc : Acc
  va : Word
  data : Word
  data2 : Word
  /-- register destination and LA -/
  dest : Option (Nat × Nat)
  /-- checked against the held-take list (R200) -/
  selfCheck : Bool
  /-- migrates under R291 -/
  homeExec : Bool
  deriving DecidableEq, Repr

/-- The thread departs (R289; what a late fault says meanwhile: DESIGN CHOICE, log 71): a member leaves its squad at the issue of the migrating instruction (R164). -/
def departRes (s : State) (th : Thread) (n : Nat) (pc : Word) (reason : Nat) : Res :=
  let s1 := s.effectOut th
  .block (.depart n pc reason) 0 (if th.member then s1.leaveSquad s.cur th.pc th.pc else s1)

/-- The request that carries an access to its holder. -/
def Req.flight (r : Req) (s : State) (th : Thread) (key : Nat) (e : Option TlbEntry) (st : Stage) : Flight :=
  { id := s.serial, thread := s.cur, ctx := th.ctx, kind := r.kind, va := r.va, key := key, data := r.data
    data2 := r.data2, issuedAt := s.beat, budget := th.feBudget, pc := th.pc, scope := th.scopeD, stage := st
    withdrawal := false, cipher := s.cipherFor th e, orphan := false, detached := none
    page := match e with | some e => pageBytes e.size | none => 65536 }

/-- The state with a request on its way. -/
def State.send (s : State) (f : Flight) : State := { s with flights := s.flights ++ [f], serial := s.serial + 1 }

/-- How the thread goes on after the access has left: ST.F and an atomic wait until they are performed or granted (R195,
R201); others issue on. -/
def Req.after (r : Req) (s : State) (th : Thread) (f : Flight) : Res :=
  let s0 := (s.send f).modThread s.cur fun x => match r.dest with
    | some (reg, la) => x.openOut f.id .s reg la (s.beat + 2) .pending
    | none => x
  let s1 := if f.stage = .toSend then s0.trySend f.id else s0
  match r.kind with
  | .stF | .amo _ => .block (.fill f.id) th.feBudget s1
  | .stS => .done (s1.noteFill s.cur r.va f.key)
  | .red _ => .done (s1.modThread s.cur fun x => { x with pending := x.pending + 1 })
  | _ => .done s1

/-- The effect of an access on band.OUT (R308). -/
def Req.effect (r : Req) (s : State) (th : Thread) : State :=
  match r.kind with
  | .load .. | .ldW | .feProbe => s.effectFabric th r.va
  | .bqPop => s
  | _ => s.effectOut th

/-- A scalar access under the checks of R192. -/
def Req.run (r : Req) (s : State) (th : Thread) : Res :=
  if r.va.toNat % r.acc.size ≠ 0 then .trap .align r.va r.acc.info
  else match s.resolve s.cur th r.va r.acc (.thread s.cur) with
  | .fault c info => .trap c r.va info
  | .miss => .miss r.va r.acc.kind
  | .zero =>
    match r.dest with
    | some (reg, la) => .done (s.tick.modThread s.cur fun x => x.openOut s.serial .s reg la (s.beat + 2) (.word 0))
    | none => .done s
  | .remote w =>
    if r.selfCheck ∧ s.holdsTake s.cur th r.va w.key then .trap .feSelf r.va 0
    else if r.kind.isRed ∧ 8 ≤ th.pending then .wait .room
    else r.after (r.effect s th) th (r.flight s th w.key none .toSend)
  | .ok key e =>
    if r.selfCheck ∧ s.holdsTake s.cur th r.va key then .trap .feSelf r.va 0
    else match (if r.homeExec then s.homeExec? s.cur th r.va key e else none) with
    | some n => departRes s th n th.pc 1
    | none =>
      if r.kind.isRed ∧ 8 ≤ th.pending then .wait .room
      else r.after ((r.effect s th).refill s.cur.core e) th (r.flight s th key e .sent)

/-! ## Stores (R204) -/

/-- Step 2 of R192 alone: what a plain store checks before issue. -/
def State.storeWindowOk (s : State) (t : ThreadRef) (th : Thread) (va : Word) (fabric : Bool) : Bool :=
  match windowOf va with
  | .none | .record _ => false
  | .local_ off => s.scratchOk t.core t.core off th.ctx th
  | .core c off => match s.physical? th.ctx c with | none => false | some n => s.scratchOk t.core n off th.ctx th
  | .fabric => fabric
  | .global => true

/-- One entry of the store queue (R204); the thread waits while all 16 are in use. An entry that has left for its checks keeps its place
until it has been performed, sent or recorded (DESIGN CHOICE, log 11). -/
def storeEntry (s : State) (th : Thread) (pieces : List (Word × Nat × Word)) (vec : Bool) : Res :=
  if 16 ≤ th.storeQ.length then .wait .room
  else .done (s.tick.modThread s.cur fun x =>
    { x with storeQ := x.storeQ ++ [⟨s.serial, pieces, vec, th.pc, s.beat, none, none, false, pieces.map fun p => s.keyOf? s.cur th.ctx p.1⟩] })

end Sys2Proof.Machine
end

