-- ==== Sys2Proof/Machine/Memory.lean ====
section
/-! DEFINITION. Scalar memory instructions, atomics and reductions, majors 0x28-0x3A and 0x79 (R193-R203, R267, R268),
and the events of their requests: arrival, taking, filling, withdrawal, results, the store queue (R204). -/

namespace Sys2Proof.Machine

/-! ## Loads (R193) -/

/-- A form with a register destination at s(BASE) + OFF6 × size. -/
def loadForm (p : Pred) (t b : Reg) (l : BitVec 4) (o : BitVec 6) (kind : ReqKind) (acc : Acc) (self : Bool)
    (s : State) : Host.Outcome State Fault Refusal :=
  issue (Meta.mem [b.toNat] [t.toNat] true) p s fun s1 th =>
    Req.run ⟨kind, acc, th.memAddr b o acc.size, 0, 0, some (t.toNat, l.toNat), self, true⟩ s1 th

/-- LD (R193). -/
def execLd (p : Pred) (t b : Reg) (l : BitVec 4) (o : BitVec 6) (s : State) :=
  loadForm p t b l o (.load 8 false) (accLoad 8) false s
/-- LD.S32 (R193). -/
def execLdS32 (p : Pred) (t b : Reg) (l : BitVec 4) (o : BitVec 6) (s : State) :=
  loadForm p t b l o (.load 4 true) (accLoad 4) false s
/-- LD.Z32 (R193). -/
def execLdZ32 (p : Pred) (t b : Reg) (l : BitVec 4) (o : BitVec 6) (s : State) :=
  loadForm p t b l o (.load 4 false) (accLoad 4) false s
/-- LD.S16 (R193). -/
def execLdS16 (p : Pred) (t b : Reg) (l : BitVec 4) (o : BitVec 6) (s : State) :=
  loadForm p t b l o (.load 2 true) (accLoad 2) false s
/-- LD.Z16 (R193). -/
def execLdZ16 (p : Pred) (t b : Reg) (l : BitVec 4) (o : BitVec 6) (s : State) :=
  loadForm p t b l o (.load 2 false) (accLoad 2) false s
/-- LD.S8 (R193). -/
def execLdS8 (p : Pred) (t b : Reg) (l : BitVec 4) (o : BitVec 6) (s : State) :=
  loadForm p t b l o (.load 1 true) (accLoad 1) false s
/-- LD.Z8 (R193). -/
def execLdZ8 (p : Pred) (t b : Reg) (l : BitVec 4) (o : BitVec 6) (s : State) :=
  loadForm p t b l o (.load 1 false) (accLoad 1) false s
/-- LD.W (R193). -/
def execLdW (p : Pred) (t b : Reg) (l : BitVec 4) (o : BitVec 6) (s : State) :=
  loadForm p t b l o .ldW accFeRead true s
/-- LD.T (R193). -/
def execLdT (p : Pred) (t b : Reg) (l : BitVec 4) (o : BitVec 6) (s : State) :=
  loadForm p t b l o .ldT accFeTake true s
/-- FE.PROBE (R193). -/
def execFeProbe (p : Pred) (t b : Reg) (l : BitVec 4) (o : BitVec 6) (s : State) :=
  loadForm p t b l o .feProbe accFeRead false s

/-! ## Stores and fills (R193, R204) -/

/-- A plain store: alignment and the window are checked before issue, the rest from the queue (R192, R204). -/
def storeForm (p : Pred) (t b : Reg) (o : BitVec 6) (n : Nat) (s : State) : Host.Outcome State Fault Refusal :=
  issue (Meta.mem [b.toNat, t.toNat] [] false) p s fun s1 th =>
    let va := th.memAddr b o n
    if va.toNat % n ≠ 0 then .trap .align va (accStore n).info
    else if !s1.storeWindowOk s1.cur th va true then .trap .access va (accStore n).info
    else storeEntry (s1.effectRange th va n) th [(va, n, ofN ((th.readS t.toNat).toNat % 256 ^ n))] false

/-- ST (R193). -/
def execSt (p : Pred) (t b : Reg) (o : BitVec 6) (s : State) := storeForm p t b o 8 s
/-- ST.32 (R193). -/
def execSt32 (p : Pred) (t b : Reg) (o : BitVec 6) (s : State) := storeForm p t b o 4 s
/-- ST.16 (R193). -/
def execSt16 (p : Pred) (t b : Reg) (o : BitVec 6) (s : State) := storeForm p t b o 2 s
/-- ST.8 (R193). -/
def execSt8 (p : Pred) (t b : Reg) (o : BitVec 6) (s : State) := storeForm p t b o 1 s

/-- A form of the bit without a register destination; its data is read at issue (R193). -/
def fillForm (p : Pred) (t : Option Reg) (b : Reg) (o : BitVec 6) (kind : ReqKind) (acc : Acc) (s : State) :
    Host.Outcome State Fault Refusal :=
  issue (Meta.mem (b.toNat :: (t.toList.map BitVec.toNat)) [] false) p s fun s1 th =>
    Req.run ⟨kind, acc, th.memAddr b o 8, match t with | some t => th.readS t.toNat | none => 0, 0, none, false, true⟩ s1 th

/-- ST.F (R193). -/
def execStF (p : Pred) (t b : Reg) (o : BitVec 6) (s : State) := fillForm p (some t) b o .stF accFeWrite s
/-- ST.S (R193). -/
def execStS (p : Pred) (t b : Reg) (o : BitVec 6) (s : State) := fillForm p (some t) b o .stS accFeWrite s
/-- FE.CLR (R193). -/
def execFeClr (p : Pred) (b : Reg) (o : BitVec 6) (s : State) := fillForm p none b o .feClr accFeTake s

/-! ## Atomics (R201) -/

/-- AMO.op: the address is s(Y); operand and result are s(X), and for CAS the new value is s(X + 1). -/
def amoForm (p : Pred) (x : Nat) (y : Reg) (l : BitVec 4) (op : Nat) (s : State) : Host.Outcome State Fault Refusal :=
  issue (Meta.mem (if op = 9 then [x, x + 1, y.toNat] else [x, y.toNat]) [x] true) p s fun s1 th =>
    Req.run ⟨.amo op, accFeWrite, th.readS y.toNat, th.readS x, if op = 9 then th.readS (x + 1) else 0,
      some (x, l.toNat), true, true⟩ s1 th

/-- AMO.ADD (R201). -/
def execAmoAdd (p : Pred) (x y : Reg) (l : BitVec 4) (s : State) := amoForm p x.toNat y l 0 s
/-- AMO.AND (R201). -/
def execAmoAnd (p : Pred) (x y : Reg) (l : BitVec 4) (s : State) := amoForm p x.toNat y l 1 s
/-- AMO.OR (R201). -/
def execAmoOr (p : Pred) (x y : Reg) (l : BitVec 4) (s : State) := amoForm p x.toNat y l 2 s
/-- AMO.XOR (R201). -/
def execAmoXor (p : Pred) (x y : Reg) (l : BitVec 4) (s : State) := amoForm p x.toNat y l 3 s
/-- AMO.MIN.S64 (R201). -/
def execAmoMinS64 (p : Pred) (x y : Reg) (l : BitVec 4) (s : State) := amoForm p x.toNat y l 4 s
/-- AMO.MAX.S64 (R201). -/
def execAmoMaxS64 (p : Pred) (x y : Reg) (l : BitVec 4) (s : State) := amoForm p x.toNat y l 5 s
/-- AMO.MIN.Z64 (R201). -/
def execAmoMinZ64 (p : Pred) (x y : Reg) (l : BitVec 4) (s : State) := amoForm p x.toNat y l 6 s
/-- AMO.MAX.Z64 (R201). -/
def execAmoMaxZ64 (p : Pred) (x y : Reg) (l : BitVec 4) (s : State) := amoForm p x.toNat y l 7 s
/-- AMO.SWAP (R201). -/
def execAmoSwap (p : Pred) (x y : Reg) (l : BitVec 4) (s : State) := amoForm p x.toNat y l 8 s
/-- AMO.CAS (R201): X is even, and x its upper four bits. -/
def execAmoCas (p : Pred) (x : BitVec 4) (y : Reg) (l : BitVec 4) (s : State) := amoForm p (2 * x.toNat) y l 9 s

/-! ## Reductions (R202, R203) -/

/-- RED.op, by the FN6 of the AMO of the same name. -/
def redForm (p : Pred) (x y : Reg) (op : Nat) (s : State) : Host.Outcome State Fault Refusal :=
  issue (Meta.mem [x.toNat, y.toNat] [] false) p s fun s1 th =>
    Req.run ⟨.red op, accFeWrite, th.readS y.toNat, th.readS x.toNat, 0, none, false, false⟩ s1 th

/-- RED.ADD (R202). -/
def execRedAdd (p : Pred) (x y : Reg) (s : State) := redForm p x y 0 s
/-- RED.AND (R202). -/
def execRedAnd (p : Pred) (x y : Reg) (s : State) := redForm p x y 1 s
/-- RED.OR (R202). -/
def execRedOr (p : Pred) (x y : Reg) (s : State) := redForm p x y 2 s
/-- RED.MIN.S64 (R202). -/
def execRedMinS64 (p : Pred) (x y : Reg) (s : State) := redForm p x y 4 s
/-- RED.MAX.S64 (R202). -/
def execRedMaxS64 (p : Pred) (x y : Reg) (s : State) := redForm p x y 5 s
/-- RED.MIN.Z64 (R202). -/
def execRedMinZ64 (p : Pred) (x y : Reg) (s : State) := redForm p x y 6 s
/-- RED.MAX.Z64 (R202). -/
def execRedMaxZ64 (p : Pred) (x y : Reg) (s : State) := redForm p x y 7 s

/-- RFENCE waits until the thread's pending reductions are performed or recorded (R203). -/
def execRfence (p : Pred) (s : State) : Host.Outcome State Fault Refusal :=
  issue Meta.plain p s fun s1 th => if th.pending = 0 then .done s1 else .block (.work .reductions) (BitVec.allOnes 64) s1

/-! ## Tickets (R267, R268) and block queues (R378) -/

/-- A claim on the word at s(Y). -/
def claimForm (p : Pred) (x y : Reg) (l : BitVec 4) (kind : ReqKind) (homeExec : Bool) (s : State) :
    Host.Outcome State Fault Refusal :=
  issue (Meta.mem [y.toNat] [x.toNat] true) p s fun s1 th =>
    Req.run ⟨kind, accClaim, th.readS y.toNat, 0, 0, some (x.toNat, l.toNat), true, homeExec⟩ s1 th

/-- TICKET (R267). -/
def execTicket (p : Pred) (x y : Reg) (l : BitVec 4) (s : State) := claimForm p x y l (.ticket false) true s
/-- TICKET.BC (R268). -/
def execTicketBc (p : Pred) (x y : Reg) (l : BitVec 4) (s : State) := claimForm p x y l (.ticket true) true s
/-- BQ.POP (R378). -/
def execBqPop (p : Pred) (x y : Reg) (l : BitVec 4) (s : State) := claimForm p x y l .bqPop false s

/-! ## Arrival at the holder -/

/-- The lower of two faulting lanes (R150). -/
def lowerLane (a : Option (Nat × Word × Word)) (b : Nat × Word × Word) : Nat × Word × Word :=
  match a with
  | some x => if x.1 < b.1 then x else b
  | none => b

/-- One lane of a vector load is read (R149, R245). With the last of them the load is over: its lowest faulting lane, if it
has one, is its fault (R150). -/
def State.readLaneOf (s0 : State) (f : Flight) (ls : List (Nat × Word × Nat × Keying)) (bad : Option (Nat × Word × Word))
    (l : Nat × Word × Nat × Keying) : State :=
  let s := s0.correct l.2.2.1
  let bad1 := if s.eccAt l.2.2.1 then some (lowerLane bad (l.1, l.2.1, s.eccTier l.2.2.1)) else bad
  let rest := ls.filter fun x => x.1 != l.1
  let v := BitVec.ofNat 32 (s.loadBytes { f with cipher := l.2.2.2 } l.2.2.1 4)
  let s1 := if f.orphan || s.eccAt l.2.2.1 then s else s.modThread f.thread fun th =>
    { th with outs := modFirst (fun o => o.id == f.id) (fun o => { o with value := match o.value with
      | .lanes xs => .lanes (xs ++ [(l.1, v)])
      | _ => .lanes [(l.1, v)] }) th.outs }
  if !rest.isEmpty then s1.modFlight f.id fun x => { x with kind := .vload rest bad1 }
  else (match bad1 with
    | some b => s1.deliver f (.fault .eccUncorrectable b.2.1 b.2.2)
    | none => s1).dropFlight f.id

/-- PLAIN_ACCESS_ARRIVAL (R193): a load, ST.S, FE.CLR or FE.PROBE reaches its holder; of a vector load one lane does,
the lane named or, where that lane is not wanted, the lowest. -/
def execPlainAccessArrival (id lane : Nat) (s : State) : Host.Outcome State Fault Refusal :=
  match s.flight? id with
  | none => .next s
  | some f =>
    if f.stage ≠ .sent then .next s
    else match f.kind with
    | .vload ls bad =>
      match (ls.find? fun l => l.1 == lane).or ls.head? with
      | none => .next (s.dropFlight id)
      | some l =>
        if s.held l.2.2.1 ∨ s.blocked { f with kind := .load 4 false, key := l.2.2.1 } then .next s
        else if s.grantSaved f.ctx l.2.2.1 then .next (s.holdSaved l.2.2.1 (.lane id l.1))
        else .next (s.readLaneOf f ls bad l)
    | k => if k.awaits.isSome ∨ s.blocked f then .next s else .next (s.arrive f)

/-- CONDITIONAL_REQUEST_ARRIVAL (R195): LD.W, LD.T, ST.F, an atomic's take, TICKET or BQ.POP reaches its holder. -/
def execConditionalRequestArrival (id : Nat) (s : State) : Host.Outcome State Fault Refusal :=
  match s.flight? id with
  | none => .next s
  | some f =>
    if f.stage ≠ .sent ∨ f.kind.awaits = none ∨ f.kind.isRed ∨ s.blocked f then .next s else .next (s.arrive f)

/-- REDUCTION_PERFORM (R202): the reduction agent's take reaches the holder. -/
def execReductionPerform (id : Nat) (s : State) : Host.Outcome State Fault Refusal :=
  match s.flight? id with
  | none => .next s
  | some f => if f.stage ≠ .sent ∨ !f.kind.isRed ∨ s.blocked f then .next s else .next (s.arrive f)

/-- PARK_RESEND (R286): a request refused for a full park list reaches the holder again. -/
def execParkResend (id : Nat) (s : State) : Host.Outcome State Fault Refusal :=
  match s.flight? id with
  | none => .next s
  | some f => if f.stage = .refused then .next (s.arrive { f with stage := .sent }) else .next s

/-- ATOMIC_TAKE_GRANT (R201): the take is granted; the core computes the new value and sends the fill, and the thread
goes on within its window. -/
def execAtomicTakeGrant (id : Nat) (s : State) : Host.Outcome State Fault Refusal :=
  match s.flight? id with
  | none => .next s
  | some f =>
    match f.stage, f.kind with
    | .granted old, .amo op =>
      let s1 := s.modFlight id fun x => { x with stage := .filling (amoOp op old f.data f.data2) }
      .next ((s1.deliver f (.word old)).resume f.thread id)
    | _, _ => .next s

/-- ATOMIC_FILL_ARRIVAL (R196): the fill ends the hold. -/
def execAtomicFillArrival (id : Nat) (s : State) : Host.Outcome State Fault Refusal :=
  match s.flight? id with
  | none => .next s
  | some f =>
    match f.stage with
    | .filling new => .next (s.fillAtomic f new)
    | _ => .next s

/-! ## Budgets (R198, R387) -/

/-- A budget counted from rotation t0 is exhausted: rotation t0 + b is over (R387). -/
def exhausted (t0 : Nat) (b : Word) (beat : Nat) : Bool := b != BitVec.allOnes 64 && decide (t0 + b.toNat < beat)

/-- The budget of a conditional request that has not been performed is spent, and no withdrawal has left (R198, R387). -/
def Flight.spent (f : Flight) (beat : Nat) : Bool :=
  f.kind.awaits.isSome && !f.withdrawal && exhausted f.issuedAt f.budget beat
    && (match f.stage with | .granted _ | .filling _ | .withdrawn => false | _ => true)

/-- WITHDRAWAL (R198, R368): the budget of a conditional request is spent and a withdrawal leaves the core. -/
def execWithdrawal (id : Nat) (s : State) : Host.Outcome State Fault Refusal :=
  match s.flight? id with
  | none => .next s
  | some f =>
    if f.spent s.beat then .next (s.modFlight id fun x => { x with withdrawal := true }) else .next s

/-- WITHDRAWAL_ARRIVAL (R198, R385): the withdrawal reaches the holder, which removes the request if it is still queued or waits for a saved band;
a claim removed lets the next one have its turn (R378). A request refused for a full park list is withdrawn at its core; one
sent to a remote home is followed by a withdraw (R368); one that has not left yet is offered to its holder first. -/
def execWithdrawalArrival (id : Nat) (s : State) : Host.Outcome State Fault Refusal :=
  match s.flight? id with
  | none => .next s
  | some f =>
    if !f.withdrawal then .next s
    else match f.stage with
    | .queued _ =>
      let s1 := (s.unjoin f).modFlight id fun x => { x with stage := .withdrawn, data2 := if f.kind = .bqPop then 2 else x.data2 }
      .next ((s1.unspill (holderOf f.key)).kickClaims)
    | .parked _ => .next ((s.parkFree f).modFlight id fun x => { x with stage := .withdrawn })
    | .refused => .next (s.modFlight id fun x => { x with stage := .withdrawn })
    | .remote => .next (s.sendWithdraw id)
    | _ => .next s

/-- The dispatcher is told of an FE_TIMEOUT of a thread (R198, R306). -/
def State.tellTimeout (s : State) (t : ThreadRef) : State :=
  match s.thread? t with
  | some th => { s with feReports := s.feReports ++ [s.prioOf th] }
  | none => s

/-- FE_TIMEOUT (R198): the confirmation of a withdrawal returns and the access has not been performed. The thread traps,
precisely or window-late; a reduction becomes a record (R202); a halted thread's request is forgotten (R385). The die
dispatcher is told (R306). -/
def execFeTimeout (id : Nat) (s : State) : Host.Outcome State Fault Refusal :=
  match s.flight? id with
  | none => .next s
  | some f =>
    if f.stage ≠ .withdrawn then .next s
    else
      let told (s : State) := if f.detached.isSome then s else s.tellTimeout f.thread
      if f.orphan then .next (s.dropFlight id)
      else match f.kind with
      | .red _ =>
        match s.reductionFault f .feTimeout with
        | some s1 => .next (told s1)
        | none => .next s
      | .stF | .amo _ =>
        if f.detached.isSome then .next (told ((s.deliver f (.fault .feTimeout f.va 0)).dropFlight id))
        else
          let s1 := (s.dropFlight id).modThread f.thread fun th => { th with outs := th.outs.filter fun o => o.id != id }
          .next (told (s1.raise f.thread .feTimeout f.va 0 f.pc))
      | _ =>
        let s1 := (s.deliver f (.fault .feTimeout f.va 0)).dropFlight id
        .next (told s1)

/-! ## Results (R21, R25) -/

/-- Every core of a cluster whose slots belong to a context takes a broadcast ticket (R268). -/
def State.broadcast (s : State) (core ctx : Nat) (v : Word) : State :=
  (range (clusterOf core * 64) 64).foldl (fun a n =>
    if a.heldBy n ctx then a.modCore n fun c => { c with tktLast := v } else a) s

/-- No ticket formed earlier in the cluster still waits to be broadcast (R268). -/
def State.bcastTurn (s : State) (core n : Nat) : Bool :=
  !(s.allThreads.any fun p => clusterOf p.1.core == clusterOf core && p.2.outs.any fun o =>
    match o.value with | .bcast _ m => decide (m < n) | _ => false)

/-- An outstanding result is marked written; it is forgotten once its window is over. -/
def Thread.written (th : Thread) (id : Nat) : Thread :=
  { th with outs := (modFirst (fun o => o.id == id) (fun o => { o with value := .written }) th.outs).filter fun o =>
    !(o.left == 0 && o.value == .written) }

/-- A result has arrived and may be written now: a loaded one from the second rotation after issue on (R194), results bound
for s31 in issue order (R64), a broadcast ticket in its turn (R268), a vector result with its last lane. -/
def State.resultReady (s : State) (t : ThreadRef) (th : Thread) (o : Out) : Bool :=
  decide (o.due ≤ s.beat)
    && !(o.reg == 31 && o.cls == .s && th.outEn
      && th.outs.any fun x => decide (x.id < o.id) && x.cls == .s && x.reg == 31 && x.value != .written)
    && (match o.value with
      | .word _ => true
      | .bcast _ n => s.bcastTurn t.core n
      | .lanes _ => (s.flight? o.id).isNone
      | _ => false)

/-- The effect on band.OUT of a result that is pushed to the outbound port as it is written (R64, R308). -/
def State.portOut (s : State) (th : Thread) (o : Out) : State := if o.reg = 31 ∧ th.outEn then s.effectOut th else s

/-- RESULT_WRITE (R21, R194): a result is written to its register. One that has faulted is not: its trap is taken in its
thread's next cycle (R25). -/
def execResultWrite (t : ThreadRef) (id : Nat) (s : State) : Host.Outcome State Fault Refusal :=
  match s.thread? t with
  | none => .next s
  | some th =>
    match th.outs.find? fun o => o.id == id with
    | none => .next s
    | some o =>
      if !s.resultReady t th o then .next s
      else match o.value with
      | .word v => .next ((s.portOut th o).setThread t ((th.writeS o.reg v s.beat).written id))
      | .bcast v _ => .next (((s.portOut th o).setThread t ((th.writeS o.reg v s.beat).written id)).broadcast t.core th.ctx v)
      | .lanes ls => .next (s.setThread t ((ls.foldl (fun a l => a.writeLane o.reg l.1 l.2) th).written id))
      | _ => .next s

/-! ## The store queue (R204) -/

/-- The entry of a store queue that leaves in this rotation for its checks, if one has yet to: the oldest that has not left, in the
rotation after its issue, and at most one per thread in a rotation (R204). -/
def Thread.leaving? (th : Thread) (beat : Nat) : Option StoreEntry :=
  (th.storeQ.find? fun e => e.leftAt.isNone).filter fun e =>
    decide (e.at_ < beat) && !(th.storeQ.any fun x => x.leftAt == some beat)

/-- STORE_LEAVE (R204): the oldest entry that has not left leaves for its checks. -/
def execStoreLeave (t : ThreadRef) (s : State) : Host.Outcome State Fault Refusal :=
  match s.thread? t with
  | none => .next s
  | some th =>
    match th.leaving? s.beat with
    | none => .next s
    | some e => .next (s.setThread t { th with
        storeQ := modFirst (fun x => x.id == e.id) (fun x => { x with leftAt := some s.beat }) th.storeQ })

/-- The outcome of one piece's checks. -/
inductive PieceCheck where
  | ok (key : Nat) (cipher : Keying)
  | remote (w : FabWin)
  | bad (c : Cause)
  | miss
  deriving DecidableEq, Repr

/-- Steps 3 and 4 of R192 for one piece of a store, and errors its holder reports. -/
def State.checkPiece (s : State) (t : ThreadRef) (th : Thread) (e : StoreEntry) (va : Word) (n : Nat) : PieceCheck :=
  match s.resolve t th va (if e.vec then accVStore else accStore n) (.req e.id) with
  | .ok key x => if s.eccAt key then .bad .eccUncorrectable else .ok key (s.cipherFor th x)
  | .remote w => .remote w
  | .zero => .bad .access
  | .fault c _ => .bad c
  | .miss => .miss

/-- log2 of an access size. -/
def log2Size (n : Nat) : Nat := n.log2

/-- A write to host memory waits for the host's acknowledgement (R257, R327). -/
def State.noteHost (s : State) (key id : Nat) (t : ThreadRef) : State :=
  if isHost key then { s with hostWrites := s.hostWrites ++ [(id, t)] } else s

/-- The first piece of an entry goes: performed at its holder, sent to a remote home, recorded as a fault, or waiting for
a translation or a free record. The entry leaves the queue with its last piece. A halted thread's record goes to the
context's fault queue (R207). A vector store records its lowest faulting lane alone (R150). DEDUCED: log 11. -/
def State.checkEntry (s : State) (t : ThreadRef) (th : Thread) (e : StoreEntry) : State :=
  let drop (bad : Bool) (s : State) := s.modThread t fun x => { x with storeQ := match e.pieces.tail with
    | [] => eraseFirst (fun y => y.id == e.id) x.storeQ
    | ps => modFirst (fun y => y.id == e.id) (fun y => { y with pieces := ps, keys := y.keys.tail, failed := none, recorded := y.recorded || bad }) x.storeQ }
  let record (c : Cause) (va data : Word) (n : Nat) : State :=
    match s.writeRecord t.core t.slot c.code 0 false (log2Size n) e.pc va data with
    | some s1 => drop true (if th.halted then s1.moveRecords t th.ctx else s1)
    | none => s.modThread t fun x => { x with
        storeQ := modFirst (fun y => y.id == e.id) (fun y => { y with failed := some (c.code, va, data) }) x.storeQ }
  match e.pieces with
  | [] => drop false s
  | (va, n, data) :: _ =>
    match e.failed with
    | some f => record (match f.1 with
        | 3 => .access | 4 => .unmapped | 7 => .feUnsupported | _ => .eccUncorrectable) f.2.1 f.2.2 n
    | none =>
      match s.checkPiece t th e va n with
      | .ok key cipher =>
        if s.held key ∨ s.blockedBy t e.id key false true false then s
        else if s.grantSaved th.ctx key then s.holdSaved key (.store t)
        else drop false ((s.writeAs cipher key n data.toNat).noteHost key e.id t)
      | .remote w =>
        if s.streamFull w.port ∨ s.blockedBy t e.id w.key false true false then s
        else drop false (s.postFabric (FabReq.mk' e.id (FabTx.request 2 th.ctx w (log2Size n) [data]) w none (some t) (some t) va e.pc))
      | .bad c => (if e.vec ∧ e.recorded then drop true s else record c va data n).meetFailure t.core (.req e.id)
      | .miss => s.joinMiss (unitOf t.core) th.ctx va 1 t (.req e.id)

/-- STORE_CHECK (R204): ten rotations after it left, the oldest entry finishes its checks; its pieces are performed in
order at their holders or recorded. -/
def execStoreCheck (t : ThreadRef) (s : State) : Host.Outcome State Fault Refusal :=
  match s.thread? t with
  | none => .next s
  | some th =>
    match th.storeQ with
    | [] => .next s
    | e :: _ =>
      match e.leftAt with
      | none => .next s
      | some r =>
        if r + 10 ≤ s.beat then
          if e.pieces.isEmpty then .next (s.checkEntry t th e)
          else .next (e.pieces.foldl (fun a _ => match a.thread? t with
            | none => a
            | some th1 => match th1.storeQ with
              | x :: _ => if x.id = e.id then a.checkEntry t th1 x else a
              | [] => a) s)
        else .next s

end Sys2Proof.Machine
end

