-- ==== Sys2Proof/Machine/Fetch.lean ====
section
/-! DEFINITION. Which thread may issue (R155, R162, R173, R304), and the instruction word it issues (R117, R127, R156,
R161). -/

namespace Sys2Proof.Machine

/-- A wait that ends by trying the instruction again; the others end by an event that completes the instruction. DEDUCED: log 8. -/
def WaitKind.retries : WaitKind → Bool
  | .result | .fetch _ | .miss _ | .port | .room | .older | .batch | .windows | .sleep => true
  | _ => false

/-- The thread has reached the boundary at which it stops: its band is being saved (R304, R310), or SQKILL has named it
(R173). -/
def State.stopping (s : State) (th : Thread) : Bool :=
  s.savingBand th || (match th.killAt with | some r => decide (r ≤ s.beat) | none => false)

/-- A member held the channel of this publisher in the rotation before (R174). A trap handler of the publisher goes on. DEDUCED: log 65. -/
def State.heldBack (s : State) (t : ThreadRef) (th : Thread) : Bool :=
  th.sq == .publishing && th.mode == .run && (match (s.core t.core).pub with | some b => b.heldPrev | none => false)

/-- The slot is free to begin something in this rotation (R103, R130, R155). -/
def State.slotFree (s : State) (th : Thread) : Bool :=
  th.live && !th.issued && th.busy == 0 && decide (th.notBefore ≤ s.beat)

/-- Whether a slot has an instruction to issue in its cycle of this rotation (R155). A member issues only what is due to
it (R162), and executes what was published before it stops (R173, R304); a publisher that is held issues nothing (R174), and one that
has resumed begins together with the others of its closed set (R305). -/
def State.canIssue (s : State) (t : ThreadRef) : Bool :=
  match s.thread? t with
  | none => false
  | some th =>
    s.slotFree th && th.together.isNone
      && (match th.handler with | some h => h.busy | none => true) && !s.heldBack t th
      && (match th.wait with | none => true | some w => w.kind.retries)
      && (if th.member then decide (0 < th.subDue) && !th.subBuf.isEmpty else !s.stopping th)

/-- The word of the thread's next instruction, if it is at hand: from its channel (R161), fetched before (R127), or in
the core's instruction cache (R156). -/
def State.nextWord? (s : State) (t : ThreadRef) (th : Thread) : Option (BitVec 32) :=
  if th.member then th.subBuf.head?.map ChanEntry.word
  else match th.fetched with
    | some (a, w) => if a = th.pc then some w else none
    | none => ((s.core t.core).icache.find? fun e => e.1 == th.ctx && e.2.1 == th.pc).map fun e => e.2.2

/-- What a thread does in its cycle. -/
inductive Fetch where
  /-- nothing to issue -/
  | idle
  /-- a store fault is delivered in place of its instruction (R206) -/
  | storeFault
  /-- a breakpoint stops it (R343) -/
  | breakpoint
  /-- a trap stands in its place (R25, R26) -/
  | trap
  /-- the word reached the member with an uncorrectable error (R350) -/
  | spoiled
  /-- the word has to be fetched -/
  | missing (a : Word)
  | word (w : BitVec 32)
  deriving DecidableEq, Repr

/-- A session may reach a context: KDBG = 1. -/
def State.sessionMay (s : State) (ctx : Nat) : Bool := match s.context? ctx with | some c => c.kdbg | none => false

/-- A session may reach a thread: one of a context with KDBG = 1, and none of the firmware's (R343). -/
def State.sessionReaches (s : State) (th : Thread) : Bool := s.sessionMay th.ctx && !th.privileged

/-- A kernel debug session holds a breakpoint at the address of the thread's next instruction (R343). -/
def State.breakAt (s : State) (th : Thread) : Bool :=
  s.sessionReaches th && (match s.context? th.ctx with
    | some c => c.breakpoints.any fun b => b.2 == th.ipc
    | none => false)

/-- A publisher that has resumed can begin: its word is at hand, or something stands in its place (R305). -/
def State.canBegin (s : State) (t : ThreadRef) (th : Thread) : Bool :=
  !th.live || s.stopping th || th.trapDue || s.storeFaultPending t || s.breakAt th || (s.nextWord? t th).isSome

/-- The publishers of a closed set that has resumed begin in one rotation, once each of them can (R305). DEDUCED: log 22. -/
def State.beginTogether (s : State) : State :=
  let waits := s.allThreads.filter fun p => p.2.together.isSome && !s.canBegin p.1 p.2
  s.allThreads.foldl (fun a p =>
    if p.2.together.isNone || waits.any (fun q => q.2.together == p.2.together) then a
    else a.modThread p.1 fun th => { th with together := none }) s

/-- What the thread of a slot does in its cycle (R25, R155, R206, R343). -/
def State.fetchFor (s : State) (t : ThreadRef) : Fetch :=
  match s.thread? t with
  | none => .idle
  | some th =>
    if s.slotFree th && th.trapDue then .trap
    else if !s.canIssue t then .idle
    else if th.mode != .trap && (th.wait.map Wait.kind) != some .older && s.storeFaultPending t then .storeFault
    else if s.breakAt th then .breakpoint
    else if th.member && (match th.subBuf.head? with | some e => e.bad | none => false) then .spoiled
    else match s.nextWord? t th with
      | some w => .word w
      | none => .missing th.ipc

/-! ## The cycles of a rotation (R7, R155, R162) -/

/-- The cycle of a slot in this rotation is over. -/
def State.passed (s : State) (t : ThreadRef) : Bool :=
  decide (t.slot < s.cycle) || (t.slot == s.cycle && s.turned.contains t)

/-- A word is due to the member by now, and it has not been told (R162). -/
def Thread.wordDue (th : Thread) (beat : Nat) : Bool :=
  th.member && !th.halted && (match th.subBuf[th.subDue]? with
    | some e => decide (e.rot + th.sqDepth ≤ beat)
    | none => false)

/-- A lane of a vector load to the core's own scratchpad or RECORD area can be performed now. -/
def State.laneDue (s : State) (t : ThreadRef) (f : Flight) (key : Nat) : Bool :=
  tierOf key == 3 && keyCore key == t.core && !s.held key && !s.grantSaved f.ctx key && !s.blocked { f with kind := .load 4 false, key := key }

/-- A load, LD.W, LD.T or FE.PROBE of the thread to its own core's scratchpad or RECORD area, issued two rotations ago, has
not reached it, and nothing older of the thread holds it back (R191, R194, R214). -/
def State.loadDue (s : State) (t : ThreadRef) (f : Flight) : Bool :=
  f.of t && f.stage == .sent && decide (f.issuedAt + 2 ≤ s.beat) && (match f.kind with
    | .load .. | .ldW | .ldT | .feProbe => tierOf f.key == 3 && keyCore f.key == t.core && !s.blocked f
    | .vload ls _ => ls.any fun l => s.laneDue t f l.2.2.1
    | _ => false)

/-- What is left of the load is due now, whole. -/
def State.loadEnds (s : State) (t : ThreadRef) (f : Flight) : Bool :=
  s.loadDue t f && (match f.kind with | .vload ls _ => ls.all fun l => s.laneDue t f l.2.2.1 | _ => true)

/-- A result has been written or has faulted, or is written in this rotation before the thread's cycle (R194, R275). -/
def State.resultOver (s : State) (t : ThreadRef) (th : Thread) (o : Out) : Bool :=
  match o.value with
  | .written | .fault .. => true
  | _ => s.resultReady t th o || s.flights.any fun f => f.id == o.id && s.loadEnds t f

/-- What must come before a slot's cycle in this rotation, and has not: a word due to a member (R162), a result that is due
(R21, R194), and the access that brings it (R194, R214). -/
def State.owed (s : State) (t : ThreadRef) : Bool :=
  match s.thread? t with
  | some th => th.wordDue s.beat || (th.outs.any fun o => s.resultReady t th o) || (s.flights.any fun f => s.loadDue t f)
  | none => false

/-- A slot has something to do in its cycle of this rotation. -/
def State.ready (s : State) (t : ThreadRef) : Bool := !s.passed t && (s.fetchFor t != .idle || s.owed t)

/-- It is the slot's cycle: what is due to it has reached it, its cycle is not over, and no slot of a lower number has its
own still to use (R155, R162). -/
def State.inTurn (s : State) (t : ThreadRef) : Bool :=
  !s.passed t && !s.owed t && !(s.allSlots.any fun u => decide (u.slot < t.slot) && s.ready u)

/-- A slot's cycle begins. -/
def State.turnTo (s : State) (t : ThreadRef) : State :=
  { s with cycle := t.slot, turned := if s.cycle = t.slot then t :: s.turned else [t] }

/-- An illegal word (R39): ILL with the word in trap.info. -/
def State.illegal (s : State) (t : ThreadRef) (w : BitVec 32) : State :=
  match s.thread? t with
  | none => s
  | some th => s.raise t .ill 0 (ofN w.toNat) th.ipc

/-- A halyard word with an uncorrectable error (R77, R350): ECC_UNCORRECTABLE, tier 4, in the receiving member at that channel
PC. -/
def State.spoilt (s : State) (t : ThreadRef) : State :=
  match s.thread? t with
  | none => s
  | some th => s.raise t .eccUncorrectable th.ipc (ofN (4 * 2 ^ 56)) th.ipc

/-- A thread stops for a debugger at the boundary before the instruction at its PC (R343). A member's instruction stays
in its buffer. DEDUCED: log 32. -/
def State.stopThread (s : State) (t : ThreadRef) : State :=
  match s.thread? t with
  | none => s
  | some th => (s.setThread t { th with stopped := true, wait := none }).traceEvent 3 th.ctx t.core t.slot th.ipc 0

/-- INSTRUCTION_FETCH (R117, R156): the word at a thread's PC is read from memory or a scratchpad into the instruction
cache, once no atomic holds it (R196). A fault is raised at the target: ECC_UNCORRECTABLE is of tier 4 (R77). DESIGN CHOICE: log 31. -/
def execInstructionFetch (t : ThreadRef) (s : State) : Host.Outcome State Fault Refusal :=
  match s.thread? t with
  | none => .next s
  | some th =>
    if !th.live || th.member || !(match th.wait with | none => true | some w => w.kind.retries)
        || (s.nextWord? t th).isSome || s.stopping th then .next s
    else
      let can := s.canIssue t || (th.together.isSome && s.slotFree th)
      match s.resolve t th th.pc accFetch (.thread t) with
      | .ok key e =>
        if s.eccAt key then
          (if can then .next (s.raise t .eccUncorrectable th.pc (ofN (4 * 2 ^ 56)) th.pc) else .next s)
        else if s.held key then .next s
        else
          let w := BitVec.ofNat 32 (s.readAs (s.cipherFor th e) key 4)
          let s1 := ((s.correct key).refill t.core e).modCore t.core fun c => { c with icache := (th.ctx, th.pc, w) :: c.icache }
          .next (s1.modThread t fun x => { x with fetched := some (th.pc, w) })
      | .fault c info => if can then .next ((s.forgetFailures t).raise t c th.pc info th.pc) else .next s
      | .miss =>
        if can then .next ((s.joinMiss (unitOf t.core) th.ctx th.pc 2 t (.thread t)).await t (.miss th.pc)) else .next s
      | _ => .next s

/-- A store fault is delivered at the thread's next instruction (R206). -/
def State.faultStore (s : State) (t : ThreadRef) : State :=
  match s.thread? t with
  | none => s
  | some th => s.deliverStoreFault t th.ipc

/-- STORE_FAULT (R206): a thread in run or control mode that owns an undelivered record traps in place of its next issue, in its
slot's cycle (R155). Every record it owns is marked delivered. -/
def execStoreFault (t : ThreadRef) (s : State) : Host.Outcome State Fault Refusal :=
  match s.fetchFor t with
  | .storeFault => if s.inTurn t then .next ((s.turnTo t).faultStore t) else .next s
  | _ => .next s

end Sys2Proof.Machine
end

