-- ==== Sys2Proof/Machine/Special.lean ====
section
/-! DEFINITION. Special registers: MFS and MTS over every register of R70, R182 and R334 (R69, R120, R121), and the rows
that name single effects of them. -/

namespace Sys2Proof.Machine

/-! ## Reading (R69-R74, R182, R334) -/

/-- STATE of sq.state (R74). -/
def SqState.code : SqState → Nat
  | .fetching => 0 | .publishing => 1 | .subscribed => 2 | .away => 3 | .held => 4 | .trapped => 5

/-- sq.state (R74). -/
def Thread.sqWord (th : Thread) : Word :=
  ofN (th.sq.code + th.sqRdv % 32 * 2 ^ 3 + th.sqCh % 2 ^ 15 * 2 ^ 8 + th.sqDepth % 16 * 2 ^ 23)

/-- sq.state as the thread reads it: a held member has begun its instruction and holds its channel no more (R74, R174). -/
def Thread.sqSeen (th : Thread) : Word := ({ th with sq := if th.sq = .held then SqState.subscribed else th.sq } : Thread).sqWord

/-- ctl.role (R334); a compute core has none and never reads it (R68). -/
def Role.code : Role → Nat
  | .translation => 0 | .clusterCtl => 1 | .dieCtl => 2 | .masthead => 3 | .compute => 0

/-- Populated far-memory bytes of an I/O die, and of the package (R70). -/
def capFar (i : Nat) : Nat := Config.farBytes i
/-- cap.far (R70). -/
def capFarAll : Nat := capFar 0 + capFar 1 + capFar 2 + capFar 3

/-- A coordinate of id.core (R70), or 0xFFFF on a masthead core (R375). -/
def State.idCoord (s : State) (ctx n : Nat) (y : Bool) : Nat :=
  if roleOf n = .masthead then 0xFFFF
  else if y then s.idCore ctx n / 192 else s.idCore ctx n % 192

/-- id.cluster: 0-15 in the die, or the masthead core (R375). -/
def idCluster (n : Nat) : Nat := if roleOf n = .masthead then (n - mastBase) % 16 else clusterOf n % 16

/-- MFS: the special register numbered n as the thread reads it now (R69, R70). -/
def State.readSreg (s : State) (t : ThreadRef) (th : Thread) (n : Nat) : Word :=
  let c := s.core t.core
  let sl := s.slot t
  match n with
  | 0x000 => ofN (s.idCore th.ctx t.core)
  | 0x001 => ofN (s.idCoord th.ctx t.core false)
  | 0x002 => ofN (s.idCoord th.ctx t.core true)
  | 0x003 => ofN t.slot
  | 0x004 => ofN (dieOf t.core)
  | 0x005 => ofN (idCluster t.core)
  | 0x006 => ofN th.band
  | 0x007 => ofN th.launch
  | 0x008 => ofN th.tib
  | 0x009 => ofN th.ctx
  | 0x020 => th.scopeD
  | 0x021 => th.feBudget
  | 0x022 => th.chBudget
  | 0x023 => th.barBudget
  | 0x024 => th.portCfg
  | 0x025 => th.portTag
  | 0x026 => th.fpCtl
  | 0x027 => th.fpFlags
  | 0x028 => th.rng
  | 0x029 => th.lmask.setWidth 64
  | 0x02A => th.sqLeftpc
  | 0x02B => th.sqSeen
  | 0x02C => c.mxCtx
  | 0x02D => c.tktLast
  | 0x030 => ofN s.beat
  | 0x031 => ofN (8 * s.beat + t.slot)
  | 0x040 => th.trapVec
  | 0x041 => ofN (th.trapCause.toNat + b2n th.trapCtl * 2 ^ 8)
  | 0x042 => th.trapPc
  | 0x043 => th.trapAddr
  | 0x044 => th.trapInfo
  | 0x060 => ofN c.mboxBase
  | 0x061 => ofN c.mboxSize
  | 0x062 => ofN c.mboxHead
  | 0x063 => ofN c.mboxTail
  | 0x080 => ofN th.rotIssued
  | 0x081 => ofN th.rotMem
  | 0x082 => ofN th.rotMsg
  | 0x083 => ofN th.rotVacant
  | 0x0A0 => 8
  | 0x0A1 => 32
  | 0x0A2 => 12
  | 0x0A3 => 196608
  | 0x0A4 => 256
  | 0x0A5 => ofN capFarAll
  | 0x4000 => s.ctxBase
  | 0x4001 => sl.evpend
  | 0x4002 => sl.evmask
  | 0x4003 => sl.timer
  | 0x4004 => ofN (roleOf t.core).code
  | 0x4005 => ofN (b2n s.ctxActBusy.isSome + s.ctxActStatus % 16 * 2 ^ 4)
  | 0x4010 => ofN s.fstep
  | 0x4011 => ofN s.pwrLimit
  | 0x4012 => ofN s.pwrMeas
  | 0x4013 => ofN s.pwrTemp
  | 0x4020 => ofN (s.die (dieOf t.core)).frSeq
  | 0x4030 => s.keyCmd
  | 0x4031 => ofN (b2n s.keyBusy + 2 * b2n s.keyErr)
  | 0x4040 => ofN (b2n s.dbgUnlocked + 2 * b2n s.challenge.isSome)
  | 0x4050 => ofN (s.die (dieOf t.core)).errCorr
  | 0x4051 => ofN (s.die (dieOf t.core)).errUncorr
  | _ =>
    if 0x010 ≤ n ∧ n ≤ 0x012 then ofN (th.tileOrg.getD (n - 0x010) 0)
    else if 0x013 ≤ n ∧ n ≤ 0x015 then ofN (th.tileExt.getD (n - 0x013) 0)
    else if 0x048 ≤ n ∧ n ≤ 0x04B then (th.k[n - 0x048]?).getD 0
    else if 0x088 ≤ n ∧ n ≤ 0x090 then ofN ((c.rotHist[n - 0x088]?).getD 0)
    else if 0x0A6 ≤ n ∧ n ≤ 0x0A9 then ofN (capFar (n - 0x0A6))
    else if 0x100 ≤ n ∧ n ≤ 0x13F then ofN ((c.tc[n - 0x100]?).getD 0)
    else 0

/-- k0-k3 (R68). -/
def sregK (n : Nat) : Bool := 0x048 ≤ n && n ≤ 0x04B
/-- Registers of control privilege (R67). -/
def sregCtl (n : Nat) : Bool := 0x4000 ≤ n

/-- A read that clears an error counter of the reading core's die (R334: RC). -/
def State.clearOnRead (s : State) (t : ThreadRef) (n : Nat) : State :=
  if n = 0x4050 then s.modDie (dieOf t.core) fun d => { d with errCorr := 0 }
  else if n = 0x4051 then s.modDie (dieOf t.core) fun d => { d with errUncorr := 0 }
  else s

/-- MFS (R120): s(D) := the special register. Every older instruction of the thread has raised its flags (R121). -/
def execMfs (p : Pred) (d : Reg) (c : BitVec 15) (s : State) : Host.Outcome State Fault Refusal :=
  let m := { Meta.scalar [] [d.toNat] with priv := sregCtl c.toNat, trapOnly := sregK c.toNat }
  issue m p s fun s1 th =>
    .done ((s1.modThread s1.cur fun x => x.writeS d.toNat (s1.readSreg s1.cur th c.toNat) s1.beat).clearOnRead s1.cur c.toNat)

/-! ## Writing -/

/-- A valid scope value (R241). -/
def scopeOk (w : Word) : Bool :=
  decide (wbits w 7 0 ≤ 191) && decide (wbits w 23 16 ≤ 191) && decide (wbits w 15 8 ≤ 127) && decide (wbits w 31 24 ≤ 127)
    && wbits w 63 34 == 0

/-- A logical core named by an instruction: in the context's core table and held by the context (R179, R187). -/
def State.coreNamed? (s : State) (ctx l : Nat) : Option Nat :=
  if 24576 ≤ l then none
  else match s.physical? ctx l with
    | none => none
    | some n => if s.heldBy n ctx then some n else none

/-- port.cfg with its reserved fields zero (R73). -/
def portCfgMask (v : Word) : Word := v &&& 0x0003FFFF03FFFF03#64

/-- PORTCFG, and MTS to port.cfg (R179). DEDUCED: log 30. -/
def portCfgOp (s : State) (th : Thread) (v0 : Word) : Res :=
  let v := portCfgMask v0
  let up := wbits v 22 8
  let dn := wbits v 46 32
  if wbit v 0 && (s.coreNamed? th.ctx up).isNone then .trap .subRange 0 (ofN up)
  else if wbit v 1 && (s.coreNamed? th.ctx dn).isNone then .trap .subRange 0 (ofN dn)
  else if (wbits v 49 32 ≠ wbits th.portCfg 49 32 ∨ (wbit th.portCfg 1 ∧ !wbit v 1)) ∧ !th.outq.isEmpty then
    .block (.work (.portCfg v)) (BitVec.allOnes 64) s
  else .done (s.modThread s.cur fun x => { x with portCfg := v })

/-- Masthead core 0 of I/O die 0, which alone writes some registers (R334, R337). -/
def chiefCore : Nat := mastBase

/-- fp.ctl := v (R71): its reserved field is zero, and 5-7 leave RM as it was. -/
def fpCtlMask (was v : Word) : Word := ofN ((if wbits v 2 0 ≤ 4 then wbits v 2 0 else wbits was 2 0) + 8 * wbits v 3 3)

/-- rng := v (R70, R120): 0 stores 1. -/
def rngValue (v : Word) : Word := if v = 0 then 1 else v

/-- mbox.base or mbox.size written: HEAD and TAIL become 0 (R182). -/
def Core.mboxSet (c : Core) (w : Bool × Nat) : Core :=
  { c with mboxBase := if w.1 then w.2 else c.mboxBase, mboxSize := if w.1 then c.mboxSize else w.2, mboxHead := 0, mboxTail := 0 }

/-- An MTS to mbox.base or mbox.size: at once, or once the deliveries in progress have completed (R182). -/
def Core.mboxWrite (c : Core) (w : Bool × Nat) : Core :=
  if c.deliveries.isEmpty && c.mboxPend.isEmpty then c.mboxSet w else { c with mboxPend := c.mboxPend ++ [w] }

/-- An MTS to mbox.head: a value of SIZE or more is ignored (R182). -/
def Core.headWrite (c : Core) (v : Word) : Core :=
  let h := wbits v 17 3 * 8
  if v.toNat < c.mboxSize then { c with mboxHead := h } else c

/-- A key command that ERR answers (R337): slot 0, a reserved bit, an operation that is none, or a slot that an active
context names. DEDUCED: log 30. -/
def State.keyBad (s : State) (v : Word) : Bool :=
  wbits v 12 2 == 0 || wbits v 63 14 != 0 || decide (1 < wbits v 1 0) || s.contexts.any fun c => c.key == wbits v 12 2

/-- A write to key.cmd, whose reserved field reads zero (R11, R337): refused with ERR, or BUSY until every memory controller holds the change. -/
def State.keyWrite (s : State) (v : Word) : State :=
  if s.keyBusy then s
  else if s.keyBad v then { s with keyCmd := keepBits v 13 0, keyErr := true }
  else { s with keyCmd := keepBits v 13 0, keyErr := false, keyBusy := true }

/-- The special register numbered n := v, for a thread (R69-R74, R120, R182, R334). Read-only registers keep their
values. DEDUCED: log 30. -/
def State.writeSreg (s : State) (t : ThreadRef) (th : Thread) (n : Nat) (v : Word) : Res :=
  let own (f : Thread → Thread) : Res := .done (s.modThread t f)
  let core (f : Core → Core) : Res := .done (s.modCore t.core f)
  let slot (f : Slot → Slot) : Res := .done (s.modSlot t f)
  match n with
  | 0x020 => if scopeOk v then own fun x => { x with scopeD := v } else .done s
  | 0x021 => own fun x => { x with feBudget := v }
  | 0x022 => own fun x => { x with chBudget := v }
  | 0x023 => own fun x => { x with barBudget := v }
  | 0x024 => portCfgOp s th v
  | 0x025 => own fun x => { x with portTag := setBits x.portTag 15 8 (wbits v 15 8) }
  | 0x026 => own fun x => { x with fpCtl := fpCtlMask x.fpCtl v }
  | 0x027 => own fun x => { x with fpFlags := keepBits v 4 0 }
  | 0x028 => own fun x => { x with rng := rngValue v }
  | 0x029 => own fun x => { x with lmask := v.setWidth 32 }
  | 0x040 => own fun x => { x with trapVec := v &&& ~~~(0xFFF#64) }
  | 0x041 => if th.mode = .trap then own fun x => { x with trapCause := v.setWidth 8 } else .done s
  | 0x042 => if th.mode = .trap then own fun x => { x with trapPc := v } else .done s
  | 0x043 => if th.mode = .trap then own fun x => { x with trapAddr := v } else .done s
  | 0x044 => if th.mode = .trap then own fun x => { x with trapInfo := v } else .done s
  | 0x048 | 0x049 | 0x04A | 0x04B => own fun x => { x with k := x.k.setIfInBounds (n - 0x048) v }
  | 0x060 => core fun c => c.mboxWrite (true, wbits v 17 3 * 8)
  | 0x061 => core fun c => c.mboxWrite (false, wbits v 18 3 * 8)
  | 0x062 => core fun c => c.headWrite v
  | 0x4000 => .done { s with ctxBase := v }
  | 0x4001 => slot fun x => { x with evpend := x.evpend &&& ~~~v }
  | 0x4002 => slot fun x => { x with evmask := v }
  | 0x4003 => slot fun x => { x with timer := v, timerFired := false }
  | 0x4005 => .done (if s.ctxActBusy.isSome then s else { s with ctxActBusy := some v })
  | 0x4010 => .done (if t.core = chiefCore ∧ v.toNat ≤ 18 then { s with fstepPend := some v.toNat } else s)
  | 0x4011 => .done { s with pwrLimit := v.toNat }
  | 0x4030 => .done (if t.core = chiefCore then s.keyWrite v else s)
  | _ => .done s

/-- MTS (R120): the special register := s(D), from the thread's next instruction on (R121). -/
def execMts (p : Pred) (d : Reg) (c : BitVec 15) (s : State) : Host.Outcome State Fault Refusal :=
  let m := { Meta.scalar [d.toNat] [] with priv := sregCtl c.toNat, trapOnly := sregK c.toNat }
  issue m p s fun s1 th => s1.writeSreg s1.cur th c.toNat (th.readS d.toNat)

/-- PORTCFG (R179). -/
def execPortcfg (p : Pred) (a : Reg) (s : State) : Host.Outcome State Fault Refusal :=
  issue (Meta.scalar [a.toNat] []) p s fun s1 th => portCfgOp s1 th (th.readS a.toNat)

/-! ## Rows that name one effect of MTS and MFS

They take place as the step of the thread whose next instruction is that MTS or MFS with that value, in its slot's cycle
(R155), and at no other moment. -/

/-- The thread is about to execute the MTS (maj 0x21) or MFS (maj 0x20) of register n, its predicate holding; the number
of its s register. -/
def State.atSreg (s : State) (t : ThreadRef) (maj n : Nat) : Option Nat :=
  match s.fetchFor t, s.thread? t with
  | .word w, some th =>
    let x := w.toNat
    if bits x 26 20 = maj ∧ bits x 14 0 = n ∧ (bits x 30 27 = 15 ∧ bits x 31 31 = 0 ∨ bits x 30 27 ≤ 11)
        ∧ predHolds ⟨BitVec.ofNat 1 (bits x 31 31), BitVec.ofNat 4 (bits x 30 27)⟩ th then some (bits x 19 15) else none
  | _, _ => none

/-- The thread's own MTS of register n, run as its step if it is the next instruction and s(D) holds v. DESIGN CHOICE: log 39. -/
def mtsRow (t : ThreadRef) (n : Nat) (v : Word) (s : State) : Host.Outcome State Fault Refusal :=
  match s.atSreg t 0x21 n, s.thread? t, s.fetchFor t with
  | some d, some th, .word w =>
    if th.readS d = v ∧ s.inTurn t then
      execMts Pred.always (BitVec.ofNat 5 d) (BitVec.ofNat 15 n) { s.turnTo t with cur := t, ir := w }
    else .next s
  | _, _, _ => .next s

/-- PORT_CFG_WRITE (R179, R120). -/
def execPortCfgWrite (t : ThreadRef) (v : Word) (s : State) := mtsRow t 0x024 v s
/-- RNG_WRITE (R120): an MTS of 0 to rng stores 1. -/
def execRngWrite (t : ThreadRef) (v : Word) (s : State) := mtsRow t 0x028 v s
/-- CTL_EVPEND_CLEAR (R334): W1C. -/
def execCtlEvpendClear (t : ThreadRef) (v : Word) (s : State) := mtsRow t 0x4001 v s
/-- CTL_TIMER_WRITE (R334). -/
def execCtlTimerWrite (t : ThreadRef) (v : Word) (s : State) := mtsRow t 0x4003 v s

/-- MBOX_HEAD_WRITE (R182, R186): the step of the lowest slot of the core whose next instruction is that MTS. -/
def execMboxHeadWrite (core : Nat) (v : Word) (s : State) : Host.Outcome State Fault Refusal :=
  match (List.range 8).find? fun i =>
    match s.atSreg ⟨core, i⟩ 0x21 0x062, s.thread? ⟨core, i⟩ with
    | some d, some th => th.readS d == v
    | _, _ => false with
  | some i => mtsRow ⟨core, i⟩ 0x062 v s
  | none => .next s

/-- ERR_COUNT_READ (R334): the thread's own MFS of err.corr or err.uncorr, which clears it. -/
def execErrCountRead (t : ThreadRef) (uncorr : Bool) (d : Reg) (s : State) : Host.Outcome State Fault Refusal :=
  let n := if uncorr then 0x4051 else 0x4050
  match s.atSreg t 0x20 n, s.fetchFor t with
  | some d', .word w =>
    if d' = d.toNat ∧ s.inTurn t then execMfs Pred.always d (BitVec.ofNat 15 n) { s.turnTo t with cur := t, ir := w } else .next s
  | _, _ => .next s

/-- MBOX_BASE_WRITE (R182): a write to mbox.base or mbox.size that waited for a delivery takes effect. -/
def execMboxBaseWrite (core : Nat) (s : State) : Host.Outcome State Fault Refusal :=
  let c := s.core core
  match c.mboxPend with
  | [] => .next s
  | w :: r => if c.deliveries.isEmpty then .next (s.setCore core ({ c with mboxPend := r }.mboxSet w)) else .next s

end Sys2Proof.Machine
end

