-- ==== Sys2Proof/Machine/Control.lean ====
section
/-! DEFINITION. Control transfers (R117-R119), traps, returns and halting (R122-R125), store drain and instruction fence
(R126, R127), and SLEEP (R129). -/

namespace Sys2Proof.Machine

/-! ## Control transfer (R117, R118) -/

/-- PC + 4 × SignExt(disp, n) (R119). -/
def Thread.relative (th : Thread) {n : Nat} (disp : BitVec n) : Word := th.pc + 4 * disp.signExtend 64

/-- A transfer to a target, its checks made before anything is written (R117). A member applies no check and makes no
transfer (R118). -/
def transferTo (th : Thread) (target : Word) (aligned : Bool) (s : State) : Res :=
  if th.member then .jump s target
  else if !canonical target then .trap .access target 0
  else if aligned && wbits target 1 0 != 0 then .trap .align target 0
  else .jump s target

/-- BR (R119). -/
def execBr (p : Pred) (i : BitVec 20) (s : State) : Host.Outcome State Fault Refusal :=
  issue Meta.plain p s fun s1 th => transferTo th (th.relative i) false s1

/-- CALL (R119): s1 := PC + 4. -/
def execCall (p : Pred) (i : BitVec 20) (s : State) : Host.Outcome State Fault Refusal :=
  issue (Meta.scalar [] [1]) p s fun s1 th =>
    transferTo th (th.relative i) false (s1.modThread s1.cur fun x => x.writeS 1 (th.pc + 4) s1.beat)

/-- JMP (R119). -/
def execJmp (p : Pred) (a : Reg) (s : State) : Host.Outcome State Fault Refusal :=
  issue (Meta.scalar [a.toNat] []) p s fun s1 th => transferTo th (th.readS a.toNat) true s1

/-- CALLR (R119): s(D) := PC + 4. -/
def execCallr (p : Pred) (d a : Reg) (s : State) : Host.Outcome State Fault Refusal :=
  issue (Meta.scalar [a.toNat] [d.toNat]) p s fun s1 th =>
    transferTo th (th.readS a.toNat) true (s1.modThread s1.cur fun x => x.writeS d.toNat (th.pc + 4) s1.beat)

/-- LOOP (R119): s(D) := s(D) - 1, and a branch while that is not zero. DEDUCED: log 33. -/
def execLoop (p : Pred) (d : Reg) (i : BitVec 15) (s : State) : Host.Outcome State Fault Refusal :=
  issue (Meta.scalar [d.toNat] [d.toNat]) p s fun s1 th =>
    let n := th.readS d.toNat - 1
    let s2 := s1.modThread s1.cur fun x => x.writeS d.toNat n s1.beat
    if n = 0 then .done s2 else transferTo th (th.relative i) false s2

/-- BANY (R119): a branch if any bit of the flag is set. -/
def execBany (p : Pred) (g : BitVec 4) (i : BitVec 15) (s : State) : Host.Outcome State Fault Refusal :=
  issue Meta.plain p s fun s1 th =>
    if th.readF g.toNat = 0 then .done s1 else transferTo th (th.relative i) false s1

/-- BALL (R119): a branch if all bits of the flag are set. -/
def execBall (p : Pred) (g : BitVec 4) (i : BitVec 15) (s : State) : Host.Outcome State Fault Refusal :=
  issue Meta.plain p s fun s1 th =>
    if th.readF g.toNat = BitVec.allOnes 32 then transferTo th (th.relative i) false s1 else .done s1

/-! ## Traps, returns and halting (R122-R125) -/

/-- TRAP (R122): SOFT with the code. -/
def execTrap (p : Pred) (i : BitVec 10) (s : State) : Host.Outcome State Fault Refusal :=
  issue Meta.plain p s fun _ _ => .trap .soft 0 (i.setWidth 64)

/-- A kernel debug session holds breakpoints in the context (R78). -/
def State.sessionHolds (s : State) (th : Thread) : Bool :=
  s.sessionReaches th && (match s.context? th.ctx with
    | some c => !c.breakpoints.isEmpty
    | none => false)

/-- BRK (R122): BREAK, or, under a debug session that holds breakpoints, the thread stops for the debugger (R78). DEDUCED: log 32. -/
def execBrk (p : Pred) (s : State) : Host.Outcome State Fault Refusal :=
  issue Meta.plain p s fun s1 th => if s1.sessionHolds th then .stay (s.stopThread s.cur) else .trap .brk 0 0

/-- ERET (R79, R123). DEDUCED: log 33. -/
def execEret (p : Pred) (s : State) : Host.Outcome State Fault Refusal :=
  issue { Meta.plain with inTrap := true } p s fun s1 th => .stay (s1.returnTrap s1.cur th)

/-- Work of the thread that HALT waits for (R124): its store queue, its reductions, and every ST.S, FE.CLR, atomic fill
and barrier arrival that is held back or in flight. -/
def State.haltBusy (s : State) (t : ThreadRef) (th : Thread) : Bool :=
  !th.storeQ.isEmpty || th.pending != 0
    || (s.flights.any fun f => f.of t && (match f.kind with | .stS | .feClr | .amo _ => true | _ => false))
    || (s.fabReqs.any fun r => r.thread == some t && r.xfer.isNone)
    || (s.barMsgs.any fun b => b.thread == t && b.cfg.isNone)

/-- A record of the thread that no STORE_FAULT has reported. -/
def State.undelivered (s : State) (t : ThreadRef) : Bool := (s.recordsOf t).any fun r => !wbit r.2 19

/-- The thread ends (R124): records it has seen and not freed go to the fault queue; its slot goes vacant; a publication
of its own is closed, or, in a trap handler, which publishes nothing, ends where publication would have gone on (log 20); a member and an away thread leave their channel (R164, R172). -/
def State.endThread (s : State) (t : ThreadRef) (th : Thread) : State :=
  let s1 := if th.sq ≠ .publishing then s
    else if th.mode = .trap then s.endPublication t.core th.trapPc
    else s.modCore t.core fun c => { c with pub := none }
  let s2 := (((s1.unsubscribe t th).uncount th).moveRecords t th.ctx).disown t th
  let s3 := match th.region with
    | some r => s2.modBand th.bandRef fun b => { b with haltedIn := insertKey b.haltedIn th.tib r }
    | none => s2
  s3.dropThread t

/-- HALT (R124): once older work is over, a record of the thread is delivered at the HALT in place of its end. -/
def execHalt (p : Pred) (s : State) : Host.Outcome State Fault Refusal :=
  issue { Meta.plain with leaveOff := true } p s fun s1 th =>
    if !th.settled then .wait .windows
    else if s1.haltBusy s1.cur th then .wait .older
    else if th.mode != .trap && s1.undelivered s1.cur then
      if s1.storeFaultPending s1.cur then .stay (s.deliverStoreFault s.cur th.pc) else .wait .older
    else .stay (s1.endThread s1.cur th)

/-- NOP (R125). -/
def execNop (p : Pred) (s : State) : Host.Outcome State Fault Refusal :=
  issue Meta.plain p s fun s1 _ => .done s1

/-! ## Store drain and instruction fence (R126, R127) -/

/-- The thread's store queue is empty, and every store sent to a remote home has its reply (R126, R368). -/
def State.drained (s : State) (t : ThreadRef) (th : Thread) : Bool :=
  th.storeQ.isEmpty && !(s.fabReqs.any fun r => r.store == some t)

/-- The whole instruction cache of a core is invalidated (R127). -/
def State.emptyCache (s : State) (n : Nat) : State := s.modCore n fun c => { c with icache := [] }

/-- DRAIN.ST (R126). A record found is delivered before the next instruction issues. -/
def execDrainSt (p : Pred) (s : State) : Host.Outcome State Fault Refusal :=
  issue Meta.plain p s fun s1 th => if s1.drained s1.cur th then .done s1 else .block (.work .drain) (BitVec.allOnes 64) s1

/-- FENCE.I (R127): DRAIN.ST, then the core's instruction cache is emptied; what the thread had fetched is discarded. -/
def execFenceI (p : Pred) (s : State) : Host.Outcome State Fault Refusal :=
  issue Meta.plain p s fun s1 th =>
    if s1.drained s1.cur th then .done (s1.emptyCache s1.cur.core) else .block (.work .fenceI) (BitVec.allOnes 64) s1

/-! ## SLEEP (R129) -/

/-- SLEEP (R129): with the slot's event bit set it clears it and goes on; otherwise the thread waits for an event. -/
def execSleep (p : Pred) (s : State) : Host.Outcome State Fault Refusal :=
  issue { Meta.plain with priv := true } p s fun s1 _ =>
    if (s1.slot s1.cur).event then .done (s1.modSlot s1.cur fun x => { x with event := false }) else .wait .sleep

end Sys2Proof.Machine
end

