-- ==== Sys2Proof/Machine/Streams.lean ====
section
/-! DEFINITION. Channels and squads (R159-R178), ports (R180, R181) and mailboxes (R182-R187). -/

namespace Sys2Proof.Machine

/-! ## Shared operations -/

/-- A waiting thread goes on at the next instruction. -/
def Thread.goOn (th : Thread) : Thread := { th with wait := none, pc := nextPc th.pc }

/-- The physical core of the channel a thread names in sq.state.CH. -/
def State.channelCore? (s : State) (th : Thread) : Option Nat := s.physical? th.ctx th.sqCh

/-- A subscription check that needs the publisher (R167): the core lies within reach of depth d, and the contexts are
the same. -/
def reachOk (pubCore : Nat) (b : Publication) (core ctx : Nat) : Bool :=
  roleOf core == .compute && decide (distance pubCore core ≤ b.depth) && b.ctx == ctx

/-- A thread subscribes to the publication of a core (R164, R167): what was published from rotation t + 1 - d on is due
to it. Its windows are closed. -/
def State.subscribe (s : State) (t : ThreadRef) (n ch : Nat) (b : Publication) (entries : List ChanEntry) : State :=
  let s1 := match s.thread? t with | some th => s.uncount th | none => s
  let s2 := s1.modCore n fun c => { c with pub := c.pub.map fun x => { x with members := x.members ++ [t] } }
  s2.modThread t fun th =>
    { th with
      sq := .subscribed
      sqCh := ch
      sqDepth := b.depth
      sqRdv := 0
      publication := b.serial
      subBuf := entries
      subDue := 0
      endAt := none
      outs := [] }

/-- Entries published in rotation t + 1 - d or later, for a SUB that completes in rotation t (R167). -/
def Publication.since (b : Publication) (t : Nat) : List ChanEntry := b.recent.filter fun e => decide (t + 1 ≤ e.rot + b.depth)

/-- A SUB that waits on a core's channel completes, or fails its last check (R167). -/
def State.completeSub (s : State) (n : Nat) (t : ThreadRef) : State :=
  match s.thread? t, (s.core n).pub with
  | some th, some b =>
    match th.wait with
    | some ⟨.sub c, t0, bud⟩ =>
      if s.physical? th.ctx c = some n ∧ !exhausted t0 bud s.beat then
        if reachOk n b t.core th.ctx then (s.subscribe t n c b (b.since s.beat)).modThread t Thread.goOn
        else s.raise t .subRange 0 (ofN c) th.pc
      else s
    | _ => s
  | _, _ => s

/-- A channel is opened (R165): a new publication; SUBs that wait for a publisher are answered. -/
def State.openChannel (s : State) (t : ThreadRef) (th : Thread) (d : Nat) : State :=
  let s1 := (s.uncount th).modCore t.core fun c =>
    { c with
      pub := some ⟨s.serial, t.slot, d, th.ctx, [], [], [], false, none⟩ }
  let s2 := s1.tick.modThread t fun x =>
    { x with
      sq := .publishing
      sqCh := s.idCore th.ctx t.core
      sqDepth := d
      sqRdv := 0
      publication := s.serial }
  s2.allThreads.foldl (fun a p => a.completeSub t.core p.1) s2

/-! ## PUB, ENDPUB, SUB (R165-R167) -/

/-- A private instruction that no masthead core has (R160, R375). -/
def Meta.stream (rd : List Nat) : Meta := { Meta.scalar rd [] with quiet := true, notMast := true }

/-- PUB (R165). -/
def execPub (i : BitVec 10) (s : State) : Host.Outcome State Fault Refusal :=
  issue (Meta.stream []) Pred.always s fun s1 th =>
    let t := s1.cur
    if th.handler.isSome then .trap .mxRange 0 (ofN s1.ir.toNat)
    else if th.sq = .publishing ∨ th.mode = .trap then .trap .subRange 0 (ofN (s1.idCore th.ctx t.core))
    else if (s1.core t.core).pub.isSome then .block (.pub i.toNat) th.chBudget s1
    else .done (s1.openChannel t th i.toNat)

/-- ENDPUB (R166). A publisher that closes its channel in a trap handler publishes nothing: its members leave at the
address at which publication would have gone on (DEDUCED, log 20). -/
def execEndpub (s : State) : Host.Outcome State Fault Refusal :=
  issue Meta.plain Pred.always s fun s1 th =>
    let t := s1.cur
    if th.sq = .publishing then
      let close (s : State) := s.modThread t fun x => { x with sq := .fetching, sqDepth := 0, sqRdv := 0 }
      if th.mode = .trap then .done (close (s1.endPublication t.core th.trapPc))
      else .done (close (s1.modCore t.core fun c => { c with pub := none }))
    else if th.member then .stay (s1.leaveSquad t th.pc (nextPc th.pc))
    else .done s1

/-- SUB (R167). -/
def execSubscribe (a : Reg) (s : State) : Host.Outcome State Fault Refusal :=
  issue (Meta.stream [a.toNat]) Pred.always s fun s1 th =>
    let t := s1.cur
    let c := (th.readS a.toNat).toNat
    let bad : Res := .trap .subRange 0 (ofN (c % 2 ^ 15))
    if th.handler.isSome then .trap .mxRange 0 (ofN s1.ir.toNat)
    else if 24576 ≤ c ∨ th.sq = .publishing ∨ th.member ∨ th.mode = .trap then bad
    else match s1.physical? th.ctx c with
    | none => bad
    | some n =>
      if !th.settled then .wait .windows
      else match (s1.core n).pub with
      | none => .block (.sub c) th.chBudget s1
      | some b =>
        if reachOk n b t.core th.ctx then .done (s1.subscribe t n c b (b.since s1.beat))
        else bad

/-! ## LEAVE, JOIN, RDV, CH.SYNC (R168-R172) -/

/-- LEAVE (R169). -/
def execLeave (g : BitVec 4) (k : BitVec 5) (i : BitVec 10) (s : State) : Host.Outcome State Fault Refusal :=
  issue Meta.plain Pred.always s fun s1 th =>
    let t := s1.cur
    if th.member && (th.readF g.toNat).getLsbD 0 then
      let id := k.toNat
      let s2 := if id = 0 then s1 else s1.modAway th id (· + 1)
      .stay ((s2.unsubscribe t th).modThread t fun x =>
        { x with
          sq := .away
          sqRdv := id
          sqLeftpc := th.pc
          pc := pcOf (th.relative i)
          subBuf := []
          subDue := 0
          endAt := none })
    else .done s1

/-- A publication is saved with its band; it will be the same one when that resumes (R170, R305). -/
def State.savedPublication (s : State) (serial : Nat) : Bool :=
  s.bands.any fun b => match b.saved with | some v => v.pubs.any fun p => p.2.serial == serial | none => false

/-- JOIN (R170). A JOIN 0 in the rotation in which its RDV or CH.SYNC has completed is released by that one (R274). -/
def execJoin (k : BitVec 5) (s : State) : Host.Outcome State Fault Refusal :=
  issue { Meta.plain with quiet := true } Pred.always s fun s1 th =>
    let bad : Res := .trap .subRange 0 (ofN th.sqCh)
    if th.sq ≠ .away ∨ th.sqRdv ≠ k.toNat then bad
    else match (s1.channelCore? th).bind fun n => (s1.core n).pub with
    | none =>
      if !s1.savedPublication th.publication then bad
      else if !th.settled then .wait .windows
      else .block (.join k.toNat) th.chBudget (s1.modThread s1.cur fun x => { x with outs := [] })
    | some b =>
      if b.serial ≠ th.publication then bad
      else if !th.settled then .wait .windows
      else if k = 0 ∧ b.syncAt = some s1.beat then
        match s1.channelCore? th with
        | some n => .done (s1.subscribe s1.cur n th.sqCh b [])
        | none => bad
      else
        let s2 := if k = 0 then s1 else s1.modAway th k.toNat (· - 1)
        .block (.join k.toNat) th.chBudget (s2.modThread s2.cur fun x => { x with outs := [] })

/-- RDV and CH.SYNC (R168, R171): the publisher publishes it and waits; for any other thread it has no effect. DEDUCED: log 27. -/
def rendezvous (k : WaitKind) (s : State) : Host.Outcome State Fault Refusal :=
  issue Meta.plain Pred.always s fun s1 th =>
    if th.sq = .publishing ∧ th.mode = .run then
      .block k th.chBudget (s1.modCore s1.cur.core fun c => { c with pub := c.pub.map fun b => { b with syncSet := b.members } })
    else .done s1

/-- RDV (R171). -/
def execRdv (k : BitVec 5) (s : State) : Host.Outcome State Fault Refusal := rendezvous (.rdv k.toNat) s
/-- CH.SYNC (R168). -/
def execChSync (s : State) : Host.Outcome State Fault Refusal := rendezvous .chSync s

/-- Every member subscribed at rotation t0 has executed what was published then, or has left (R168). -/
def State.syncMet (s : State) (b : Publication) (t0 : Nat) : Bool :=
  b.syncSet.all fun m => !b.members.contains m ||
    (match s.thread? m with
     | some x => !(x.publication == b.serial && x.member && x.subBuf.any fun e => decide (e.rot ≤ t0))
     | none => true)

/-- A JOIN of this id to this publication is released: the thread is subscribed from the next word on (R170). -/
def State.releaseJoin (s : State) (n id : Nat) (b : Publication) (t : ThreadRef) : State :=
  match s.thread? t with
  | some th =>
    match th.wait with
    | some ⟨.join j, t0, bud⟩ =>
      if j = id ∧ th.publication = b.serial ∧ s.channelCore? th = some n ∧ !exhausted t0 bud s.beat then
        (s.subscribe t n th.sqCh b []).modThread t Thread.goOn
      else s
    | _ => s
  | none => s

/-- A rendezvous of id issued in rotation t0 is met in this rotation, within its budget (R168, R171, R387). -/
def State.rdvMet (s : State) (t : ThreadRef) (id t0 : Nat) (budget : Word) : Bool :=
  match (s.core t.core).pub with
  | none => false
  | some b => decide (t0 + b.depth ≤ s.beat) && s.syncMet b t0 && (id == 0 || ((s.core t.core).away[id]?).getD 0 == 0)
      && !exhausted t0 budget s.beat

/-- A rendezvous of id completes, within its budget (R387): the threads whose JOIN waits are released, and the publisher's
next instruction issues in the next rotation at the earliest (R168, R171). -/
def State.finishRdv (s : State) (t : ThreadRef) (id t0 : Nat) (budget : Word) : State :=
  match (s.core t.core).pub with
  | none => s
  | some b =>
    if s.rdvMet t id t0 budget then
      let s1 := s.allThreads.foldl (fun a p => a.releaseJoin t.core id b p.1) s
      let s2 := if id = 0 then s1.modCore t.core fun c => { c with pub := c.pub.map fun p => { p with syncAt := some s.beat } } else s1
      s2.modThread t fun th => { th.goOn with notBefore := s.beat + 1 }
    else s

/-- RDV_COMPLETE (R171). -/
def execRdvComplete (t : ThreadRef) (s : State) : Host.Outcome State Fault Refusal :=
  match (s.thread? t).bind Thread.wait with
  | some ⟨.rdv id, t0, b⟩ => .next (s.finishRdv t id t0 b)
  | _ => .next s

/-- CH_SYNC_COMPLETE (R168). -/
def execChSyncComplete (t : ThreadRef) (s : State) : Host.Outcome State Fault Refusal :=
  match (s.thread? t).bind Thread.wait with
  | some ⟨.chSync, t0, b⟩ => .next (s.finishRdv t 0 t0 b)
  | _ => .next s

/-- PUB_ACCEPT (R165): the channel a PUB waits for is free. -/
def execPubAccept (t : ThreadRef) (s : State) : Host.Outcome State Fault Refusal :=
  match s.thread? t with
  | none => .next s
  | some th =>
    match th.wait with
    | some ⟨.pub d, t0, b⟩ =>
      if (s.core t.core).pub.isSome ∨ exhausted t0 b s.beat then .next s else .next ((s.openChannel t th d).modThread t Thread.goOn)
    | _ => .next s

/-- CH_TIMEOUT (R165, R167, R168, R170, R171, R387): a channel wait is exhausted; trap.info is the rendezvous id. A
JOIN's count is restored. -/
def execChTimeout (t : ThreadRef) (s : State) : Host.Outcome State Fault Refusal :=
  match s.thread? t with
  | none => .next s
  | some th =>
    match th.wait with
    | none => .next s
    | some w =>
      if !exhausted w.since w.budget s.beat then .next s
      else match w.kind with
      | .pub _ | .sub _ | .chSync => .next (s.raise t .chTimeout 0 0 th.pc)
      | .rdv id => .next (s.raise t .chTimeout 0 (ofN id) th.pc)
      | .join id =>
        .next ((if id = 0 then s else s.modAway th id (· + 1)).raise t .chTimeout 0 (ofN id) th.pc)
      | _ => .next s

/-- CHANNEL_INSTRUCTION_DUE (R162): the member's next published word, one depth after its rotation, is due to it. -/
def execChannelInstructionDue (m : ThreadRef) (s : State) : Host.Outcome State Fault Refusal :=
  match s.thread? m with
  | none => .next s
  | some th =>
    match th.subBuf[th.subDue]? with
    | some e =>
      if th.member ∧ e.rot + th.sqDepth ≤ s.beat then .next (s.setThread m { th with subDue := th.subDue + 1 }) else .next s
    | none => .next s

/-- A member whose publication has ended leaves once it has executed everything published (R178); SQKILL's targets halt instead
(R173). -/
def Thread.mayLeave (th : Thread) : Bool :=
  th.member && th.subBuf.isEmpty && th.busy == 0 && th.wait.isNone && th.killAt.isNone && !th.halted

/-- A member leaves at the resume PC of its publication, if that has ended and it may (R178). -/
def State.endMember (s : State) (t : ThreadRef) : State :=
  match s.thread? t with
  | some th => (match th.endAt with
    | some pc => if th.mayLeave then s.leaveSquad t pc pc else s
    | none => s)
  | none => s

/-- PUBLICATION_END (R178): the members of a core's channel whose publication has ended leave once they have executed what was
published. -/
def execPublicationEnd (core : Nat) (s : State) : Host.Outcome State Fault Refusal :=
  .next (s.allThreads.foldl (fun a p => if s.channelCore? p.2 = some core then a.endMember p.1 else a) s)

/-! ## SQKILL (R173) -/

/-- SQKILL (R173). -/
def execSqkill (p : Pred) (a : Reg) (s : State) : Host.Outcome State Fault Refusal :=
  issue { Meta.scalar [a.toNat] [] with quiet := true } p s fun s1 th =>
    let c := (th.readS a.toNat).toNat % 2 ^ 15
    match s1.coreNamed? th.ctx c with
    | none => .trap .subRange 0 (ofN c)
    | some n =>
      .block (.sqkill n (s1.beat + distance s1.cur.core n) none) (BitVec.allOnes 64) (s1.effectOut th)

/-- The parties to the channel of a core: the publisher, the members, trapped members, and threads away under a non-zero
id. -/
def State.channelParties (s : State) (n : Nat) : List ThreadRef :=
  (s.allThreads.filter fun p =>
    let th := p.2
    !th.halted && s.channelCore? th == some n &&
      (match th.sq with
       | .publishing => p.1.core == n
       | .subscribed | .held | .trapped => true
       | .away => th.sqRdv != 0
       | .fetching => false)).map Prod.fst

/-- The threads SQKILL halts (R173): the parties of its context. DEDUCED: log 21. -/
def State.killTargets (s : State) (ctx n : Nat) : List ThreadRef :=
  (s.channelParties n).filter fun t => match s.thread? t with | some th => th.ctx == ctx | none => false

/-- The targets of a SQKILL that have not halted, the killer left out. Killers that name each other halt together: such a
one waits for no other killer (DEDUCED, log 21). -/
def State.killLeft (s : State) (killer : ThreadRef) (ts : List ThreadRef) : List ThreadRef :=
  ts.filter fun t => t != killer && (match s.thread? t with
    | some th => !th.halted && th.killAt.isSome &&
        !(ts.contains killer && (match th.wait with | some ⟨.sqkill .., _, _⟩ => true | _ => false))
    | none => false)

/-- The killer's wait ends once its targets have halted; a killer that is a target halts after them (R173). -/
def State.killerCheck (s : State) (k : ThreadRef) : State :=
  match s.thread? k with
  | none => s
  | some th =>
    match th.wait with
    | some ⟨.sqkill _ _ (some ts), _, _⟩ =>
      if (s.killLeft k ts).isEmpty then
        if ts.contains k then s.haltThread k else s.modThread k Thread.goOn
      else s
    | _ => s

/-- Every SQKILL whose cut-off is this rotation marks its targets (R173). -/
def State.killerMark (s : State) (k : ThreadRef) : State :=
  match s.thread? k with
  | none => s
  | some th =>
    match th.wait with
    | some ⟨.sqkill n cut none, since, b⟩ =>
      if cut ≤ s.beat then
        let ts := s.killTargets th.ctx n
        let s1 := ts.foldl (fun a t => a.modThread t fun x =>
          { x with killAt := some (match x.killAt with | some r => min r cut | none => cut) }) s
        (s1.modThread k fun x => { x with wait := some ⟨.sqkill n cut (some ts), since, b⟩ }).killerCheck k
      else s
    | _ => s

/-- SQKILL_TARGET_HALT (R173): a target halts at its boundary; a member first executes what was published. -/
def execSqkillTargetHalt (t : ThreadRef) (s : State) : Host.Outcome State Fault Refusal :=
  match s.thread? t with
  | none => .next s
  | some th =>
    match th.killAt with
    | none => .next s
    | some r =>
      let killer := match th.wait with | some ⟨.sqkill .., _, _⟩ => true | _ => false
      if r ≤ s.beat ∧ !th.halted ∧ th.busy = 0 ∧ !killer ∧ (!th.member || th.subBuf.isEmpty) then
        let s1 := s.haltThread t
        .next (s1.allThreads.foldl (fun a p => a.killerCheck p.1) s1)
      else .next s

/-! ## Ports (R180, R181) -/

/-- BTAG (R181). From a channel it has no effect (R161). -/
def execBtag (p : Pred) (d : Reg) (i : BitVec 15) (s : State) : Host.Outcome State Fault Refusal :=
  issue { Meta.scalar [d.toNat] [] with noPort := true } p s fun s1 th =>
    let ready := th.inq.takeWhile fun w => decide (w.avail ≤ s1.beat)
    let target := th.relative i
    if th.member || !th.inEn then .done s1
    else if d.toNat = 30 then
      match ready with
      | w :: h :: _ =>
        if h.tag.toNat = wbits w.data 7 0 ∧ !canonical target then .trap .access target 0
        else
          let s2 := s1.modThread s1.cur fun x =>
            { x with inq := x.inq.tail, portTag := setBits x.portTag 7 0 w.tag.toNat }
          if h.tag.toNat = wbits w.data 7 0 then transferTo th target false s2 else .done s2
      | _ => .wait .port
    else match ready with
    | h :: _ => if h.tag.toNat = wbits (th.readS d.toNat) 7 0 then transferTo th target false s1 else .done s1
    | [] => .wait .port

/-- The thread a sender's port.cfg names, if it takes words from that sender and has room (R180). -/
def State.portTaker? (s : State) (t : ThreadRef) (ctx : Nat) (cfg : Word) : Option ThreadRef :=
  (s.physical? ctx (wbits cfg 46 32)).bind fun n =>
    let r : ThreadRef := ⟨n, wbits cfg 49 47⟩
    match s.thread? r with
    | none => none
    | some x =>
      if !x.halted && x.ctx == ctx && x.inEn && wbits x.portCfg 22 8 == s.idCore ctx t.core && wbits x.portCfg 25 23 == t.slot
          && decide (x.inq.length < 8) then some r else none

/-- A word enters the inbound queue of its taker (R180). -/
def State.portTake (s : State) (t r : ThreadRef) (w : PortWord) : State :=
  s.modThread r fun y => { y with inq := y.inq ++ [⟨w.data, w.tag, max (w.avail + distance t.core r.core) s.beat⟩] }

/-- The first word a thread left behind goes to its taker, if that has one now (R180). -/
def State.takeLeft (s : State) (t : ThreadRef) (l : Nat × Nat × Word × List PortWord) : Option State :=
  match l.2.2.2 with
  | [] => none
  | w :: rest => (s.portTaker? t l.2.1 l.2.2.1).map fun r =>
      ((s.modCore t.core fun c => { c with
        left := (modFirst (· == l) (fun x => (x.1, x.2.1, x.2.2.1, rest)) c.left).filter fun x => !x.2.2.2.isEmpty }).portTake t r w)

/-- Words left behind in this slot on their way to the same thread: a later sender there keeps behind them (R180). -/
def Core.leftFor (c : Core) (slot ctx : Nat) (cfg : Word) : List (Nat × Nat × Word × List PortWord) :=
  c.left.filter fun l => l.1 == slot && l.2.1 == ctx && wbits l.2.2.1 49 32 == wbits cfg 49 32

/-- PORT_WORD_ACCEPT (R180): the oldest word of a sender's outbound queue enters the queue of the thread its port.cfg
names, if that thread takes words from it and has room. Words of a thread that has left the slot go before those of a later one to
the same thread. -/
def execPortWordAccept (t : ThreadRef) (s : State) : Host.Outcome State Fault Refusal :=
  match (s.core t.core).left.findSome? fun l =>
    if l.1 = t.slot ∧ ((s.core t.core).leftFor t.slot l.2.1 l.2.2.1).head? = some l then s.takeLeft t l else none with
  | some s1 => .next s1
  | none =>
    match s.thread? t with
    | none => .next s
    | some th =>
      match th.outq, s.portTaker? t th.ctx th.portCfg with
      | w :: rest, some r =>
        if ((s.core t.core).leftFor t.slot th.ctx th.portCfg).isEmpty then .next ((s.setThread t { th with outq := rest }).portTake t r w)
        else .next s
      | _, _ => .next s

/-! ## Mailboxes (R182-R187) -/

/-- The ring is disabled (R182). -/
def Core.ringOff (c : Core) : Bool := decide (c.mboxSize < 16) || decide (262144 < c.mboxBase + c.mboxSize)

/-- Reserve(c, N) of R185 for a ring with this HEAD: where the message is placed, the new TAIL, and the PAD record's
offset and P. -/
def Core.reserve? (c : Core) (head n : Nat) : Option (Nat × Nat × Option (Nat × Nat)) :=
  let tail := c.mboxTail
  let size := c.mboxSize
  let e := size - tail
  if c.ringOff then none
  else if head ≤ tail then
    if 8 * n ≤ (if head = 0 then e - 8 else e) then some (tail, (tail + 8 * n) % size, none)
    else if 8 * n + 8 ≤ head then some (0, 8 * n, some (tail, e / 8 - 1))
    else none
  else if 8 * n + 8 ≤ head - tail then some (tail, tail + 8 * n, none)
  else none

/-- Placeable(c, N) (R185): Reserve would succeed in the emptied ring. -/
def Core.placeable (c : Core) (n : Nat) : Bool := (c.reserve? c.mboxTail n).isSome

/-- Space is reserved for a message of the words given, header first: the mailbox unit will write the PAD, the payload
and last the header (R184, R185). -/
def State.mboxReserve? (s : State) (n : Nat) (words : List Word) (scope : Word) (sender : Option ThreadRef) (pc : Word := 0)
    (who : List Nat := []) : Option State :=
  match (s.core n).reserve? (s.core n).mboxHead words.length with
  | none => none
  | some (at_, tail, pad) =>
    let ws := (match pad with | some (o, q) => [(o, ofN (q + 128))] | none => [])
      ++ ((words.drop 1).zipIdx.map fun p => (at_ + 8 * (p.2 + 1), p.1)) ++ [(at_, words.headD 0)]
    some (s.tick.modCore n fun c => { c with mboxTail := tail, deliveries := c.deliveries ++ [⟨ws, scope, sender, s.serial, pc, who⟩] })

/-- The header as delivered (R183). -/
def mboxHeader (h : Word) (src slot : Nat) : Word :=
  setBits (setBits (setBits h 7 7 0) 30 16 src) 33 31 slot

/-- A word a thread's SEND reads at its own source (R184), once its own older accesses to that word are performed (R250), or
why it cannot be read. DEDUCED: log 35. -/
def State.sendWord (s : State) (t : ThreadRef) (th : Thread) (va : Word) : Except Res Word :=
  match s.resolve t th va ⟨8, false, false, false, .rd, 0, false, false⟩ (.thread t) with
  | .ok key e =>
    if s.eccAt key then .error (.trap .eccUncorrectable va (s.eccTier key))
    else if s.held key || s.blockedBy t s.serial key false true false then .error (.wait .older)
    else .ok (ofN (s.loadBytes
      { id := s.serial, thread := t, ctx := th.ctx, kind := .load 8 false, va := va, key := key, data := 0, data2 := 0
        issuedAt := s.beat, budget := 0, pc := th.pc, scope := 0, stage := .sent, withdrawal := false
        cipher := s.cipherFor th e, orphan := false, detached := none } key 8))
  | .fault c info => .error (.trap c va info)
  | .miss => .error (.miss va 0)
  | _ => .error (.trap .access va 0)

/-- The words of a message, in ascending address order. -/
def State.sendWords (s : State) (t : ThreadRef) (th : Thread) (va : Word) : Nat → Except Res (List Word)
  | 0 => .ok []
  | n + 1 =>
    match s.sendWord t th va with
    | .error r => .error r
    | .ok w =>
      match s.sendWords t th (va + 8) n with
      | .error r => .error r
      | .ok ws => .ok (w :: ws)

/-- The single-bit errors of a message's words at their source are corrected as they are read (R277, R349). -/
def State.correctWords (s : State) (t : ThreadRef) (th : Thread) (va : Word) (n : Nat) : State :=
  (List.range n).foldl (fun a i => match a.keyOf? t th.ctx (va + ofN (8 * i)) with
    | some k => a.correct k
    | none => a) s

/-- SEND with its header read: with room in the ring the words that follow are read and the message is reserved; none while
there is no room (R184). -/
def State.sendNow (s : State) (t : ThreadRef) (th : Thread) (n k : Nat) (va h : Word) : Option (Except Res State) :=
  if ((s.core n).reserve? (s.core n).mboxHead k).isNone then none
  else match s.sendWords t th (va + 8) (k - 1) with
  | .error r => some (.error r)
  | .ok ws =>
    ((s.correctWords t th va k).mboxReserve? n (mboxHeader h (s.idCore th.ctx t.core) t.slot :: ws) th.scopeD (some t) th.pc th.ident).map .ok

/-- SEND (R184). -/
def execSend (p : Pred) (a b : Reg) (s : State) : Host.Outcome State Fault Refusal :=
  issue { Meta.scalar [a.toNat, b.toNat] [] with notMast := true } p s fun s1 th =>
    let t := s1.cur
    let c := (th.readS a.toNat).toNat
    let va := th.readS b.toNat
    match s1.coreNamed? th.ctx c with
    | none => .trap .subRange 0 (ofN (c % 2 ^ 15))
    | some n =>
      if va.toNat % 8 ≠ 0 then .trap .align va 0
      else match s1.sendWord t th va with
      | .error r => r
      | .ok h =>
        let q := wbits h 6 0
        if 63 < q ∨ !(s1.core n).placeable (q + 1) then .trap .msgTooLarge va (ofN (q + c % 2 ^ 15 * 2 ^ 8))
        else match (s1.effectOut th).sendNow t th n (q + 1) va h with
        | none => .block (.send n (q + 1) va h) (BitVec.allOnes 64) (s1.effectOut th)
        | some (.ok s2) => .done s2
        | some (.error r) => r

/-- MBOX_RESERVE (R184, R185, R187): room has come for a SEND that waits; on a core that another context now holds it
raises SUB_RANGE. -/
def execMboxReserve (t : ThreadRef) (s : State) : Host.Outcome State Fault Refusal :=
  match s.thread? t with
  | none => .next s
  | some th =>
    match th.wait with
    | some ⟨.send n k va h, _, _⟩ =>
      if !s.heldBy n th.ctx then .next (s.raise t .subRange 0 (ofN (s.idCore th.ctx n % 2 ^ 15)) th.pc)
      else match s.sendNow t th n k va h with
      | none => .next s
      | some (.ok s1) => .next (s1.modThread t Thread.goOn)
      | some (.error (.trap c x info)) => .next (s.raise t c x info th.pc)
      | some (.error (.miss x kind)) => .next (s.joinMiss (unitOf t.core) th.ctx x kind t (.thread t))
      | some (.error _) => .next s
    | _ => .next s

/-- A ring word with an uncorrectable error takes nothing: it is reported on the core's die, and to the sender by an engine's record
(R350). None while no record is free (R207). DESIGN CHOICE: log 68. -/
def State.ringFails (s : State) (core o : Nat) (d : Delivery) (w : Word) : Option State :=
  match d.sender with
  | none => some (s.eccEvent core)
  | some t =>
    s.engineRecord t.core t.slot (d.who.getD 3 0) ((s.thread? t).map Thread.ident != some d.who) 16 false d.pc
      (ofN (0xFFFE000000000000 + s.idCore (d.who.getD 3 0) core % 2 ^ 15 * 2 ^ 18 + o)) w

/-- The mailbox unit writes a word of a message, set-full (R184): none while an atomic holds the ring's word (R196). -/
def State.ringWord (s : State) (core o : Nat) (d : Delivery) (w : Word) : Option State :=
  let off := (s.core core).mboxBase + o
  let k := scratchKey core off
  if s.held k then none
  else if s.eccAt k then s.ringFails core off d w
  else some (((s.writeWord k w).setFull k true).changed k)

/-- MBOX_DELIVERY (R184, R335): the mailbox unit writes the next word of the oldest message; the header, last, waits for the sender's
older accesses, and posts MBOX to the core's control-mode slots. -/
def execMboxDelivery (core : Nat) (s : State) : Host.Outcome State Fault Refusal :=
  match (s.core core).deliveries with
  | [] => .next s
  | d :: rest =>
    match d.words with
    | [] => .next (s.modCore core fun c => { c with deliveries := rest })
    | (o, w) :: r =>
      let clear := !r.isEmpty || (match d.sender with | some t => s.allPerformed t d.upTo true | none => true)
      match if clear then s.ringWord core o d w else none with
      | none => .next s
      | some s1 =>
        if !r.isEmpty then .next (s1.modCore core fun c => { c with deliveries := { d with words := r } :: rest })
        else .next (s1.modCore core fun c => { c with
          deliveries := rest
          slots := c.slots.map fun sl => match sl.thread with | some th => if th.privileged then sl.post 0 else sl | none => sl })

/-- TLB_MISS (R279, R280, R376): a translation unit sends its oldest unsent miss to its service core's ring, if there is
room. DEDUCED: log 38. -/
def execTlbMiss (unit : Nat) (s : State) : Host.Outcome State Fault Refusal :=
  match (s.unit unit).misses.find? fun m => !m.sent && m.failed.isNone with
  | none => .next s
  | some m =>
    let core := if 384 ≤ unit then mastBase + 16 * (unit - 384) else tsvcBase + unit
    let w1 := ofN (m.kind + m.ctx * 2 ^ 4 + m.vpn * 2 ^ 16)
    let head := ofN (2 + 1 * 2 ^ 8 + s.idCore m.ctx m.first.core % 2 ^ 15 * 2 ^ 16 + m.first.slot * 2 ^ 31)
    match s.mboxReserve? core [head, w1, m.va] 0 none with
    | none => .next s
    | some s1 => .next (s1.modUnit unit fun u => { u with
        misses := modFirst (fun x => !x.sent && x.failed.isNone) (fun x => { x with sent := true }) u.misses })

end Sys2Proof.Machine
end

