-- ==== Sys2Proof/Machine/Barriers.lean ====
section
/-! DEFINITION. FENCE.S (R257), barriers (R258-R266) and pennants (R269-R271). -/

namespace Sys2Proof.Machine

/-! ## FENCE.S (R257) -/

/-- An access through the FABRIC window, whose home is another package (R188). -/
def Flight.remote (f : Flight) : Bool := windowOf f.va == .fabric

/-- What FENCE.S waits for (R257, R126, R275, R368, R369): loads written or faulted, as they are in this rotation at the latest; stores,
fills, FE.CLRs, atomics and barrier arrivals performed or recorded, remote ones too; with SYS the host's acknowledgements too, and
with FAB the reply to every fabric request, reductions included. Other reductions are left out. -/
def State.fenceReady (s : State) (t : ThreadRef) (th : Thread) (sys fab : Bool) : Bool :=
  th.outs.all (s.resultOver t th) && th.storeQ.isEmpty
    && !(s.flights.any fun f => f.of t && !s.loadEnds t f && (!f.kind.isRed || (fab && f.remote)))
    && !(s.fabReqs.any fun r => r.thread == some t && r.xfer.isNone && (fab || r.store.isSome))
    && !(s.barMsgs.any fun b => b.thread == t && b.cfg.isNone)
    && !(sys && s.hostWrites.any fun h => h.2 == t)

/-- FENCE.S (R241, R257). -/
def execFenceS (p : Pred) (a : Reg) (s : State) : Host.Outcome State Fault Refusal :=
  issue (Meta.scalar [a.toNat] []) p s fun s1 th =>
    let v := th.readS a.toNat
    if !scopeOk v then .trap .access 0 0
    else if s1.fenceReady s1.cur th (wbit v 32) (wbit v 33) then .done s1
    else .block (.work (.fenceS (wbit v 32) (wbit v 33))) (BitVec.allOnes 64) s1

/-- HOST_WRITE_ACK (R257, R327): the host acknowledges a device write. -/
def execHostWriteAck (id : Nat) (s : State) : Host.Outcome State Fault Refusal :=
  .next { s with hostWrites := eraseFirst (fun h => h.1 == id) s.hostWrites }

/-! ## Barriers (R258) -/

/-- The cluster of a thread's band. -/
def State.bandCluster? (s : State) (b : BandRef) : Option Nat := (s.band? b).map Band.cluster

/-- Barrier n of a band. -/
def State.barrier? (s : State) (b : BandRef) (n : Nat) : Option Barrier :=
  (s.bandCluster? b).bind fun cl => (s.cluster cl).barriers.find? fun x => x.band == b && x.n == n

/-- Barrier n of a band changed. -/
def State.modBarrier (s : State) (b : BandRef) (n : Nat) (f : Barrier → Barrier) : State :=
  match s.bandCluster? b with
  | none => s
  | some cl => s.modCluster cl fun c => { c with barriers := modFirst (fun x => x.band == b && x.n == n) f c.barriers }

/-- The distance from a core to the barrier unit of a cluster (R264). -/
def barDistance (core cl : Nat) : Nat :=
  if roleOf core = .compute ∧ core / 64 = cl then 2 else if dieOf core = cl / 16 then 4 else 12

/-- Generation t has completed; generations wrap at 2^32. -/
def genDone (g t : Nat) : Bool := let d := (g + 2 ^ 32 - t) % 2 ^ 32; decide (0 < d) && decide (d ≤ 2 ^ 31)

/-- The pending generation of a thread (R258). -/
def Barrier.pending? (b : Barrier) (tib : Nat) : Option Nat := lookup? b.pend tib

/-- A thread's registers as a pennant captures them (R269). -/
def Thread.capture (th : Thread) : List Byte :=
  leBytes 8 th.tib ++
    ((range 1 31).flatMap fun r =>
      leBytes 8 (if (r = 30 ∧ th.inEn) ∨ (r = 31 ∧ th.outEn) then 0 else ((th.s[r]?).getD 0).toNat)) ++
    (List.range 12).flatMap fun r => leBytes 4 (th.readF r).toNat

/-- A message to the barrier unit leaves; it follows every older access of the thread (R247). -/
def State.sendBar (s : State) (t : ThreadRef) (th : Thread) (n : Nat) (cfg : Option Nat) : State :=
  match s.bandCluster? th.bandRef with
  | none => s
  | some cl =>
    let pen := match s.context? th.ctx with | some c => c.pennant | none => false
    { s.tick with barMsgs := s.barMsgs ++ [{
        id := s.serial, thread := t, band := th.bandRef, n := n, cfg := cfg, tib := th.tib, sentAt := s.beat
        distance := barDistance t.core cl, upTo := s.serial, capture := if pen && cfg.isNone then th.capture else [] }] }

/-- BAR.CFG (R259, R260). -/
def execBarCfg (p : Pred) (a : Reg) (k : BitVec 4) (s : State) : Host.Outcome State Fault Refusal :=
  issue { Meta.scalar [a.toNat] [] with notMast := true } p s fun s1 th =>
    let v := (th.readS a.toNat).toNat
    if (s1.barrier? th.bandRef k.toNat).isNone ∨ v = 0 ∨ 512 < v then .trap .access 0 0
    else .done (s1.sendBar s1.cur th k.toNat (some v))

/-- An arrival leaves, every window closed (R261). -/
def State.arriveBar (s : State) (t : ThreadRef) (th : Thread) (n : Nat) : State :=
  (s.sendBar t th n none).modThread t fun x => { x with outs := [] }

/-- BAR.ARRIVE (R261). -/
def execBarArrive (p : Pred) (k : BitVec 4) (s : State) : Host.Outcome State Fault Refusal :=
  issue { Meta.plain with notMast := true } p s fun s1 th =>
    if (s1.barrier? th.bandRef k.toNat).isNone then .trap .access 0 0
    else if !th.settled then .wait .windows
    else .done (s1.arriveBar s1.cur th k.toNat)

/-- An arrival of the thread at this barrier travels. DEDUCED: log 19. -/
def State.arriving (s : State) (t : ThreadRef) (n : Nat) : Bool :=
  s.barMsgs.any fun b => b.thread == t && b.n == n && b.cfg.isNone

/-- The pending generation of a thread at a barrier of its band becomes none. -/
def State.clearPending (s : State) (th : Thread) (n : Nat) : State :=
  s.modBarrier th.bandRef n fun b => { b with pend := eraseKey b.pend th.tib }

/-- The generation a BAR.WAIT waits for at a barrier (R262). -/
def Barrier.target (b : Barrier) (tib : Nat) : Nat := (b.pending? tib).getD b.g

/-- The first rotation in which a waiter on generation g may issue again (R264). A generation that is not listed completed
so long ago that no distance reaches to the present. -/
def Barrier.wake (b : Barrier) (g d : Nat) : Nat := match lookup? b.doneAt g with | some r => r + d | none => 0

/-- BAR.WAIT goes on at once when its generation has completed; otherwise the thread waits (R262). An arrival of its own
that still travels is waited for first. -/
def waitBar (s : State) (th : Thread) (n : Nat) (b : Barrier) : Res :=
  let t := s.cur
  if s.arriving t n then .block (.barSync n) th.barBudget s
  else if genDone b.g (b.target th.tib) then
    let d := match s.bandCluster? th.bandRef with | some cl => barDistance t.core cl | none => 0
    .done ((s.clearPending th n).modThread t fun x => { x with notBefore := max x.notBefore (b.wake (b.target th.tib) d) })
  else .block (.bar n (b.target th.tib)) th.barBudget s

/-- BAR.WAIT (R262). -/
def execBarWait (p : Pred) (k : BitVec 4) (s : State) : Host.Outcome State Fault Refusal :=
  issue { Meta.plain with notMast := true } p s fun s1 th =>
    match s1.barrier? th.bandRef k.toNat with
    | none => .trap .access 0 0
    | some b => waitBar s1 th k.toNat b

/-- BAR.SYNC (R263): no new arrival while p names a generation not yet completed, nor while an arrival of the thread still
travels (DEDUCED, log 19). -/
def execBarSync (p : Pred) (k : BitVec 4) (s : State) : Host.Outcome State Fault Refusal :=
  issue { Meta.plain with notMast := true } p s fun s1 th =>
    let n := k.toNat
    match s1.barrier? th.bandRef n with
    | none => .trap .access 0 0
    | some b =>
      let pending := s1.arriving s1.cur n || (match b.pending? th.tib with | some g => !genDone b.g g | none => false)
      if pending then waitBar s1 th n b
      else if !th.settled then .wait .windows
      else .block (.barSync n) th.barBudget (s1.arriveBar s1.cur th n)

/-! ## Pennants (R269-R271) -/

/-- One byte folded into the reflected CRC-64. -/
def crc64Byte (c : Word) (b : Byte) : Word :=
  (List.range 8).foldl (fun x _ => if x.getLsbD 0 then (x >>> 1) ^^^ 0xC96C5795D7870F42#64 else x >>> 1) (c ^^^ b.setWidth 64)

/-- CRC-64 of the ECMA-182 polynomial (R270). -/
def crc64 (bs : List Byte) : Word := ~~~(bs.foldl crc64Byte (BitVec.allOnes 64))

/-- An entry put behind those of lower and equal id.tib. -/
def insertCapture (l : List (Nat × List Byte)) (x : Nat × List Byte) : List (Nat × List Byte) :=
  match l with
  | [] => [x]
  | y :: r => if x.1 < y.1 then x :: y :: r else y :: insertCapture r x

/-- The next entry of a context's pennant log, if it is free and no atomic holds a word of it (R251, R271): its key. -/
def State.plogFree? (s : State) (c : Context) : Option Nat :=
  let k := c.plog + 32 * (c.plogNext % c.plogN)
  if 0 < c.plogN ∧ !s.full k ∧ !((List.range 4).any fun i => s.held (k + 8 * i)) then some k else none

/-- The record of a completed generation (R271). -/
def State.writePennant (s : State) (b : Barrier) (k : Nat) : State :=
  let w0 := b.band.launch % 2 ^ 32 + b.band.band % 2 ^ 16 * 2 ^ 32 + b.n * 2 ^ 48
  let crc := crc64 (b.captures.flatMap Prod.snd)
  let s1 := ((s.writeWord (k + 8) (ofN (b.g + b.captures.length * 2 ^ 32))).writeWord (k + 16) (ofN s.beat)).writeWord (k + 24) crc
  (((s1.writeWord k (ofN w0)).setFull k true).changed k).modContext b.band.ctx fun c => { c with plogNext := c.plogNext + 1 }

/-- The generation of a barrier completes (R261). -/
def Barrier.complete (b : Barrier) (beat : Nat) : Barrier :=
  { b with
    g := (b.g + 1) % 2 ^ 32
    a := 0
    c := b.c'.getD b.c
    c' := none
    doneAt := (b.g, beat) :: b.doneAt.filter fun x => decide (beat ≤ x.2 + 12)
    captures := []
    heldPennant := false }

/-- The generation a waiting thread waits for at a barrier of its band. -/
def State.waitsGen (s : State) (t : ThreadRef) (th : Thread) (band : BandRef) (n : Nat) (b : Barrier) : Option Nat :=
  if th.bandRef = band then
    match th.wait with
    | some ⟨.bar m g, r, w⟩ => if m = n ∧ !exhausted r w s.beat then some g else none
    | some ⟨.barSync m, r, w⟩ => if m = n ∧ !s.arriving t n ∧ !exhausted r w s.beat then some (b.target th.tib) else none
    | _ => none
  else none

/-- A waiter of a barrier whose generation has completed, its budget not spent, goes on (R262, R264, R387). -/
def State.wakeWaiter (s : State) (band : BandRef) (n : Nat) (t : ThreadRef) : State :=
  match s.thread? t, s.barrier? band n with
  | some th, some b =>
    match s.waitsGen t th band n b with
    | some g =>
      if genDone b.g g then
        let d := match s.bandCluster? band with | some cl => barDistance t.core cl | none => 0
        (s.clearPending th n).modThread t fun x => { x.goOn with notBefore := max x.notBefore (b.wake g d) }
      else s
    | none => s
  | _, _ => s

/-- Every waiter of a barrier is looked at. -/
def State.wakeWaiters (s : State) (band : BandRef) (n : Nat) : State :=
  s.allThreads.foldl (fun a p => a.wakeWaiter band n p.1) s

/-- The count is full: the generation completes, its pennant written first, or held while the log is full (R271). -/
def State.tryComplete (s : State) (band : BandRef) (n : Nat) : State :=
  match s.barrier? band n with
  | none => s
  | some b =>
    if b.a ≠ b.c then s
    else
      let finish (s : State) := (s.modBarrier band n fun x => x.complete s.beat).wakeWaiters band n
      match s.context? band.ctx with
      | none => finish s
      | some c =>
        if !c.pennant ∨ b.captures.isEmpty then finish s
        else match s.plogFree? c with
        | some k => finish (s.writePennant b k)
        | none =>
          if b.heldPennant then s
          else (s.modBarrier band n fun x => { x with heldPennant := true }).postDie
            (match s.bandCluster? band with | some cl => cl / 16 | none => 0) 10

/-- A message may reach the barrier unit: its distance has passed, every access it follows has been performed, every
earlier message of its thread has arrived (R260, R264), and no pennant of the barrier is held (R271). DESIGN CHOICE: log 12. -/
def State.barDue (s : State) (m : BarMsg) : Bool :=
  decide (m.sentAt + m.distance ≤ s.beat)
    && !(s.barMsgs.any fun x => x.thread == m.thread && decide (x.id < m.id))
    && (m.cfg.isSome || s.allPerformed m.thread m.upTo false)
    && (match s.barrier? m.band m.n with | some b => !b.heldPennant | none => true)

/-- An arrival leaves only when every access it follows has been performed (R247): one that is still held back as a
rotation begins does not leave in that rotation, as no held access does. DEDUCED: log 19. -/
def State.holdBars (s : State) : State :=
  { s with barMsgs := s.barMsgs.map fun m =>
      if m.cfg.isNone && !s.allPerformed m.thread m.upTo false then { m with sentAt := s.beat + 1 } else m }

/-- A message that has arrived. -/
def State.dropBar (s : State) (id : Nat) : State := { s with barMsgs := eraseFirst (fun m => m.id == id) s.barMsgs }

/-- BAR_CFG_ARRIVAL (R260). -/
def execBarCfgArrival (id : Nat) (s : State) : Host.Outcome State Fault Refusal :=
  match s.barMsgs.find? fun m => m.id == id with
  | none => .next s
  | some m =>
    match m.cfg with
    | none => .next s
    | some v =>
      if !s.barDue m then .next s
      else .next ((s.dropBar id).modBarrier m.band m.n fun b =>
        if b.a = 0 then { b with c := v, c' := none } else { b with c' := some v })

/-- An arrival counted (R261). -/
def Barrier.arrival (m : BarMsg) (b : Barrier) : Barrier :=
  { b with
    a := b.a + 1
    pend := insertKey b.pend m.tib b.g
    captures := if m.capture.isEmpty then b.captures else insertCapture b.captures (m.tib, m.capture) }

/-- BARRIER_ARRIVAL (R261): the arrival is counted, and may complete the generation. -/
def execBarrierArrival (id : Nat) (s : State) : Host.Outcome State Fault Refusal :=
  match s.barMsgs.find? fun m => m.id == id with
  | none => .next s
  | some m =>
    if m.cfg.isSome ∨ !s.barDue m then .next s
    else .next (((s.dropBar id).modBarrier m.band m.n (Barrier.arrival m)).tryComplete m.band m.n)

/-- PENNANT_RECORD_WRITE (R271): a held pennant is written once its record is free, and its generation completes. -/
def execPennantRecordWrite (cl i : Nat) (s : State) : Host.Outcome State Fault Refusal :=
  match (s.cluster cl).barriers[i]? with
  | none => .next s
  | some b => if b.heldPennant then .next (s.tryComplete b.band b.n) else .next s

/-- BAR_TIMEOUT (R262, R387): bar.budget is spent; the arrival and p stay. -/
def execBarTimeout (t : ThreadRef) (s : State) : Host.Outcome State Fault Refusal :=
  match s.thread? t with
  | none => .next s
  | some th =>
    match th.wait with
    | none => .next s
    | some w =>
      if !exhausted w.since w.budget s.beat then .next s
      else match w.kind with
      | .bar n _ | .barSync n => .next (s.raise t .barTimeout 0 (ofN n) th.pc)
      | _ => .next s

end Sys2Proof.Machine
end

