-- ==== Sys2Proof/Machine/Copies.lean ====
section
/-! DEFINITION. The copy unit: CP (R208, R209), batches (R210), XFENCE (R211), and the event that moves one word. -/

namespace Sys2Proof.Machine

/-! ## Ranges of engine operands (R208 step 2) -/

/-- An end of a range that lies in no window an engine may use, or fails R189. -/
def State.endBad (s : State) (t : ThreadRef) (th : Thread) (a : Word) : Bool :=
  match windowOf a with
  | .global => false
  | .local_ off => !s.scratchOk t.core t.core off th.ctx th
  | .core c off =>
    match s.physical? th.ctx c with
    | none => true
    | some n => !s.scratchOk t.core n off th.ctx th
  | _ => true

/-- Two addresses lie in the same of the windows LOCAL, CORE and GLOBAL. -/
def sameWindow (a b : Word) : Bool :=
  match windowOf a, windowOf b with
  | .global, .global => true
  | .local_ _, .local_ _ => true
  | .core .., .core .. => true
  | _, _ => false

/-- The offending end of a range [x, x + n - 1], n > 0, if it fails step 2 of R208. DEDUCED: log 16. -/
def State.rangeBad (s : State) (t : ThreadRef) (th : Thread) (x : Word) (n : Nat) : Option Word :=
  let hi := x + ofN (n - 1)
  if s.endBad t th x then some x
  else if 2 ^ 64 < x.toNat + n then some x
  else if s.endBad t th hi || !sameWindow x hi then some hi
  else none

/-! ## CP (R208, R386) -/

/-- trap.info of a CP operand (R386): bit 2, and its role. -/
def cpInfo (mode : Nat) (write : Bool) : Word := ofN (4 + b2n write + 2 * b2n (mode != 0))

/-- A copy as it is queued. -/
def newCopy (s : State) (th : Thread) (mode : Nat) (dst src : Word) (n : Nat) : Copy :=
  { id := s.serial, slot := s.cur.slot, ctx := th.ctx, mode := mode, dst := dst, src := src, n := n, w := 0, pc := th.pc
    batch := none, record := none, scope := th.scopeD, band := th.bandRef, ended := false, priv := th.privileged }

/-- The effect of a CP on band.OUT (R308). -/
def State.copyEffect (s : State) (th : Thread) (mode : Nat) (dst : Word) (n : Nat) : State :=
  if mode = 2 ∨ mode = 4 then s.effectOut th else if n = 0 then s else s.effectRange th dst n

/-- CP.mode (R208): 0 PLAIN, 1 COPY, 2 FILL, 3 NEED, 4 TAKE. -/
def cpForm (mode : Nat) (p : Pred) (d a b : Reg) (s : State) : Host.Outcome State Fault Refusal :=
  issue (Meta.scalar [d.toNat, a.toNat, b.toNat] []) p s fun s1 th =>
    let dst := th.readS d.toNat
    let src := th.readS a.toNat
    let len := th.readS b.toNat
    let n := len.toNat
    let srcInfo := cpInfo mode (mode == 4)
    if dst.toNat % 8 ≠ 0 then .trap .align dst (cpInfo mode true)
    else if src.toNat % 8 ≠ 0 then .trap .align src srcInfo
    else if n % 8 ≠ 0 then .trap .align len 4
    else match (if n = 0 then none else s1.rangeBad s1.cur th dst n) with
    | some x => .trap .access x (cpInfo mode true)
    | none =>
      match (if n = 0 then none else s1.rangeBad s1.cur th src n) with
      | some x => .trap .access x srcInfo
      | none =>
        if 16 ≤ (s1.core s1.cur.core).copies.length then .wait .room
        else
          let s2 := s1.copyEffect th mode dst n
          if n = 0 then .done s2
          else .done (s2.tick.modCore s2.cur.core fun c => { c with copies := c.copies ++ [newCopy s2 th mode dst src n] })

/-- CP.PLAIN (R208, R209). -/
def execCpPlain (p : Pred) (d a b : Reg) (s : State) := cpForm 0 p d a b s
/-- CP.COPY (R208, R209). -/
def execCpCopy (p : Pred) (d a b : Reg) (s : State) := cpForm 1 p d a b s
/-- CP.FILL (R208, R209). -/
def execCpFill (p : Pred) (d a b : Reg) (s : State) := cpForm 2 p d a b s
/-- CP.NEED (R208, R209). -/
def execCpNeed (p : Pred) (d a b : Reg) (s : State) := cpForm 3 p d a b s
/-- CP.TAKE (R208, R209). -/
def execCpTake (p : Pred) (d a b : Reg) (s : State) := cpForm 4 p d a b s

/-! ## Batches (R210) and XFENCE (R211) -/

/-- A copy of a live thread in a slot. -/
def Copy.of (slot : Nat) (c : Copy) : Bool := c.slot == slot && !c.ended

/-- A copy that no batch holds is assigned to one. -/
def Copy.close (slot n : Nat) (c : Copy) : Copy :=
  if c.of slot && c.batch.isNone then { c with batch := some n } else c

/-- CBATCH (R210). -/
def execCbatch (p : Pred) (d : Reg) (s : State) : Host.Outcome State Fault Refusal :=
  issue (Meta.scalar [] [d.toNat]) p s fun s1 th =>
    let n := th.copyBatch + 1
    let s2 := s1.modCore s1.cur.core fun c => { c with copies := c.copies.map (Copy.close s1.cur.slot n) }
    .done (s2.modThread s2.cur fun x => { x with copyBatch := n }.writeS d.toNat (ofN n) s2.beat)

/-- A batch number is among 1 … lim. -/
def inBatch (lim : Nat) (b : Option Nat) : Bool := match b with | some k => decide (k ≤ lim) | none => false

/-- A copy of a thread in batches 1 … lim has not ended. -/
def State.copiesRun (s : State) (t : ThreadRef) (lim : Nat) : Bool :=
  (s.core t.core).copies.any fun c => c.of t.slot && inBatch lim c.batch

/-- CWAIT (R210): every copy in batches 1 … min(n, count) has completed or ended with its record written. -/
def execCwait (p : Pred) (a : Reg) (s : State) : Host.Outcome State Fault Refusal :=
  issue (Meta.scalar [a.toNat] []) p s fun s1 th =>
    let lim := min (th.readS a.toNat).toNat th.copyBatch
    if s1.copiesRun s1.cur lim then .block (.work (.copies lim)) (BitVec.allOnes 64) s1 else .done s1

/-- XFENCE (R211): every older load, store, full/empty form, atomic and reduction has been performed or recorded. -/
def execXfence (p : Pred) (s : State) : Host.Outcome State Fault Refusal :=
  issue Meta.plain p s fun s1 _ =>
    if s1.allPerformed s1.cur s1.serial true then .done s1 else .block (.work .accesses) (BitVec.allOnes 64) s1

/-! ## One word (R209) -/

/-- The thread that stands for an engine command's issuer in the checks of R192 and R338: its context and its privilege, as
they were at issue. -/
def engineThread (ctx : Nat) (priv : Bool) : Thread := { Thread.blank with ctx := ctx, mode := if priv then .control else .run }

/-- An engine's access to a word resolved: where it is, or the cause that ends the command, or a wait. -/
inductive EngineXl where
  | ok (key : Nat) (e : Option TlbEntry)
  | bad (c : Cause)
  | miss
  deriving DecidableEq, Repr

/-- An engine's access to a word: R192 steps 2 to 4, read permission as well where asked, and uncorrectable errors. -/
def State.engineResolve (s : State) (t : ThreadRef) (th : Thread) (va : Word) (a : Acc) (alsoRead : Bool) (id : Nat) :
    EngineXl :=
  match s.resolve t th va a (.req id) with
  | .ok key e =>
    if alsoRead && (match e with | some x => !x.rd | none => false) then .bad .access
    else if s.eccAt key then .bad .eccUncorrectable
    else .ok key e
  | .fault c _ => .bad c
  | .miss => .miss
  | _ => .bad .access

/-- A copy of a core changed. -/
def State.modCopy (s : State) (core id : Nat) (f : Copy → Copy) : State :=
  s.modCore core fun c => { c with copies := modFirst (fun x => x.id == id) f c.copies }

/-- A copy that has completed or whose record is written. -/
def State.dropCopy (s : State) (core id : Nat) : State :=
  s.modCore core fun c => { c with copies := eraseFirst (fun x => x.id == id) c.copies }

/-- A copy ends early: its record is written, or waits for a free place (R207, R209). -/
def State.endCopy (s : State) (core : Nat) (c : Copy) (cause : Nat) (need : Bool) (a : Word) : State :=
  let s1 := s.meetFailure core (.req c.id)
  match s1.engineRecord core c.slot c.ctx c.ended cause need c.pc a (ofN (8 * c.w)) with
  | some s2 => s2.dropCopy core c.id
  | none => s1.modCopy core c.id fun x => { x with record := some (cause, need, a, 8 * c.w) }

/-- The encryption of a word's two places: a copy in control mode between two frames of one confidential slot decrypts and
encrypts inside the copy unit (R338). -/
def copyKeying (priv : Bool) (a b : Keying) : Keying × Keying :=
  match a, b with
  | .sealed x, .sealed y => if priv ∧ x = y then (.under x, .under x) else (a, b)
  | _, _ => (a, b)

/-- Word w moved between two places: the source's data and bit first, and its bit cleared by TAKE; then the destination's
data, and its bit by COPY and FILL (R209). -/
def State.moveWord (s : State) (mode src dst : Nat) (sc dc : Keying) : State :=
  let x := s.readAs sc src 8
  let b := s.full src
  let s1 := if mode = 4 then ((s.setFull src false).noteFreed src).changed src else s
  let s2 := s1.writeAs dc dst 8 x
  match mode with
  | 1 => (s2.setFull dst b).changed dst
  | 2 => (s2.setFull dst true).changed dst
  | _ => s2

/-- The next word of a copy. Both places are resolved before either is touched. DEDUCED: log 16. -/
def State.copyNext (s : State) (core : Nat) (c : Copy) : State :=
  let t : ThreadRef := ⟨core, c.slot⟩
  let th := engineThread c.ctx c.priv
  let sa := c.src + ofN (8 * c.w)
  let da := c.dst + ofN (8 * c.w)
  let fe := c.mode == 1 || c.mode == 3 || c.mode == 4
  match s.engineResolve t th sa (if fe then accEngineFe (c.mode == 4) else accEngineRead) true c.id with
  | .miss => s.joinMiss (unitOf core) c.ctx sa 0 t (.req c.id)
  | .bad x => s.endCopy core c x.code false sa
  | .ok sk se =>
    if s.held sk then s
    else if s.grantSaved c.ctx sk then s.holdSaved sk (.copy core c.id)
    else if c.mode = 3 ∧ !s.full sk then s.endCopy core c 0 true sa
    else
      match s.engineResolve t th da (if c.mode = 1 ∨ c.mode = 2 then accEngineFe true else accEngineWrite) false c.id with
      | .miss => s.joinMiss (unitOf core) c.ctx da 1 t (.req c.id)
      | .bad x => s.endCopy core c x.code false da
      | .ok dk de =>
        if s.held dk then s
        else if s.grantSaved c.ctx dk then s.holdSaved dk (.copy core c.id)
        else
          let x := copyKeying c.priv (s.cipherFor th se) (s.cipherFor th de)
          let s1 := (s.correct sk).moveWord c.mode sk dk x.1 x.2
          if 8 * (c.w + 1) < c.n then s1.modCopy core c.id fun x => { x with w := c.w + 1 } else s1.dropCopy core c.id

/-- A copy's turn: the copies of one thread complete in issue order (R209). -/
def Core.copyTurn (c : Core) (x : Copy) : Bool :=
  match c.copies.find? fun y => y.slot == x.slot with
  | some y => y.id == x.id
  | none => false

/-- COPY_WORD (R209): the copy unit moves one word of a copy, or ends it with a record. -/
def execCopyWord (core id : Nat) (s : State) : Host.Outcome State Fault Refusal :=
  match (s.core core).copies.find? fun c => c.id == id with
  | none => .next s
  | some c =>
    if !(s.core core).copyTurn c then .next s
    else match c.record with
    | some r =>
      match s.engineRecord core c.slot c.ctx c.ended r.1 r.2.1 c.pc r.2.2.1 (ofN r.2.2.2) with
      | some s1 => .next (s1.dropCopy core id)
      | none => .next s
    | none => .next (s.copyNext core c)

end Sys2Proof.Machine
end

