-- ==== Sys2Proof/Machine/Float.lean ====
section
/-! DEFINITION. The number formats and arithmetic rules of chapter "Number formats and arithmetic rules": exact
arithmetic on integers, one rounding at the end (R84-R102). -/

namespace Sys2Proof.Machine

/-! ## Flags (R72) -/

/-- NV, invalid operation. -/
def flagNV : Nat := 1
/-- DZ, division by zero. -/
def flagDZ : Nat := 2
/-- OF, overflow. -/
def flagOF : Nat := 4
/-- UF, underflow. -/
def flagUF : Nat := 8
/-- NX, inexact. -/
def flagNX : Nat := 16

/-! ## Formats (R84) -/

/-- A floating format: exponent and fraction widths, bias, the significand and exponent of the largest finite value,
whether it has infinities and an all-ones NaN exponent as IEEE 754 does, and whether FTZ acts on it (R95). -/
structure Fmt where
  ew : Nat
  fw : Nat
  bias : Nat
  maxSig : Nat
  maxExp : Nat
  ieee : Bool
  ftz : Bool
  /-- the canonical NaN (R96) -/
  nan : Nat
  deriving DecidableEq, Repr

def fp64 : Fmt := ⟨11, 52, 1023, 2 ^ 53 - 1, 1023, true, true, 0x7FF8000000000000⟩
def fp32 : Fmt := ⟨8, 23, 127, 2 ^ 24 - 1, 127, true, true, 0x7FC00000⟩
def fp16 : Fmt := ⟨5, 10, 15, 2 ^ 11 - 1, 15, true, true, 0x7E00⟩
def bf16 : Fmt := ⟨8, 7, 127, 2 ^ 8 - 1, 127, true, true, 0x7FC0⟩
def e5m2 : Fmt := ⟨5, 2, 15, 7, 15, true, false, 0x7E⟩
def e4m3 : Fmt := ⟨4, 3, 7, 14, 8, false, false, 0x7F⟩
def e2m1 : Fmt := ⟨2, 1, 1, 3, 2, false, false, 0⟩
def e9m26 : Fmt := ⟨9, 26, 255, 2 ^ 27 - 1, 255, true, false, 0x7FE000000⟩

/-- A decoded value: a NaN, an infinity, or ± m × 2^e exactly. -/
inductive Fp where
  | nan (signalling : Bool)
  | inf (neg : Bool)
  | fin (neg : Bool) (m : Nat) (e : Int)
  deriving DecidableEq, Repr

namespace Fmt

/-- All bits of an exponent field. -/
def expMax (f : Fmt) : Nat := 2 ^ f.ew - 1
/-- The exponent of the smallest normal value. -/
def emin (f : Fmt) : Int := 1 - f.bias
/-- The sign bit placed. -/
def signBit (f : Fmt) (neg : Bool) : Nat := if neg then 2 ^ (f.ew + f.fw) else 0
/-- ±∞ of an IEEE format. -/
def infinity (f : Fmt) (neg : Bool) : Nat := f.signBit neg + f.expMax * 2 ^ f.fw
/-- The largest finite value of a sign. -/
def largest (f : Fmt) (neg : Bool) : Nat := f.signBit neg + (f.maxExp + f.bias) * 2 ^ f.fw + (f.maxSig - 2 ^ f.fw)

/-- The value a code stands for (R84). -/
def decode (f : Fmt) (x : Nat) : Fp :=
  let neg := bits x (f.ew + f.fw) (f.ew + f.fw) == 1
  let ex := bits x (f.ew + f.fw - 1) f.fw
  let fr := x % 2 ^ f.fw
  if f.ieee && ex == f.expMax then
    if fr = 0 then .inf neg else .nan (fr < 2 ^ (f.fw - 1))
  else if f.nan ≠ 0 && !f.ieee && x % 2 ^ (f.ew + f.fw) == f.nan then .nan false
  else if ex = 0 then .fin neg fr (f.emin - f.fw)
  else .fin neg (2 ^ f.fw + fr) ((ex : Int) - f.bias - f.fw)

/-- Whether a code is a subnormal. -/
def subnormal (f : Fmt) (x : Nat) : Bool := bits x (f.ew + f.fw - 1) f.fw == 0 && x % 2 ^ f.fw != 0

/-- The value an instruction reads from an operand: under FTZ a subnormal is zero of its sign (R95). -/
def read (f : Fmt) (ftz : Bool) (x : Nat) : Fp :=
  if ftz && f.ftz && f.subnormal x then f.decode (x / 2 ^ f.fw * 2 ^ f.fw) else f.decode x

end Fmt

/-! ## Rounding (R91-R93) -/

/-- A rounding mode; stochastic rounding carries its 32-bit R. -/
inductive RMode where
  | rne | rtz | rdn | rup | rna
  | sr (r : Nat)
  deriving DecidableEq, Repr

/-- The mode of a code of fp.ctl.RM (R71). -/
def RMode.ofNat (n : Nat) : RMode :=
  match n with
  | 0 => .rne | 1 => .rtz | 2 => .rdn | 3 => .rup | _ => .rna

/-- m × 2^e rounded to a multiple of 2^q, as a multiple of 2^q, and whether it is exact. more says that the exact value
lies strictly above m × 2^e and below (m + 1) × 2^e. -/
def roundAt (mode : RMode) (neg : Bool) (m : Nat) (e q : Int) (more : Bool) : Nat × Bool :=
  if q ≤ e then (m * 2 ^ (e - q).toNat, !more)
  else
    let sh := (q - e).toNat
    let n := m / 2 ^ sh
    let r := m % 2 ^ sh
    let half := 2 ^ (sh - 1)
    let exact := r = 0 && !more
    let up := match mode with
      | .rne => r > half || (r == half && (more || n % 2 == 1))
      | .rna => r ≥ half
      | .rtz => false
      | .rdn => neg && !exact
      | .rup => !neg && !exact
      | .sr k => k < r * 2 ^ 32 / 2 ^ sh
    (if up then n + 1 else n, exact)

/-- The exponent of the leading bit of n × 2^q. -/
def leadExp (n : Nat) (q : Int) : Int := (n.log2 : Int) + q

/-- Overflow (R92). -/
def overflow (f : Fmt) (mode : RMode) (neg : Bool) : Nat × Nat :=
  let toInf := match mode with
    | .rne | .rna => true
    | .rtz | .sr _ => false
    | .rdn => neg
    | .rup => !neg
  (if f.ieee && toInf then f.infinity neg else f.largest neg, flagOF + flagNX)

/-- The exact value ± m × 2^e (with more as in roundAt) rounded once to a format, with the flags raised (R91-R93, R95,
R97). -/
def roundFin (f : Fmt) (mode : RMode) (ftz : Bool) (neg : Bool) (m : Nat) (e : Int) (more : Bool) : Nat × Nat :=
  if m = 0 then (f.signBit neg, 0)
  else
    let q0 := leadExp m e - f.fw
    let u := roundAt mode neg m e q0 more
    let eu := leadExp u.1 q0
    let big := leadExp m e > f.maxExp
    let beyond := match mode with
      | .sr _ => big || (leadExp m e == f.maxExp && (u.1 > f.maxSig ||
          (decide (m * 2 ^ (e - q0).toNat / 2 ^ (q0 - e).toNat ≥ f.maxSig) && !u.2)))
      | _ => decide (eu > f.maxExp) || (eu == f.maxExp && decide (u.1 / 2 ^ (eu - q0 - f.fw).toNat > f.maxSig))
    if beyond then overflow f mode neg
    else
      let tiny := eu < f.emin
      if tiny && ftz && f.ftz then (f.signBit neg, flagUF + flagNX)
      else
        let q := max q0 (f.emin - f.fw)
        let v := roundAt mode neg m e q more
        let fl := if v.2 then 0 else flagNX + (if tiny then flagUF else 0)
        let code :=
          if v.1 < 2 ^ f.fw then v.1
          else if v.1 < 2 ^ (f.fw + 1) then (q + f.fw + f.bias).toNat * 2 ^ f.fw + (v.1 - 2 ^ f.fw)
          else (q + 1 + f.fw + f.bias).toNat * 2 ^ f.fw
        (f.signBit neg + code, fl)

/-- Any value rounded to a format; a NaN becomes the canonical NaN, an infinity stays or, in a format without one,
becomes the largest finite value and sets OF and NX (R92, R96). -/
def roundFp (f : Fmt) (mode : RMode) (ftz : Bool) (x : Fp) : Nat × Nat :=
  match x with
  | .nan _ => (f.nan, 0)
  | .inf neg => if f.ieee then (f.infinity neg, 0) else (f.largest neg, flagOF + flagNX)
  | .fin neg m e => roundFin f mode ftz neg m e false

/-- XorShift64 (R94). -/
def xorShift64 (x : Word) : Word :=
  let a := x ^^^ (x <<< 13)
  let b := a ^^^ (a >>> 7)
  b ^^^ (b <<< 17)

/-! ## Exact operations -/

/-- Signed magnitude as an integer at exponent e0 ≤ e. -/
def scaled (neg : Bool) (m : Nat) (e e0 : Int) : Int :=
  let n : Int := m * 2 ^ (e - e0).toNat
  if neg then -n else n

/-- Whether a NaN input sets NV (R97). -/
def snan : Fp → Nat
  | .nan true => flagNV
  | _ => 0

/-- Whether a value is a NaN. -/
def Fp.isNan : Fp → Bool
  | .nan _ => true
  | _ => false

/-- x with its sign inverted. -/
def Fp.negate : Fp → Fp
  | .nan s => .nan s
  | .inf n => .inf (!n)
  | .fin n m e => .fin (!n) m e

/-- The exact sum, with the zero rules of R110, and the flags of its special cases. A NaN input gives a NaN. -/
def Fp.add (mode : RMode) (a b : Fp) : Fp × Nat :=
  match a, b with
  | .nan s, y => (.nan s, snan (.nan s) ||| snan y)
  | x, .nan s => (.nan s, snan x ||| snan (.nan s))
  | .inf x, .inf y => if x = y then (.inf x, 0) else (.nan false, flagNV)
  | .inf x, .fin .. => (.inf x, 0)
  | .fin .., .inf y => (.inf y, 0)
  | .fin xn xm xe, .fin yn ym ye =>
    let e0 := min xe ye
    let z := scaled xn xm xe e0 + scaled yn ym ye e0
    if z = 0 then
      (.fin (if xm = 0 ∧ ym = 0 ∧ xn = yn then xn else mode == .rdn) 0 e0, 0)
    else (.fin (z < 0) z.natAbs e0, 0)

/-- The exact product and the flags of its special cases. -/
def Fp.mul (a b : Fp) : Fp × Nat :=
  match a, b with
  | .nan s, y => (.nan s, snan (.nan s) ||| snan y)
  | x, .nan s => (.nan s, snan x ||| snan (.nan s))
  | .inf x, .inf y => (.inf (x != y), 0)
  | .inf x, .fin yn ym _ => if ym = 0 then (.nan false, flagNV) else (.inf (x != yn), 0)
  | .fin xn xm _, .inf y => if xm = 0 then (.nan false, flagNV) else (.inf (xn != y), 0)
  | .fin xn xm xe, .fin yn ym ye => (.fin (xn != yn) (xm * ym) (xe + ye), 0)

/-- The largest r with r² ≤ m, for m < 2^(2k). -/
def isqrt : Nat → Nat → Nat → Nat
  | 0, _, r => r
  | k + 1, m, r => if (r + 2 ^ k) * (r + 2 ^ k) ≤ m then isqrt k m (r + 2 ^ k) else isqrt k m r

/-! ## Operations on codes: the result's code and the flags raised (R110-R116, R97) -/

/-- Addition, rounded once. -/
def fpAdd (f : Fmt) (mode : RMode) (ftz : Bool) (a b : Nat) : Nat × Nat :=
  let r := Fp.add mode (f.read ftz a) (f.read ftz b)
  let v := roundFp f mode ftz r.1
  (v.1, v.2 ||| r.2)

/-- Subtraction, rounded once. -/
def fpSub (f : Fmt) (mode : RMode) (ftz : Bool) (a b : Nat) : Nat × Nat :=
  let r := Fp.add mode (f.read ftz a) (f.read ftz b).negate
  let v := roundFp f mode ftz r.1
  (v.1, v.2 ||| r.2)

/-- Multiplication, rounded once. -/
def fpMul (f : Fmt) (mode : RMode) (ftz : Bool) (a b : Nat) : Nat × Nat :=
  let r := Fp.mul (f.read ftz a) (f.read ftz b)
  let v := roundFp f mode ftz r.1
  (v.1, v.2 ||| r.2)

/-- d + a × b, or d − a × b when sub is set, with one rounding (R112). -/
def fpFma (f : Fmt) (mode : RMode) (ftz : Bool) (sub : Bool) (d a b : Nat) : Nat × Nat :=
  let p := Fp.mul (f.read ftz a) (f.read ftz b)
  let r := Fp.add mode (f.read ftz d) (if sub then p.1.negate else p.1)
  let v := roundFp f mode ftz r.1
  (v.1, v.2 ||| r.2 ||| p.2)

/-- Division, rounded once; x ÷ 0 for finite x ≠ 0 is a signed infinity and sets DZ (R111). -/
def fpDiv (f : Fmt) (mode : RMode) (ftz : Bool) (a b : Nat) : Nat × Nat :=
  match f.read ftz a, f.read ftz b with
  | .nan s, y => (f.nan, snan (.nan s) ||| snan y)
  | x, .nan s => (f.nan, snan x ||| snan (.nan s))
  | .inf _, .inf _ => (f.nan, flagNV)
  | .inf x, .fin yn _ _ => (f.infinity (x != yn), 0)
  | .fin xn _ _, .inf y => (f.signBit (xn != y), 0)
  | .fin xn xm xe, .fin yn ym ye =>
    if ym = 0 then
      if xm = 0 then (f.nan, flagNV) else (f.infinity (xn != yn), flagDZ)
    else
      let k := f.fw + 4 + ym.log2
      let n := xm * 2 ^ k
      roundFin f mode ftz (xn != yn) (n / ym) (xe - ye - k) (n % ym != 0)

/-- Square root, rounded once; √−0 = −0, and a value below −0 gives NaN and NV (R111). -/
def fpSqrt (f : Fmt) (mode : RMode) (ftz : Bool) (a : Nat) : Nat × Nat :=
  match f.read ftz a with
  | .nan s => (f.nan, snan (.nan s))
  | .inf neg => if neg then (f.nan, flagNV) else (f.infinity false, 0)
  | .fin neg m e =>
    if m = 0 then (f.signBit neg, 0)
    else if neg then (f.nan, flagNV)
    else
      let k := f.fw + 4
      let n := m * 2 ^ (2 * k)
      let e' := e - (2 * k : Nat)
      let n2 := if e' % 2 = 0 then n else 2 * n
      let e2 := if e' % 2 = 0 then e' else e' - 1
      let r := isqrt (n2.log2 / 2 + 1) n2 0
      roundFin f mode ftz false r (e2 / 2) (r * r != n2)

/-- Whether x orders below y among non-NaN values, −0 below +0 (R97). -/
def Fp.lt (x y : Fp) (zeros : Bool) : Bool :=
  match x, y with
  | .nan _, _ | _, .nan _ => false
  | .inf a, .inf b => a && !b
  | .inf a, .fin .. => a
  | .fin .., .inf b => !b
  | .fin xn xm xe, .fin yn ym ye =>
    let e0 := min xe ye
    let a := scaled xn xm xe e0
    let b := scaled yn ym ye e0
    a < b || (zeros && a == b && xn && !yn)

/-- minimumNumber, or maximumNumber when hi is set (R97). -/
def fpMinMax (f : Fmt) (ftz : Bool) (hi : Bool) (a b : Nat) : Nat × Nat :=
  let x := f.read ftz a
  let y := f.read ftz b
  let fl := snan x ||| snan y
  match x.isNan, y.isNan with
  | true, true => (f.nan, fl)
  | true, false => ((roundFp f .rne false y).1, fl)
  | false, true => ((roundFp f .rne false x).1, fl)
  | false, false =>
    let takeX := if hi then y.lt x true else x.lt y true
    ((roundFp f .rne false (if takeX then x else y)).1, fl)

/-- A floating compare (R113). -/
inductive FCond where
  | eq | lt | le | un
  deriving DecidableEq, Repr

/-- The condition and the flags of a compare (R113, R97). -/
def fpCmp (f : Fmt) (ftz : Bool) (c : FCond) (a b : Nat) : Bool × Nat :=
  let x := f.read ftz a
  let y := f.read ftz b
  let nan := x.isNan || y.isNan
  let fl := snan x ||| snan y
  match c with
  | .un => (nan, fl)
  | .eq => (!nan && !x.lt y false && !y.lt x false, fl)
  | .lt => (x.lt y false, if nan then flagNV else 0)
  | .le => (!nan && !y.lt x false, if nan then flagNV else 0)

/-- The one-hot class of a code (R114). -/
def fpClass (f : Fmt) (x : Nat) : Nat :=
  match f.decode x with
  | .nan true => 2 ^ 8
  | .nan false => 2 ^ 9
  | .inf true => 1
  | .inf false => 2 ^ 7
  | .fin neg m _ =>
    if m = 0 then (if neg then 2 ^ 3 else 2 ^ 4)
    else if f.subnormal x then (if neg then 2 ^ 2 else 2 ^ 5)
    else (if neg then 2 ^ 1 else 2 ^ 6)

/-- A conversion between floating formats (R116, R140). -/
def fpConvert (src dst : Fmt) (mode : RMode) (ftz : Bool) (x : Nat) : Nat × Nat :=
  let v := src.read ftz x
  let r := roundFp dst mode ftz v
  (r.1, r.2 ||| snan v)

/-- An integer converted to a floating format (R116). -/
def intToFp (dst : Fmt) (mode : RMode) (ftz : Bool) (x : Int) : Nat × Nat :=
  roundFin dst mode ftz (x < 0) x.natAbs 0 false

/-- A floating value converted to an integer of the range lo … hi (R116). -/
def fpToInt (src : Fmt) (mode : RMode) (ftz : Bool) (lo hi : Int) (x : Nat) : Int × Nat :=
  match src.read ftz x with
  | .nan _ => (0, flagNV)
  | .inf neg => (if neg then lo else hi, flagNV)
  | .fin neg m e =>
    let r := roundAt mode neg m e 0 false
    let y : Int := if neg then -r.1 else r.1
    if y < lo then (lo, flagNV) else if y > hi then (hi, flagNV) else (y, if r.2 then 0 else flagNX)

/-! ## Term counts (R98) -/

/-- The number of non-zero digits of the non-adjacent form of m, for m < 2^fuel. -/
def nafTerms : Nat → Nat → Nat
  | 0, _ => 0
  | k + 1, m =>
    if m = 0 then 0
    else if m % 2 = 0 then nafTerms k (m / 2)
    else if m % 4 = 1 then 1 + nafTerms k (m / 2)
    else 1 + nafTerms k ((m + 1) / 2)

/-- The term count of a floating code (R98). -/
def fpTerms (f : Fmt) (x : Nat) : Nat :=
  match f.decode x with
  | .nan _ | .inf _ => 1
  | .fin _ m _ => nafTerms (f.fw + 3) m

/-! ## The 36-bit accumulator (R83, R88, R12) -/

/-- Sat36: the value clamped to the range of 36 bits, and whether it was clamped. -/
def sat36 (x : Int) : Int × Bool :=
  if x > 2 ^ 35 - 1 then (2 ^ 35 - 1, true) else if x < -(2 ^ 35) then (-(2 ^ 35), true) else (x, false)

/-- x clamped to lo … hi (R12). -/
def clamp (x lo hi : Int) : Int := if x < lo then lo else if x > hi then hi else x

end Sys2Proof.Machine
end

