-- ==== Sys2Proof/Machine/Flags.lean ====
section
/-! DEFINITION. The flag computations: the flag destination of a compare (R20, R108, R137), fp.ctl and fp.flags (R71,
R72), and stochastic steps of rng (R93). -/

namespace Sys2Proof.Machine

/-- All 32 bits of a flag from a condition (R108). -/
def flagOf (c : Bool) : Lane := if c then BitVec.allOnes 32 else 0

/-- A scalar compare writes the flag named by D[3:0]; D[4] = 1 ANDs into its old value (R20, R108). -/
def Thread.writeCmp (th : Thread) (d : Reg) (c : Bool) : Thread :=
  let r := d.toNat % 16
  th.writeF r (if d.getLsbD 4 then th.readF r &&& flagOf c else flagOf c)

/-- A vector compare writes the bits of the flag under the mask (R137); D[4] = 1 ANDs into the old bits. -/
def Thread.writeCmpV (th : Thread) (d : Reg) (mask : Lane) (v : Lane) : Thread :=
  let r := d.toNat % 16
  let old := th.readF r
  let new := if d.getLsbD 4 then old &&& v else v
  th.writeF r ((old &&& ~~~mask) ||| (new &&& mask))

/-- The dynamic rounding mode (R71). -/
def Thread.rm (th : Thread) : RMode := RMode.ofNat (wbits th.fpCtl 2 0)
/-- FTZ (R71). -/
def Thread.ftz (th : Thread) : Bool := wbit th.fpCtl 3

/-- The rounding mode of a rounding field (R30): 0 dynamic, 1-5 static, 6 stochastic with the R of the next step. -/
def Thread.modeOf (th : Thread) (field : Nat) (rng : Word) : RMode :=
  match field with
  | 0 => th.rm
  | 1 => .rne | 2 => .rtz | 3 => .rdn | 4 => .rup | 5 => .rna
  | _ => .sr (wbits (xorShift64 rng) 63 32)

/-- rng steps once for an element written with stochastic rounding (R93). -/
def Thread.stepRng (th : Thread) (field : Nat) : Thread :=
  if field = 6 then { th with rng := xorShift64 th.rng } else th

end Sys2Proof.Machine
end

