-- ==== Sys2Proof/Machine/Vector.lean ====
section
/-! DEFINITION. Vector and flag instructions, majors 0x40-0x55 and 0x60 (R130-R154). -/

namespace Sys2Proof.Machine

/-! ## Shapes (R17, R130, R131) -/

/-- What a vector instruction names. -/
def Meta.vec (vs rd wr : List Nat) (occ : Nat) : Meta :=
  { Meta.plain with vs := vs, rd := rd, wr := wr, occ := occ, masked := true }

/-- An instruction of the vector unit that acts on its own thread under its lane mask. -/
def vecOp (p : Pred) (m : Meta) (s : State) (f : Thread → Lane → Thread) : Host.Outcome State Fault Refusal :=
  issueLocal m p s fun th => f th (laneMask p th)

/-- v(d) with each lane i of the mask at g i (R17). -/
def Thread.setLanes (th : Thread) (d : Nat) (m : Lane) (g : Nat → Lane) : Thread :=
  th.writeV d (Vector.ofFn fun (i : Fin 32) => if m.getLsbD i then g i else th.readLane d i)

/-- The lanes of a mask, in ascending order. -/
def lanesOf (m : Lane) : List Nat := (List.range 32).filter fun i => m.getLsbD i

/-- The flags that the written elements raise (R131). -/
def unionFlags (l : List Nat) : Nat := l.foldl (· ||| ·) 0

/-- D[i] := f A[i] B[i] (R133). -/
def vecBin (p : Pred) (d a b : Reg) (s : State) (f : Lane → Lane → Lane) : Host.Outcome State Fault Refusal :=
  vecOp p (.vec [d.toNat, a.toNat, b.toNat] [] [] 1) s fun th m =>
    th.setLanes d.toNat m fun i => f (th.readLane a.toNat i) (th.readLane b.toNat i)

/-- D[i] := f A[i]. -/
def vecUn (p : Pred) (d a : Reg) (s : State) (f : Lane → Lane) : Host.Outcome State Fault Refusal :=
  vecOp p (.vec [d.toNat, a.toNat] [] [] 1) s fun th m => th.setLanes d.toNat m fun i => f (th.readLane a.toNat i)

/-- Lanes of FP32 results: each enabled lane's value and flags (R134). -/
def Thread.fpLanes (th : Thread) (d : Nat) (m : Lane) (g : Nat → Nat × Nat) : Thread :=
  (th.orFlags (unionFlags ((lanesOf m).map fun i => (g i).2))).setLanes d m fun i => BitVec.ofNat 32 (g i).1

/-- A two-operand FP32 form (R134). -/
def vecFp (p : Pred) (d a b : Reg) (occ : Nat) (s : State) (f : RMode → Bool → Nat → Nat → Nat × Nat) :
    Host.Outcome State Fault Refusal :=
  vecOp p (.vec [d.toNat, a.toNat, b.toNat] [] [] occ) s fun th m =>
    th.fpLanes d.toNat m fun i => f th.rm th.ftz (th.readLane a.toNat i).toNat (th.readLane b.toNat i).toNat

/-- A fused FP32 form: D is the accumulator (R134). -/
def vecFma (p : Pred) (sub : Bool) (d a b : Reg) (s : State) : Host.Outcome State Fault Refusal :=
  vecOp p (.vec [d.toNat, a.toNat, b.toNat] [] [] 1) s fun th m =>
    th.fpLanes d.toNat m fun i => fpFma fp32 th.rm th.ftz sub (th.readLane d.toNat i).toNat (th.readLane a.toNat i).toNat
      (th.readLane b.toNat i).toNat

/-- Half h (0 low, 1 high) of a lane (R132). -/
def half (x : Lane) (h : Nat) : Nat := x.toNat / 2 ^ (16 * h) % 2 ^ 16

/-- A packed 16-bit form on the 64 elements (R135): f takes the elements of D, A and B. -/
def vecPacked (p : Pred) (d a b : Reg) (s : State) (f : RMode → Bool → Nat → Nat → Nat → Nat × Nat) :
    Host.Outcome State Fault Refusal :=
  vecOp p (.vec [d.toNat, a.toNat, b.toNat] [] [] 1) s fun th m =>
    let r (i h : Nat) := f th.rm th.ftz (half (th.readLane d.toNat i) h) (half (th.readLane a.toNat i) h)
      (half (th.readLane b.toNat i) h)
    th.fpLanes d.toNat m fun i => ((r i 0).1 + (r i 1).1 * 2 ^ 16, (r i 0).2 ||| (r i 1).2)

/-- Element e of an FP64 register (R132). -/
def Thread.readD (th : Thread) (r e : Nat) : Nat :=
  (th.readLane r (2 * e)).toNat + (th.readLane r (2 * e + 1)).toNat * 2 ^ 32

/-- The mask of the lanes of the FP64 elements that M[2e] selects (R17). -/
def pairMask (m : Lane) : Lane := BitVec.ofNat 32 ((List.range 32).foldl (fun a i => if m.getLsbD (i / 2 * 2) then a + 2 ^ i else a) 0)

/-- FP64 elements written with their flags where M[2e] = 1 (R136). -/
def Thread.fpPairs (th : Thread) (d : Nat) (m : Lane) (g : Nat → Nat × Nat) : Thread :=
  let es := (List.range 16).filter fun e => m.getLsbD (2 * e)
  (th.orFlags (unionFlags (es.map fun e => (g e).2))).setLanes d (pairMask m) fun i =>
    BitVec.ofNat 32 ((g (i / 2)).1 / 2 ^ (32 * (i % 2)))

/-- A form on the 16 FP64 elements (R136): f takes the elements of D, A and B. -/
def vecD (p : Pred) (d a b : Reg) (occ : Nat) (s : State) (f : RMode → Bool → Nat → Nat → Nat → Nat × Nat) :
    Host.Outcome State Fault Refusal :=
  vecOp p (.vec [d.toNat, a.toNat, b.toNat] [] [] occ) s fun th m =>
    th.fpPairs d.toNat m fun e => f th.rm th.ftz (th.readD d.toNat e) (th.readD a.toNat e) (th.readD b.toNat e)

/-- A lane mask from a condition per lane. -/
def maskOf (c : Nat → Bool) : Lane := BitVec.ofNat 32 ((List.range 32).foldl (fun a i => if c i then a + 2 ^ i else a) 0)

/-- A vector compare into the flag D (R137). -/
def vecCmp (p : Pred) (d a b : Reg) (s : State) (c : Lane → Lane → Bool) : Host.Outcome State Fault Refusal :=
  vecOp p (.vec [a.toNat, b.toNat] [] [] 1) s fun th m =>
    th.writeCmpV d m (maskOf fun i => c (th.readLane a.toNat i) (th.readLane b.toNat i))

/-- An FP32 compare of lanes (R137). -/
def vecFcmp (p : Pred) (c : FCond) (d a b : Reg) (s : State) : Host.Outcome State Fault Refusal :=
  vecOp p (.vec [a.toNat, b.toNat] [] [] 1) s fun th m =>
    let r (i : Nat) := fpCmp fp32 th.ftz c (th.readLane a.toNat i).toNat (th.readLane b.toNat i).toNat
    (th.orFlags (unionFlags ((lanesOf m).map fun i => (r i).2))).writeCmpV d m (maskOf fun i => (r i).1)

/-! ## Conversions (R138-R140) -/

/-- Elements converted one after another, the generator stepping for each under stochastic rounding (R93): the results by
element, the flags, and the generator. -/
def convertAll (th : Thread) (field : Nat) (f : RMode → Nat → Nat × Nat) : List Nat → Word → List (Nat × Nat) × Nat × Word
  | [], g => ([], 0, g)
  | e :: es, g =>
    let r := f (th.modeOf field g) e
    let g1 := if field = 6 then xorShift64 g else g
    let rest := convertAll th field f es g1
    ((e, r.1) :: rest.1, r.2 ||| rest.2.1, rest.2.2)

/-- A conversion whose element i, of 2^w bits, sits in destination lane i × 2^w ÷ 32 (R139): elements per lane k, source
of element i given by f. -/
def vecCvt (p : Pred) (d a : Reg) (field k : Nat) (lanes occ : Nat) (s : State)
    (f : Thread → RMode → Nat → Nat × Nat) : Host.Outcome State Fault Refusal :=
  vecOp p (.vec [d.toNat, a.toNat] [] [] occ) s fun th m0 =>
    let m := m0 &&& BitVec.ofNat 32 (2 ^ lanes - 1)
    let es := (List.range (lanes * k)).filter fun i => m.getLsbD (i / k)
    let r := convertAll th field (f th) es th.rng
    let w := 32 / k
    ({ th with rng := r.2.2 }.orFlags r.2.1).setLanes d.toNat m fun i =>
      BitVec.ofNat 32 ((List.range k).foldl (fun x j => x + lookupD r.1 (i * k + j) 0 * 2 ^ (w * j)) 0)

/-- Narrow element i, k to a lane (R139). -/
def Thread.narrow (th : Thread) (r k i : Nat) : Nat := (th.readLane r (i / k)).toNat / 2 ^ (32 / k * (i % k)) % 2 ^ (32 / k)

/-! ## Integer lanes (R133) -/

/-- V.ADD (R133). -/
def execVAdd (p : Pred) (d a b : Reg) (s : State) :=
  vecBin p d a b s fun x y => x + y
/-- V.SUB (R133). -/
def execVSub (p : Pred) (d a b : Reg) (s : State) :=
  vecBin p d a b s fun x y => x - y
/-- V.MUL (R133). -/
def execVMul (p : Pred) (d a b : Reg) (s : State) :=
  vecBin p d a b s fun x y => x * y
/-- V.MULH.S32 (R133). -/
def execVMulhS32 (p : Pred) (d a b : Reg) (s : State) :=
  vecBin p d a b s fun x y => BitVec.ofInt 32 (x.toInt * y.toInt / 2 ^ 32)
/-- V.MULH.Z32 (R133). -/
def execVMulhZ32 (p : Pred) (d a b : Reg) (s : State) :=
  vecBin p d a b s fun x y => BitVec.ofNat 32 (x.toNat * y.toNat / 2 ^ 32)
/-- V.AND (R133). -/
def execVAnd (p : Pred) (d a b : Reg) (s : State) :=
  vecBin p d a b s fun x y => x &&& y
/-- V.OR (R133). -/
def execVOr (p : Pred) (d a b : Reg) (s : State) :=
  vecBin p d a b s fun x y => x ||| y
/-- V.XOR (R133). -/
def execVXor (p : Pred) (d a b : Reg) (s : State) :=
  vecBin p d a b s fun x y => x ^^^ y
/-- V.SHL (R133). -/
def execVShl (p : Pred) (d a b : Reg) (s : State) :=
  vecBin p d a b s fun x y => x <<< (y.toNat % 32)
/-- V.SHR (R133). -/
def execVShr (p : Pred) (d a b : Reg) (s : State) :=
  vecBin p d a b s fun x y => x >>> (y.toNat % 32)
/-- V.SAR (R133). -/
def execVSar (p : Pred) (d a b : Reg) (s : State) :=
  vecBin p d a b s fun x y => x.sshiftRight (y.toNat % 32)
/-- V.MIN.S32 (R133). -/
def execVMinS32 (p : Pred) (d a b : Reg) (s : State) :=
  vecBin p d a b s fun x y => if y.slt x then y else x
/-- V.MIN.Z32 (R133). -/
def execVMinZ32 (p : Pred) (d a b : Reg) (s : State) :=
  vecBin p d a b s fun x y => if y.ult x then y else x
/-- V.MAX.S32 (R133). -/
def execVMaxS32 (p : Pred) (d a b : Reg) (s : State) :=
  vecBin p d a b s fun x y => if x.slt y then y else x
/-- V.MAX.Z32 (R133). -/
def execVMaxZ32 (p : Pred) (d a b : Reg) (s : State) :=
  vecBin p d a b s fun x y => if x.ult y then y else x
/-- V.ADDS.S32 (R133). -/
def execVAddsS32 (p : Pred) (d a b : Reg) (s : State) :=
  vecBin p d a b s fun x y => BitVec.ofInt 32 (clamp (x.toInt + y.toInt) (-(2 ^ 31)) (2 ^ 31 - 1))
/-- V.SUBS.S32 (R133). -/
def execVSubsS32 (p : Pred) (d a b : Reg) (s : State) :=
  vecBin p d a b s fun x y => BitVec.ofInt 32 (clamp (x.toInt - y.toInt) (-(2 ^ 31)) (2 ^ 31 - 1))
/-- V.ABS.S32 (R133). -/
def execVAbsS32 (p : Pred) (d a : Reg) (s : State) :=
  vecUn p d a s fun x => BitVec.ofNat 32 x.toInt.natAbs
/-! ## FP32 lanes (R134) -/

/-- V.FADD.F (R134). -/
def execVFaddF (p : Pred) (d a b : Reg) (s : State) :=
  vecFp p d a b 1 s (fpAdd fp32)
/-- V.FSUB.F (R134). -/
def execVFsubF (p : Pred) (d a b : Reg) (s : State) :=
  vecFp p d a b 1 s (fpSub fp32)
/-- V.FMUL.F (R134). -/
def execVFmulF (p : Pred) (d a b : Reg) (s : State) :=
  vecFp p d a b 1 s (fpMul fp32)
/-- V.FDIV.F (R134). -/
def execVFdivF (p : Pred) (d a b : Reg) (s : State) :=
  vecFp p d a b 4 s (fpDiv fp32)
/-- V.FSQRT.F (R134). -/
def execVFsqrtF (p : Pred) (d a : Reg) (s : State) :=
  vecOp p (.vec [d.toNat, a.toNat] [] [] 4) s fun th m =>
    th.fpLanes d.toNat m fun i => fpSqrt fp32 th.rm th.ftz (th.readLane a.toNat i).toNat
/-- V.FMIN.F (R134). -/
def execVFminF (p : Pred) (d a b : Reg) (s : State) :=
  vecFp p d a b 1 s fun _ z x y => fpMinMax fp32 z false x y
/-- V.FMAX.F (R134). -/
def execVFmaxF (p : Pred) (d a b : Reg) (s : State) :=
  vecFp p d a b 1 s fun _ z x y => fpMinMax fp32 z true x y
/-- V.FABS.F (R134, R96). -/
def execVFabsF (p : Pred) (d a : Reg) (s : State) :=
  vecUn p d a s fun x => x &&& 0x7FFFFFFF#32
/-- V.FNEG.F (R134, R96). -/
def execVFnegF (p : Pred) (d a : Reg) (s : State) :=
  vecUn p d a s fun x => x ^^^ 0x80000000#32
/-- V.FMA.F (R134). -/
def execVFmaF (p : Pred) (d a b : Reg) (s : State) :=
  vecFma p false d a b s
/-- V.FMS.F (R134). -/
def execVFmsF (p : Pred) (d a b : Reg) (s : State) :=
  vecFma p true d a b s
/-! ## Packed FP16 and BF16 (R135, R85) -/

/-- V.FADD.H (R135). -/
def execVFaddH (p : Pred) (d a b : Reg) (s : State) :=
  vecPacked p d a b s fun r z _ x y => fpAdd fp16 r z x y
/-- V.FMUL.H (R135). -/
def execVFmulH (p : Pred) (d a b : Reg) (s : State) :=
  vecPacked p d a b s fun r z _ x y => fpMul fp16 r z x y
/-- V.FMA.H (R135). -/
def execVFmaH (p : Pred) (d a b : Reg) (s : State) :=
  vecPacked p d a b s fun r z c x y => fpFma fp16 r z false c x y
/-- V.FADD.B (R135). -/
def execVFaddB (p : Pred) (d a b : Reg) (s : State) :=
  vecPacked p d a b s fun r z _ x y => fpAdd bf16 r z x y
/-- V.FMUL.B (R135). -/
def execVFmulB (p : Pred) (d a b : Reg) (s : State) :=
  vecPacked p d a b s fun r z _ x y => fpMul bf16 r z x y
/-- V.FMA.B (R135). -/
def execVFmaB (p : Pred) (d a b : Reg) (s : State) :=
  vecPacked p d a b s fun r z c x y => fpFma bf16 r z false c x y
/-! ## FP64 elements (R136) -/

/-- V.FADD.D (R136). -/
def execVFaddD (p : Pred) (d a b : Reg) (s : State) :=
  vecD p d a b 4 s fun r z _ x y => fpAdd fp64 r z x y
/-- V.FSUB.D (R136). -/
def execVFsubD (p : Pred) (d a b : Reg) (s : State) :=
  vecD p d a b 4 s fun r z _ x y => fpSub fp64 r z x y
/-- V.FMUL.D (R136). -/
def execVFmulD (p : Pred) (d a b : Reg) (s : State) :=
  vecD p d a b 4 s fun r z _ x y => fpMul fp64 r z x y
/-- V.FDIV.D (R136). -/
def execVFdivD (p : Pred) (d a b : Reg) (s : State) :=
  vecD p d a b 16 s fun r z _ x y => fpDiv fp64 r z x y
/-- V.FMA.D (R136). -/
def execVFmaD (p : Pred) (d a b : Reg) (s : State) :=
  vecD p d a b 4 s fun r z c x y => fpFma fp64 r z false c x y
/-- V.FMIN.D (R136). -/
def execVFminD (p : Pred) (d a b : Reg) (s : State) :=
  vecD p d a b 4 s fun _ z _ x y => fpMinMax fp64 z false x y
/-- V.FMAX.D (R136). -/
def execVFmaxD (p : Pred) (d a b : Reg) (s : State) :=
  vecD p d a b 4 s fun _ z _ x y => fpMinMax fp64 z true x y
/-- V.FSQRT.D (R136). -/
def execVFsqrtD (p : Pred) (d a : Reg) (s : State) :=
  vecOp p (.vec [d.toNat, a.toNat] [] [] 16) s fun th m =>
    th.fpPairs d.toNat m fun e => fpSqrt fp64 th.rm th.ftz (th.readD a.toNat e)
/-! ## Compares (R137) -/

/-- V.CMP.EQ (R137). -/
def execVCmpEq (p : Pred) (d a b : Reg) (s : State) :=
  vecCmp p d a b s fun x y => x == y
/-- V.CMP.NE (R137). -/
def execVCmpNe (p : Pred) (d a b : Reg) (s : State) :=
  vecCmp p d a b s fun x y => x != y
/-- V.CMP.LT.S32 (R137). -/
def execVCmpLtS32 (p : Pred) (d a b : Reg) (s : State) :=
  vecCmp p d a b s fun x y => x.slt y
/-- V.CMP.LT.Z32 (R137). -/
def execVCmpLtZ32 (p : Pred) (d a b : Reg) (s : State) :=
  vecCmp p d a b s fun x y => x.ult y
/-- V.CMP.LE.S32 (R137). -/
def execVCmpLeS32 (p : Pred) (d a b : Reg) (s : State) :=
  vecCmp p d a b s fun x y => x.sle y
/-- V.CMP.LE.Z32 (R137). -/
def execVCmpLeZ32 (p : Pred) (d a b : Reg) (s : State) :=
  vecCmp p d a b s fun x y => x.ule y
/-- V.FCMP.EQ.F (R137). -/
def execVFcmpEqF (p : Pred) (d a b : Reg) (s : State) :=
  vecFcmp p .eq d a b s
/-- V.FCMP.LT.F (R137). -/
def execVFcmpLtF (p : Pred) (d a b : Reg) (s : State) :=
  vecFcmp p .lt d a b s
/-- V.FCMP.LE.F (R137). -/
def execVFcmpLeF (p : Pred) (d a b : Reg) (s : State) :=
  vecFcmp p .le d a b s
/-- V.FCMP.UN.F (R137). -/
def execVFcmpUnF (p : Pred) (d a b : Reg) (s : State) :=
  vecFcmp p .un d a b s
/-! ## Conversions (R138-R140) -/

/-- V.CVT.F.S32 (R138, R140). -/
def execVCvtFS32 (p : Pred) (d a r : Reg) (s : State) :=
  vecCvt p d a r.toNat 1 32 1 s fun th m i => intToFp fp32 m th.ftz (th.readLane a.toNat i).toInt
/-- V.CVT.S32.F (R138, R140). -/
def execVCvtS32F (p : Pred) (d a r : Reg) (s : State) :=
  vecCvt p d a r.toNat 1 32 1 s fun th m i =>
    let v := fpToInt fp32 m th.ftz (-(2 ^ 31)) (2 ^ 31 - 1) (th.readLane a.toNat i).toNat
    ((BitVec.ofInt 32 v.1).toNat, v.2)
/-- V.CVT.H.F (R138-R140): narrowing. -/
def execVCvtHF (p : Pred) (d a r : Reg) (s : State) :=
  vecCvt p d a r.toNat 2 16 1 s fun th m i => fpConvert fp32 fp16 m th.ftz (th.readLane a.toNat i).toNat
/-- V.CVT.F.H (R138-R140): widening. -/
def execVCvtFH (p : Pred) (d a : Reg) (s : State) :=
  vecCvt p d a 0 1 32 1 s fun th m i => fpConvert fp16 fp32 m th.ftz (th.narrow a.toNat 2 i)
/-- V.CVT.B.F (R138-R140): narrowing. -/
def execVCvtBF (p : Pred) (d a r : Reg) (s : State) :=
  vecCvt p d a r.toNat 2 16 1 s fun th m i => fpConvert fp32 bf16 m th.ftz (th.readLane a.toNat i).toNat
/-- V.CVT.F.B (R138-R140): widening. -/
def execVCvtFB (p : Pred) (d a : Reg) (s : State) :=
  vecCvt p d a 0 1 32 1 s fun th m i => fpConvert bf16 fp32 m th.ftz (th.narrow a.toNat 2 i)
/-- V.CVT.E43.F (R138-R140): narrowing. -/
def execVCvtE43F (p : Pred) (d a r : Reg) (s : State) :=
  vecCvt p d a r.toNat 4 8 1 s fun th m i => fpConvert fp32 e4m3 m th.ftz (th.readLane a.toNat i).toNat
/-- V.CVT.F.E43 (R138-R140): widening. -/
def execVCvtFE43 (p : Pred) (d a : Reg) (s : State) :=
  vecCvt p d a 0 1 32 1 s fun th m i => fpConvert e4m3 fp32 m th.ftz (th.narrow a.toNat 4 i)
/-- V.CVT.E52.F (R138-R140): narrowing. -/
def execVCvtE52F (p : Pred) (d a r : Reg) (s : State) :=
  vecCvt p d a r.toNat 4 8 1 s fun th m i => fpConvert fp32 e5m2 m th.ftz (th.readLane a.toNat i).toNat
/-- V.CVT.F.E52 (R138-R140): widening. -/
def execVCvtFE52 (p : Pred) (d a : Reg) (s : State) :=
  vecCvt p d a 0 1 32 1 s fun th m i => fpConvert e5m2 fp32 m th.ftz (th.narrow a.toNat 4 i)
/-- V.CVT.D.F (R139): element j from lane j of A. -/
def execVCvtDF (p : Pred) (d a : Reg) (s : State) :=
  vecOp p (.vec [d.toNat, a.toNat] [] [] 2) s fun th m =>
    th.fpPairs d.toNat m fun j => fpConvert fp32 fp64 th.rm th.ftz (th.readLane a.toNat j).toNat
/-- V.CVT.F.D (R139): lane j from element j of A. -/
def execVCvtFD (p : Pred) (d a r : Reg) (s : State) :=
  vecCvt p d a r.toNat 1 16 2 s fun th m j => fpConvert fp64 fp32 m th.ftz (th.readD a.toNat j)
/-! ## Moves, permutes and lane extraction (R141, R142) -/

/-- V.MOV (R141). -/
def execVMov (p : Pred) (d a : Reg) (s : State) :=
  vecUn p d a s fun x => x
/-- V.BCAST (R141). -/
def execVBcast (p : Pred) (d a : Reg) (s : State) :=
  vecOp p (.vec [d.toNat] [a.toNat] [] 1) s fun th m =>
    th.setLanes d.toNat m fun _ => (th.readS a.toNat).setWidth 32
/-- V.PERM (R141). -/
def execVPerm (p : Pred) (d a b : Reg) (s : State) :=
  vecOp p (.vec [d.toNat, a.toNat, b.toNat] [] [] 1) s fun th m =>
    th.setLanes d.toNat m fun i => th.readLane a.toNat ((th.readLane b.toNat i).toNat % 32)
/-- V.REV (R141). -/
def execVRev (p : Pred) (d a : Reg) (s : State) :=
  vecOp p (.vec [d.toNat, a.toNat] [] [] 1) s fun th m =>
    th.setLanes d.toNat m fun i => th.readLane a.toNat (31 - i)
/-- V.ROT (R141). -/
def execVRot (p : Pred) (d a b : Reg) (s : State) :=
  vecOp p (.vec [d.toNat, a.toNat] [b.toNat] [] 1) s fun th m =>
    th.setLanes d.toNat m fun i => th.readLane a.toNat ((i + (th.readS b.toNat).toNat % 32) % 32)
/-- V.INS (R141). -/
def execVIns (p : Pred) (d a b : Reg) (s : State) :=
  vecOp p (.vec [d.toNat] [a.toNat, b.toNat] [] 1) s fun th m =>
    th.setLanes d.toNat m fun i =>
      if i = (th.readS b.toNat).toNat % 32 then (th.readS a.toNat).setWidth 32 else th.readLane d.toNat i
/-- An instruction whose lane mask keeps it from writing s(d): in outbound port mode one word is pushed all the same, whatever
the mask holds (R64). The manual names no value for it: a free one (DESIGN CHOICE, log 34). -/
def State.unwritten (s : State) (d : Nat) (th : Thread) : Thread :=
  if d = 31 ∧ th.outEn then th.writeS 31 (Config.portWord s.fresh s.beat s.cur.core s.cur.slot) s.beat else th

/-- V.EXT (R142). The write of s(D) happens only when the lane is enabled. DESIGN CHOICE: log 34. -/
def execVExt (p : Pred) (d a b : Reg) (s : State) :=
  vecOp p (.vec [a.toNat] [b.toNat] [d.toNat] 1) s fun th m =>
    let l := (th.readS b.toNat).toNat % 32
    if m.getLsbD l then th.writeS d.toNat ((th.readLane a.toNat l).setWidth 64) s.beat else s.unwritten d.toNat th
/-- V.FIRST (R142). -/
def execVFirst (p : Pred) (d a : Reg) (s : State) :=
  vecOp p (.vec [a.toNat] [] [d.toNat] 1) s fun th m =>
    th.writeS d.toNat (match lanesOf m with
      | [] => BitVec.allOnes 64
      | l :: _ => (th.readLane a.toNat l).setWidth 64) s.beat

/-! ## Lane reductions (R102, R143) -/

/-- The pairwise tree of R102 over values with flags: neighbours are combined, level by level. -/
def pairUp (op : Nat → Nat → Nat × Nat) : List Nat → List Nat × Nat
  | x :: y :: r =>
    let v := op x y
    let t := pairUp op r
    (v.1 :: t.1, v.2 ||| t.2)
  | l => (l, 0)

/-- n levels of the tree: the result and the flags of every node. -/
def treeReduce (op : Nat → Nat → Nat × Nat) : Nat → List Nat → Nat × Nat
  | 0, l => (l.headD 0, 0)
  | n + 1, l =>
    let v := pairUp op l
    let r := treeReduce op n v.1
    (r.1, v.2 ||| r.2)

/-- A reduction: masked lanes are the identity; s(D) is always written, sign-extended where asked (R143). -/
def vecRed (p : Pred) (d a : Reg) (ident : Nat) (sgn : Bool) (s : State) (op : Thread → Nat → Nat → Nat × Nat) :
    Host.Outcome State Fault Refusal :=
  vecOp p (.vec [a.toNat] [] [d.toNat] 2) s fun th m =>
    let w := (List.range 32).map fun i => if m.getLsbD i then (th.readLane a.toNat i).toNat else ident
    let r := treeReduce (op th) 5 w
    (th.orFlags r.2).writeS d.toNat (if sgn then sext 32 r.1 else ofN r.1) s.beat

/-- Lane values as signed numbers compared. -/
def slt32 (x y : Nat) : Bool := (BitVec.ofNat 32 x).slt (BitVec.ofNat 32 y)

/-- V.RSUM.F (R143). -/
def execVRsumF (p : Pred) (d a : Reg) (s : State) := vecRed p d a 0x80000000 false s fun th x y => fpAdd fp32 th.rm th.ftz x y
/-- V.RSUM.S32 (R143). -/
def execVRsumS32 (p : Pred) (d a : Reg) (s : State) := vecRed p d a 0 true s fun _ x y => ((x + y) % 2 ^ 32, 0)
/-- V.RMIN.F (R143). -/
def execVRminF (p : Pred) (d a : Reg) (s : State) := vecRed p d a 0x7F800000 false s fun th x y => fpMinMax fp32 th.ftz false x y
/-- V.RMAX.F (R143). -/
def execVRmaxF (p : Pred) (d a : Reg) (s : State) := vecRed p d a 0xFF800000 false s fun th x y => fpMinMax fp32 th.ftz true x y
/-- V.RMIN.S32 (R143). -/
def execVRminS32 (p : Pred) (d a : Reg) (s : State) :=
  vecRed p d a 0x7FFFFFFF true s fun _ x y => (if slt32 y x then y else x, 0)
/-- V.RMAX.S32 (R143). -/
def execVRmaxS32 (p : Pred) (d a : Reg) (s : State) :=
  vecRed p d a 0x80000000 true s fun _ x y => (if slt32 x y then y else x, 0)
/-- V.RAND (R143). -/
def execVRand (p : Pred) (d a : Reg) (s : State) := vecRed p d a 0xFFFFFFFF false s fun _ x y => (x &&& y, 0)
/-- V.RBOR (R143). -/
def execVRbor (p : Pred) (d a : Reg) (s : State) := vecRed p d a 0 false s fun _ x y => (x ||| y, 0)
/-- V.RXOR (R143). -/
def execVRxor (p : Pred) (d a : Reg) (s : State) := vecRed p d a 0 false s fun _ x y => (x ^^^ y, 0)

/-! ## J4 blocks (R89, R144-R148) -/

/-- x × 2^k. -/
def Fp.scale (x : Fp) (k : Int) : Fp :=
  match x with
  | .fin n m e => .fin n m (e + k)
  | y => y

/-- The value of a code under a scale and a special value (R89). -/
def j4Value (code s q : Nat) : Fp :=
  if s = 255 then .nan false
  else if code = 8 then (e4m3.decode q).scale ((s : Int) - 127)
  else (e2m1.decode code).scale ((s : Int) - 127)

/-- Element j of block b of the code lanes of a register (R144). -/
def Thread.j4Code (th : Thread) (r b j : Nat) : Nat := (th.readLane r (4 * b + j / 8)).toNat / 2 ^ (4 * (j % 8)) % 16

/-- |x| < |y| for finite values. -/
def Fp.magLt (x y : Fp) : Bool :=
  match x, y with
  | .fin _ a e, .fin _ b f => scaled false a e (min e f) < scaled false b f (min e f)
  | _, _ => false

/-- Whether a value is finite. -/
def Fp.finite : Fp → Bool
  | .fin .. => true
  | _ => false

/-- The lowest index of a finite value with the largest magnitude (R146). -/
def largestAt (xs : List Fp) : Option Nat :=
  (List.range xs.length).foldl (fun best j =>
    let x := xs.getD j (.nan false)
    if !x.finite then best else match best with
      | none => some j
      | some k => if (xs.getD k (.nan false)).magLt x then some j else some k) none

/-- What Encode answers: codes, scale, special value, flags, generator. -/
structure J4Block where
  codes : List Nat
  scale : Nat
  special : Nat
  flags : Nat
  rng : Word
  deriving DecidableEq, Repr

/-- n steps of the generator. -/
def stepN (field : Nat) : Nat → Word → Word
  | 0, g => g
  | n + 1, g => stepN field n (if field = 6 then xorShift64 g else g)

/-- Flags a block conversion keeps: UF is never set (R146). -/
def j4Flags (fl : Nat) : Nat := fl &&& (flagOF + flagNX + flagNV)

/-- Encode (R146), with the modes of the rounding field and the generator's state. -/
def j4Encode (th : Thread) (field : Nat) (xs : List Fp) (g : Word) : J4Block :=
  if xs.any Fp.isNan then ⟨List.replicate 32 0, 0xFF, 0x7F, 0, stepN field 32 g⟩
  else
    let js := largestAt xs
    let mag (j : Nat) : Nat × Int := match xs.getD j (.nan false) with | .fin _ m e => (m, e) | _ => (0, 0)
    let rest := largestAt ((List.range 32).map fun j => if some j = js then .nan false else xs.getD j (.nan false))
    let ref : Nat × Int := match rest with
      | some k => if (mag k).1 = 0 then (match js with | some j => mag j | none => (0, 0)) else mag k
      | none => match js with | some j => mag j | none => (0, 0)
    let s : Nat := if ref.1 = 0 then 127 else (clamp (leadExp ref.1 ref.2 - 2 + 127) 0 254).toNat
    let k : Int := 127 - (s : Int)
    let zero := match js with | some j => (mag j).1 == 0 | none => true
    let r := convertAll th field (fun mode j =>
      let x := (xs.getD j (.nan false)).scale k
      if some j = js then (if zero then (0, 0) else roundFp e4m3 mode false x)
      else
        let v := roundFp e2m1 mode false x
        (if v.1 = 8 then 0 else v.1, v.2)) (List.range 32) g
    let codes := (List.range 32).map fun j => if some j = js then (if zero then 0 else 8) else lookupD r.1 j 0
    let q := match js with | some j => if zero then 0 else lookupD r.1 j 0 | none => 0
    ⟨codes, s, q, j4Flags r.2.1, r.2.2⟩

/-- Lane w (0-3) of a block's codes (R144). -/
def j4Lane (codes : List Nat) (w : Nat) : Nat := (List.range 8).foldl (fun a j => a + codes.getD (8 * w + j) 0 * 2 ^ (4 * j)) 0

/-- V.J4DEC (R145). -/
def execVJ4dec (p : Pred) (d a b : Reg) (s : State) :=
  vecOp p (.vec [d.toNat, a.toNat] [b.toNat] [] 1) s fun th m =>
    let x := th.readS b.toNat
    th.fpLanes d.toNat m fun j =>
      roundFp fp32 th.rm th.ftz (j4Value (th.j4Code a.toNat (wbits x 18 16) j) (wbits x 7 0) (wbits x 15 8))
/-- V.J4ENC (R147). DESIGN CHOICE: log 34. -/
def execVJ4enc (p : Pred) (d a b : Reg) (s : State) :=
  vecOp p (.vec [d.toNat, a.toNat] [b.toNat] [b.toNat] 2) s fun th m =>
    if m = 0 then s.unwritten b.toNat th
    else
      let x := th.readS b.toNat
      let blk := wbits x 18 16
      let vs := (List.range 32).map fun j =>
        if m.getLsbD j then fp32.read th.ftz (th.readLane a.toNat j).toNat else .fin false 0 0
      let r := j4Encode th 0 vs th.rng
      let fl := unionFlags (vs.map snan)
      let th1 := (th.orFlags (r.flags ||| fl)).setLanes d.toNat (BitVec.ofNat 32 (15 * 2 ^ (4 * blk))) fun i =>
        BitVec.ofNat 32 (j4Lane r.codes (i - 4 * blk))
      th1.writeS b.toNat (setBits x 15 0 (r.scale + r.special * 2 ^ 8)) s.beat

/-- The side pair of block b in the register block form (R144). -/
def Thread.sidePair (th : Thread) (r b : Nat) : Nat := half (th.readLane r (28 + b / 2)) (b % 2)

/-- One selected block of V.BADDQ (R148). -/
def Thread.addBlock (th : Thread) (field d a b : Nat) : Thread :=
  let sd := th.sidePair d b
  let sa := th.sidePair a b
  let vs := (List.range 32).map fun j =>
    (Fp.add .rne (j4Value (th.j4Code d b j) (sd % 256) (sd / 256)) (j4Value (th.j4Code a b j) (sa % 256) (sa / 256))).1
  let r := j4Encode th field vs th.rng
  let th1 := ({ th with rng := r.rng }.orFlags r.flags).setLanes d (BitVec.ofNat 32 (15 * 2 ^ (4 * b))) fun i =>
    BitVec.ofNat 32 (j4Lane r.codes (i - 4 * b))
  let pair := r.scale + r.special * 2 ^ 8
  let l := 28 + b / 2
  let old := (th.readLane d l).toNat
  let new := if b % 2 = 1 then old % 2 ^ 16 + pair * 2 ^ 16 else if b = 6 then pair else old / 2 ^ 16 * 2 ^ 16 + pair
  th1.writeLane d l (BitVec.ofNat 32 new)

/-- V.BADDQ (R148): both registers' blocks as they stood at issue, block by block. -/
def execVBaddq (p : Pred) (d a r : Reg) (s : State) :=
  vecOp p (.vec [d.toNat, a.toNat] [] [] 8) s fun th m =>
    let src := th.readV a.toNat
    ((List.range 7).filter fun b => m.getLsbD b).foldl (fun x b =>
      let y := (if a = d then x else x.writeV a.toNat src).addBlock r.toNat d.toNat a.toNat b
      y) th

/-! ## Flag operations (R153, R154) -/

/-- A flag destination under the mask (R153). -/
def Thread.writeFlagM (th : Thread) (d : Nat) (m x : Lane) : Thread := th.writeF d ((th.readF d &&& ~~~m) ||| (x &&& m))

/-- A form of two flags (R153). -/
def flagBin (p : Pred) (d a b : Reg) (s : State) (f : Lane → Lane → Lane) : Host.Outcome State Fault Refusal :=
  vecOp p (.vec [] [] [] 1) s fun th m => th.writeFlagM d.toNat m (f (th.readF a.toNat) (th.readF b.toNat))

/-- F.AND (R153). -/
def execFAnd (p : Pred) (d a b : Reg) (s : State) := flagBin p d a b s fun x y => x &&& y
/-- F.OR (R153). -/
def execFOr (p : Pred) (d a b : Reg) (s : State) := flagBin p d a b s fun x y => x ||| y
/-- F.XOR (R153). -/
def execFXor (p : Pred) (d a b : Reg) (s : State) := flagBin p d a b s fun x y => x ^^^ y
/-- F.ANDN (R153). -/
def execFAndn (p : Pred) (d a b : Reg) (s : State) := flagBin p d a b s fun x y => x &&& ~~~y
/-- F.NOT (R153). -/
def execFNot (p : Pred) (d a : Reg) (s : State) :=
  vecOp p (.vec [] [] [] 1) s fun th m => th.writeFlagM d.toNat m (~~~(th.readF a.toNat))
/-- F.SET (R153). -/
def execFSet (p : Pred) (d a : Reg) (s : State) :=
  vecOp p (.vec [] [a.toNat] [] 1) s fun th m => th.writeFlagM d.toNat m ((th.readS a.toNat).setWidth 32)
/-- F.GET (R154). -/
def execFGet (p : Pred) (d a : Reg) (s : State) :=
  vecOp p (.vec [] [] [d.toNat] 1) s fun th m => th.writeS d.toNat ((th.readF a.toNat &&& m).setWidth 64) s.beat
/-- F.POPC (R154). -/
def execFPopc (p : Pred) (d a : Reg) (s : State) :=
  vecOp p (.vec [] [] [d.toNat] 1) s fun th m => th.writeS d.toNat (ofN (lanesOf (th.readF a.toNat &&& m)).length) s.beat

/-! ## Vector loads and stores (R149-R152) -/

/-- The enabled lanes and their addresses. -/
def lanesAt (m : Lane) (addr : Nat → Word) : List (Nat × Word) := (lanesOf m).map fun i => (i, addr i)

/-- What the checks of the lanes of a load find, in ascending lane order: the words to read, or the lowest lane that does
not pass (R150). -/
def State.checkLanes (s : State) (th : Thread) : List (Nat × Word) → Except Res (List (Nat × Word × Nat × Keying))
  | [] => .ok []
  | (i, a) :: r =>
    if a.toNat % 4 ≠ 0 then .error (.trap .align a accVLoad.info)
    else match s.resolve s.cur th a accVLoad (.thread s.cur) with
    | .fault c info => .error (.trap c a info)
    | .miss => .error (.miss a accVLoad.kind)
    | .ok key e =>
      match s.checkLanes th r with
      | .ok l => .ok ((i, a, key, s.cipherFor th e) :: l)
      | .error x => .error x
    | _ => .error (.trap .access a accVLoad.info)

/-- A vector load: one request for its lanes, and a window on the v destination (R152). DESIGN CHOICE: log 34. -/
def vecLoad (p : Pred) (d : Nat) (vs rd : List Nat) (la occ : Nat) (s : State) (addr : Thread → Nat → Word) :
    Host.Outcome State Fault Refusal :=
  issue { Meta.vec (d :: vs) rd [] occ with window := true } p s fun s1 th =>
    match s1.checkLanes th (lanesAt (laneMask p th) (addr th)) with
    | .error r => r
    | .ok ls =>
      let out (s : State) := s.modThread s.cur fun x => x.openOut s1.serial .v d la (if ls.isEmpty then s1.beat else s1.beat + 2)
        (if ls.isEmpty then .lanes [] else .pending)
      if ls.isEmpty then .done (out s1.tick)
      else .done (out (s1.send
        { id := s1.serial, thread := s1.cur, ctx := th.ctx, kind := .vload ls none, va := (ls.headD (0, 0, 0, .plain)).2.1
          key := (ls.headD (0, 0, 0, .plain)).2.2.1, data := 0, data2 := 0, issuedAt := s1.beat, budget := th.feBudget
          pc := th.pc, scope := th.scopeD, stage := .sent, withdrawal := false, cipher := .plain, orphan := false
          detached := none }))

/-- A vector store: the precise checks of its lanes, then one entry of the store queue, whatever the lane mask holds (R150,
R152, R204). -/
def vecStore (p : Pred) (d : Nat) (vs rd : List Nat) (occ : Nat) (s : State) (addr : Thread → Nat → Word) :
    Host.Outcome State Fault Refusal :=
  issue (Meta.vec (d :: vs) rd [] occ) p s fun s1 th =>
    let ls := lanesAt (laneMask p th) (addr th)
    match ls.find? fun l => l.2.toNat % 4 != 0 || !canonical l.2 || windowOf l.2 == .fabric with
    | some l => if l.2.toNat % 4 ≠ 0 then .trap .align l.2 accVStore.info else .trap .access l.2 accVStore.info
    | none =>
      storeEntry (ls.foldl (fun a l => a.effectRange th l.2 4) s1) th
        (ls.map fun l => (l.2, 4, (th.readLane d l.1).setWidth 64)) true

/-- V.LD, V.ST: s(BASE) + 128 × OFF6 + 4 × i (R149). -/
def laneDirect (b : Reg) (o : BitVec 6) (th : Thread) (i : Nat) : Word := th.memAddr b o 128 + ofN (4 * i)
/-- V.LDS, V.STS: s(Y) + i × s(S) (R149). -/
def laneStride (y sc : Reg) (th : Thread) (i : Nat) : Word := th.readS y.toNat + ofN i * th.readS sc.toNat
/-- V.GATHER, V.SCATTER: s(Y) + 4 × SignExt(I[i], 32) (R149). -/
def laneIndex (y k : Reg) (th : Thread) (i : Nat) : Word := th.readS y.toNat + 4 * (th.readLane k.toNat i).signExtend 64

/-- V.LD (R149). -/
def execVLd (p : Pred) (t b : Reg) (l : BitVec 4) (o : BitVec 6) (s : State) :=
  vecLoad p t.toNat [] [b.toNat] l.toNat 1 s (laneDirect b o)
/-- V.ST (R149). -/
def execVSt (p : Pred) (t b : Reg) (o : BitVec 6) (s : State) := vecStore p t.toNat [] [b.toNat] 1 s (laneDirect b o)
/-- V.LDS (R149). -/
def execVLds (p : Pred) (x y : Reg) (l : BitVec 4) (sc : Reg) (s : State) :=
  vecLoad p x.toNat [] [y.toNat, sc.toNat] l.toNat 4 s (laneStride y sc)
/-- V.STS (R149). -/
def execVSts (p : Pred) (x y sc : Reg) (s : State) := vecStore p x.toNat [] [y.toNat, sc.toNat] 4 s (laneStride y sc)
/-- V.GATHER (R149). -/
def execVGather (p : Pred) (x y : Reg) (l : BitVec 4) (k : Reg) (s : State) :=
  vecLoad p x.toNat [k.toNat] [y.toNat] l.toNat 4 s (laneIndex y k)
/-- V.SCATTER (R149). -/
def execVScatter (p : Pred) (x y k : Reg) (s : State) := vecStore p x.toNat [k.toNat] [y.toNat] 4 s (laneIndex y k)

end Sys2Proof.Machine
end

