-- ==== Sys2Proof/Machine/TermArray.lean ====
section
/-! DEFINITION. The cluster's term array (R215-R231): format contexts, the command queue, arbitration, MX.LDB, MX.SETB,
MX.MMA, MX.ZERO, MX.CNT, and batches (R238). A rotation holds eight cycles (R3); the array's cycles are counted from
reset. -/

namespace Sys2Proof.Machine

/-! ## The format context (R217, R218) -/

/-- AFMT. -/
def mxA (c : Word) : Nat := wbits c 3 0
/-- BFMT. -/
def mxB (c : Word) : Nat := wbits c 7 4
/-- ACC: 0 float, 1 integer, 2 FP64. -/
def mxAcc (c : Word) : Nat := wbits c 9 8
/-- TSIDE: the term side is A. -/
def mxTside (c : Word) : Bool := wbit c 10
/-- NOSPEC. -/
def mxNospec (c : Word) : Bool := wbit c 11
/-- SAT. -/
def mxSat (c : Word) : Bool := wbit c 12

/-- A floating format a context may name in float mode (R218). -/
def mxFloat (f : Nat) : Bool := f == 0 || f == 1 || f == 2 || f == 4 || f == 5

/-- A valid context value (R217, R218). -/
def mxValid (c : Word) : Bool :=
  wbits c 63 13 == 0 &&
    (match mxAcc c with
     | 0 => mxFloat (mxA c) && mxFloat (mxB c) && (!mxNospec c || mxA c == 0 || mxB c == 0)
     | 1 => mxA c == 3 && mxB c == 3 && !mxNospec c && !mxSat c
     | 2 => mxA c == 6 && mxB c == 6 && !mxNospec c
     | _ => false)

/-- The floating format of a code. -/
def mxFmt (f : Nat) : Fmt :=
  match f with
  | 1 => e5m2 | 2 => e4m3 | 4 => bf16 | 5 => fp16 | _ => fp64

/-- Bytes of an element, but for J4 (R223, R226). -/
def mxElemBytes (f : Nat) : Nat := match f with | 4 | 5 => 2 | 6 => 8 | _ => 1
/-- Bytes of a column of a B image and of a packed row of A (R223, R226). -/
def mxRowBytes (f : Nat) : Nat := match f with | 0 => 128 | 4 | 5 | 6 => 512 | _ => 256
/-- Bytes of a B tile image (R223). -/
def mxImageBytes (f : Nat) : Nat :=
  match f with
  | 0 => 36864 | 4 | 5 => 131072 | 6 => 32768 | _ => 65536

/-- Rows k and columns n of the tile: 64 in FP64 mode, else 256. -/
def mxK (f : Nat) : Nat := if f = 6 then 64 else 256

/-! ## Elements (R89, R98) -/

/-- The value and the term count of one element: its code, and for J4 its block's scale and special value. Under a NaN scale a
code 0x8 with NOSPEC is NaN and counts one term (DESIGN CHOICE, log 73). -/
def mxElem (f : Nat) (nospec : Bool) (raw sc q : Nat) : Fp × Nat :=
  match f with
  | 0 =>
    if raw = 8 ∧ nospec ∧ sc ≠ 255 then (.fin true 0 0, 0)
    else (j4Value raw sc q, if sc = 255 then 1 else if raw = 8 then fpTerms e4m3 q else fpTerms e2m1 raw)
  | 3 =>
    let x := (BitVec.ofNat 8 raw).toInt
    (.fin (x < 0) x.natAbs 0, nafTerms 9 x.natAbs)
  | _ => ((mxFmt f).decode raw, fpTerms (mxFmt f) raw)

/-- Element k of a line of codes, with its side pairs (R90, R223, R226). -/
def mxLine (f : Nat) (nospec : Bool) (codes side : Nat → Nat) (k : Nat) : Fp × Nat :=
  if f = 0 then
    mxElem 0 nospec (codes (k / 2) / 16 ^ (k % 2) % 16) (side (2 * (k / 32))) (side (2 * (k / 32) + 1))
  else
    let z := mxElemBytes f
    mxElem f nospec ((List.range z).foldr (fun i a => codes (z * k + i) + 256 * a) 0) 0 0

/-- A byte of a list. -/
def byteAt (a : Array Byte) (i : Nat) : Nat := ((a[i]?).getD 0).toNat

/-- B[k][n] of a tile image (R223). -/
def mxB? (f : Nat) (nospec : Bool) (img : Array Byte) (k n : Nat) : Fp × Nat :=
  mxLine f nospec (fun i => byteAt img (mxRowBytes f * n + i)) (fun i => byteAt img (32768 + 16 * n + i)) k

/-! ## Sums (R101) -/

/-- |x| with the bits below 2^w dropped, as a multiple of 2^w. -/
def truncMag (m : Nat) (e w : Int) : Nat := if w ≤ e then m * 2 ^ (e - w).toNat else m / 2 ^ (w - e).toNat

/-- Signed term of a block sum at weight 2^w. -/
def Fp.trunc (x : Fp) (w : Int) : Int :=
  match x with
  | .fin neg m e => if neg then -(truncMag m e w : Int) else truncMag m e w
  | _ => 0

/-- A zero product. -/
def Fp.isZero : Fp → Bool
  | .fin _ m _ => m == 0
  | _ => false

/-- The sign of a value. -/
def Fp.neg? : Fp → Bool
  | .fin n _ _ => n
  | .inf n => n
  | .nan _ => false

/-- The exponent of the leading bit of a non-zero finite value. -/
def Fp.lead? : Fp → Option Int
  | .fin _ m e => if m = 0 then none else some (leadExp m e)
  | _ => none

/-- The largest leading exponent. -/
def leadMax (ps : List Fp) : Option Int :=
  ps.foldl (fun best p => match best, p.lead? with
    | some b, some x => some (max b x)
    | none, x => x
    | b, none => b) none

/-- The sum of one k-block's products (R101). -/
def blockSum (ps : List Fp) : Fp :=
  let pinf := ps.any fun p => p == .inf false
  let ninf := ps.any fun p => p == .inf true
  if (ps.any Fp.isNan) || (pinf && ninf) then .nan false
  else if pinf || ninf then .inf ninf
  else match leadMax ps with
  | none => .fin (ps.all Fp.neg?) 0 0
  | some emax =>
    let w := emax - 60
    let z := ps.foldl (fun a p => a + p.trunc w) (0 : Int)
    .fin (z < 0) z.natAbs w

/-- One accumulation in float or FP64 mode: the block sum is rounded, then added, each with RNE (R101). -/
def accumulate (f : Fmt) (acc : Nat) (sum : Fp) : Nat :=
  let b := (roundFp f .rne false sum).1
  (roundFp f .rne false (Fp.add .rne (f.decode acc) (f.decode b)).1).1

/-- A product of integers as an integer. -/
def Fp.toInt : Fp → Int
  | .fin neg m e => scaled neg m e 0
  | _ => 0

/-- The products of one k-block. -/
def blockProducts (a b : Nat → Fp) (kb : Nat) : List Fp :=
  (List.range 32).map fun j => (Fp.mul (a (32 * kb + j)) (b (32 * kb + j))).1

/-- One accumulator element after an MX.MMA, and whether Sat36 clamped it (R101, R228): acc is the element's 36 bits, or
its 64 bits in FP64 mode. -/
def mxDot (accMode k : Nat) (acc : Nat) (a b : Nat → Fp) : Nat × Bool :=
  (List.range (k / 32)).foldl (fun r kb =>
    let ps := blockProducts a b kb
    if accMode = 1 then
      let z := sat36 ((BitVec.ofNat 36 r.1).toInt + ps.foldl (fun x p => x + p.toInt) 0)
      ((BitVec.ofInt 36 z.1).toNat, r.2 || z.2)
    else (accumulate (if accMode = 2 then fp64 else e9m26) r.1 (blockSum ps), r.2)) (acc, false)

/-! ## Tiles (R215, R228) -/

/-- A 36-bit slot. -/
def Tile.slot (t : Tile) (r c : Nat) : BitVec 36 := lookupD t.slots (r * 256 + c) 0
/-- A slot written; zeros are not listed. -/
def Tile.setSlot (t : Tile) (r c : Nat) (x : BitVec 36) : Tile :=
  { t with slots := if x = 0 then eraseKey t.slots (r * 256 + c) else insertKey t.slots (r * 256 + c) x }

/-- Element (r, n) (R228). -/
def Tile.elem (t : Tile) (accMode r n : Nat) : Nat :=
  if accMode = 2 then (t.slot r (2 * n)).toNat % 2 ^ 32 + (t.slot r (2 * n + 1)).toNat % 2 ^ 32 * 2 ^ 32
  else (t.slot r n).toNat

/-- Element (r, n) written (R88, R228). -/
def Tile.setElem (t : Tile) (accMode r n x : Nat) : Tile :=
  if accMode = 2 then
    (t.setSlot r (2 * n) (BitVec.ofNat 36 (x % 2 ^ 32))).setSlot r (2 * n + 1) (BitVec.ofNat 36 (x / 2 ^ 32 % 2 ^ 32))
  else t.setSlot r n (BitVec.ofNat 36 x)

/-- A tile of a core. -/
def Core.tile (c : Core) (i : Nat) : Tile := if i = 0 then c.tile0 else c.tile1
/-- A tile of a core replaced. -/
def Core.setTile (c : Core) (i : Nat) (t : Tile) : Core := if i = 0 then { c with tile0 := t } else { c with tile1 := t }

/-! ## The command queue (R219) -/

/-- Major opcode of a command. -/
def MxCmd.maj (m : MxCmd) : Nat := bits m.word.toNat 26 20
/-- Field X. -/
def MxCmd.fx (m : MxCmd) : Nat := bits m.word.toNat 19 15
/-- FN6. -/
def MxCmd.fn (m : MxCmd) : Nat := bits m.word.toNat 5 0
/-- MX.MMA or MX.SETB. -/
def MxCmd.isArray (m : MxCmd) : Bool := m.maj == 0x72 || m.maj == 0x73
/-- MX.DRAIN or MX.DRAIN.RAW. -/
def MxCmd.isDrain (m : MxCmd) : Bool := m.maj == 0x75
/-- A command of a live thread: of its slot and its identity, so that what a saved band has left in the queue is no other's. -/
def MxCmd.of (slot : Nat) (who : List Nat) (m : MxCmd) : Bool := m.slot == slot && m.ident == who && !m.ended

/-- The granted commands of a core that have not completed. -/
def State.granted (s : State) (n : Nat) : List Stepping :=
  let c := s.cluster (clusterOf n)
  (c.finishing ++ c.stepping.toList).filter fun x => x.core == n

/-- The first command of a core's queue that has not begun. -/
def Core.nextCmd? (c : Core) : Option MxCmd := c.mxQueue.find? fun m => !m.begun

/-- An MX.DRAIN whose last row has entered the buffer counts as completed for the commands after it (R219). -/
def Core.drainPast (c : Core) (m : MxCmd) : Bool :=
  m.isDrain && m.begun && (match c.drain with | some d => d.cmd == m.id && decide (d.h ≤ d.next) | none => false)

/-- Every command that has begun lets the core's next one begin, but for granted array commands: a later MX.DRAIN waits
for an earlier one's done word (R219, R221). DEDUCED: log 13. -/
def Core.passed (c : Core) (m : MxCmd) : Bool :=
  (c.mxQueue.filter MxCmd.begun).all fun x => c.drainPast x && !m.isDrain

/-- The core's next command begins now, if it is no array command (R219). -/
def State.mayBegin (s : State) (n : Nat) (m : MxCmd) : Bool := (s.core n).passed m && (s.granted n).isEmpty

/-- A command changed. -/
def State.modCmd (s : State) (n id : Nat) (f : MxCmd → MxCmd) : State :=
  s.modCore n fun c => { c with mxQueue := modFirst (fun m => m.id == id) f c.mxQueue }
/-- A command that has completed. -/
def State.dropCmd (s : State) (n id : Nat) : State :=
  s.modCore n fun c => { c with mxQueue := eraseFirst (fun m => m.id == id) c.mxQueue }

/-- The word of a command: the predicate as issued, major and fields. -/
def mxWord (ir : BitVec 32) (maj x y la fn : Nat) : BitVec 32 :=
  BitVec.ofNat 32 (ir.toNat / 2 ^ 27 * 2 ^ 27 + maj * 2 ^ 20 + x * 2 ^ 15 + y * 2 ^ 10 + la * 2 ^ 6 + fn)

/-- A command as it enters the queue. What the handler of an MX.DRAIN copies from its issuing thread is taken here, at issue
(R235 says: at creation; DESIGN CHOICE, log 15). -/
def newCmd (s : State) (th : Thread) (word : BitVec 32) (sx sy fmt : Word) (page : Nat := 65536) : MxCmd :=
  { id := s.serial, word := word, sx := sx, sy := sy, slot := s.cur.slot, ctx := th.ctx, fmt := fmt, batch := none
    pc := th.pc, scope := th.scopeD, prog := 0, begun := false, band := th.bandRef, ended := false, record := none
    seed := [th.scopeD, th.feBudget, th.chBudget, th.barBudget, th.fpCtl, th.rng, th.lmask.setWidth 64, th.trapVec]
    ident := th.ident, page := page, priv := th.privileged }

/-- A command enters its core's queue of 16 entries; while it is full the thread waits (R219). -/
def enqueue (s : State) (th : Thread) (word : BitVec 32) (sx sy : Word) (fmt : Word) (page : Nat := 65536) : Res :=
  let n := s.cur.core
  if 16 ≤ ((s.core n).mxQueue.filter fun m => !m.begun).length then .wait .room
  else .done (s.tick.modCore n fun c => { c with mxQueue := c.mxQueue ++ [newCmd s th word sx sy fmt page] })

/-- The instruction word, as MX_FORMAT and MX_RANGE report it (R77, R386). -/
def State.irWord (s : State) : Word := ofN s.ir.toNat

/-- The weight-buffer slots and planes of the core's cluster are granted to the context (R216). -/
def State.arrayOwned (s : State) (n ctx : Nat) : Bool := (s.cluster (clusterOf n)).owner == some ctx

/-! ## Instructions -/

/-- The registers of a command. No masthead core has a term array (R375). -/
def Meta.mx (rd : List Nat) : Meta := { Meta.scalar rd [] with notMast := true }

/-- MX.CTX (R217, R218, R222). -/
def execMxCtx (p : Pred) (x : Reg) (s : State) : Host.Outcome State Fault Refusal :=
  issue (Meta.mx [x.toNat]) p s fun s1 th =>
    let v := th.readS x.toNat
    if !mxValid v then .trap .mxFormat 0 s1.irWord
    else match enqueue s1 th (mxWord s1.ir 0x70 x.toNat 0 0 0) v 0 v with
    | .done s2 => .done (s2.modCore s2.cur.core fun c => { c with mxCtx := v })
    | r => r

/-- MX.LDB (R223). -/
def execMxLdb (p : Pred) (y : Reg) (k : BitVec 5) (s : State) : Host.Outcome State Fault Refusal :=
  issue (Meta.mx [y.toNat]) p s fun s1 th =>
    let a := th.readS y.toNat
    let fmt := (s1.core s1.cur.core).mxCtx
    if !s1.arrayOwned s1.cur.core th.ctx then .trap .mxRange a s1.irWord
    else if a.toNat % 8 ≠ 0 then .trap .align a 4
    else match s1.rangeBad s1.cur th a (mxImageBytes (mxB fmt)) with
    | some e => .trap .access e 4
    | none => enqueue s1 th (mxWord s1.ir 0x71 0 y.toNat 0 k.toNat) 0 a fmt

/-- MX.SETB (R225). -/
def execMxSetb (p : Pred) (q : BitVec 2) (k : BitVec 5) (s : State) : Host.Outcome State Fault Refusal :=
  issue (Meta.mx []) p s fun s1 th =>
    if !s1.arrayOwned s1.cur.core th.ctx then .trap .mxRange 0 s1.irWord
    else enqueue s1 th (mxWord s1.ir 0x72 q.toNat 0 0 k.toNat) 0 0 (s1.core s1.cur.core).mxCtx

/-- M of the operand word of MX.MMA (R226). -/
def mmaM (w : Word) : Nat := wbits w 5 0
/-- ROW0. -/
def mmaRow0 (w : Word) : Nat := wbits w 12 8
/-- The stride in bytes; 0 means the packed row size. -/
def mmaStride (w fmt : Word) : Nat := if wbits w 33 16 = 0 then mxRowBytes (mxA fmt) else wbits w 33 16
/-- SIDE. -/
def mmaSide (w : Word) : Nat := wbits w 53 36

/-- The operand word breaks R226. -/
def mmaBad (w fmt : Word) : Bool :=
  mmaM w == 0 || decide (32 < mmaM w) || decide (32 < mmaRow0 w + mmaM w) || wbits w 7 6 != 0 || wbits w 15 13 != 0
    || wbits w 35 34 != 0 || wbits w 63 54 != 0 || wbits w 33 16 % 8 != 0 || mmaSide w % 8 != 0
    || (mmaSide w != 0 && mxA fmt != 0)

/-- The core in whose scratchpad a byte lies, reached through LOCAL or CORE under R189. -/
def State.spadCore? (s : State) (t : ThreadRef) (th : Thread) (a : Word) : Option Nat :=
  match windowOf a with
  | .local_ off => if s.scratchOk t.core t.core off th.ctx th then some t.core else none
  | .core c off =>
    match s.physical? th.ctx c with
    | some n => if s.scratchOk t.core n off th.ctx th then some n else none
    | none => none
  | _ => none

/-- The bytes of [a, a + n) at which what R189 says of an address can change: grants and windows are multiples of 64. -/
def probes (a : Word) (n : Nat) : List Word :=
  a :: ((List.range (n / 64 + 1)).map fun i => ofN ((a.toNat / 64 + 1 + i) * 64)).filter fun b =>
    decide ((b - a).toNat < n)

/-- The pieces of memory an MX.MMA reads: rows, then side rows (R226, R227). -/
def mmaPieces (w fmt y : Word) : List (Word × Nat) :=
  let rows := (List.range (mmaM w)).map fun m => (y + ofN (m * mmaStride w fmt), mxRowBytes (mxA fmt))
  if mxA fmt = 0 then rows ++ (List.range (mmaM w)).map fun m => (y + ofN (mmaSide w + 16 * m), 16) else rows

/-- The first offending byte of an MX.MMA's operands (R227): every byte lies in one core's scratchpad of the cluster. -/
def State.mmaOffends (s : State) (t : ThreadRef) (th : Thread) (w fmt y : Word) : Option Word :=
  let ps := (mmaPieces w fmt y).flatMap fun p => probes p.1 p.2
  match s.spadCore? t th y with
  | none => some y
  | some n =>
    if roleOf n != .compute || clusterOf n != clusterOf t.core then some y
    else ps.find? fun a => s.spadCore? t th a != some n

/-- MX.MMA (R226, R227). -/
def execMxMma (p : Pred) (x y : Reg) (q : BitVec 2) (w : BitVec 1) (s : State) : Host.Outcome State Fault Refusal :=
  issue (Meta.mx [x.toNat, y.toNat]) p s fun s1 th =>
    let n := s1.cur.core
    let op := th.readS x.toNat
    let a := th.readS y.toNat
    let fmt := (s1.core n).mxCtx
    let plane := ((s1.cluster (clusterOf n)).planes[q.toNat]?).getD Plane.blank
    if mmaBad op fmt || !s1.arrayOwned n th.ctx then .trap .mxRange a s1.irWord
    else if plane.tag ≠ some (mxB fmt, mxTside fmt) then .trap .mxFormat a s1.irWord
    else if a.toNat % 8 ≠ 0 then .trap .align a 4
    else match s1.mmaOffends s1.cur th op fmt a with
    | some e => .trap .access e 4
    | none => enqueue s1 th (mxWord s1.ir 0x73 x.toNat y.toNat 0 (2 * q.toNat + w.toNat)) op a fmt

/-- MX.ZERO (R228). -/
def execMxZero (p : Pred) (w : BitVec 1) (s : State) : Host.Outcome State Fault Refusal :=
  issue (Meta.mx []) p s fun s1 th =>
    enqueue s1 th (mxWord s1.ir 0x74 0 0 0 w.toNat) 0 0 (s1.core s1.cur.core).mxCtx

/-- MX.CNT (R231): vX is written when the command has its turn. -/
def execMxCnt (p : Pred) (x : Reg) (l : BitVec 4) (g : BitVec 4) (s : State) : Host.Outcome State Fault Refusal :=
  issue { Meta.mx [] with vs := [x.toNat], window := true } p s fun s1 th =>
    match enqueue s1 th (mxWord s1.ir 0x77 x.toNat 0 l.toNat g.toNat) 0 0 (s1.core s1.cur.core).mxCtx with
    | .done s2 => .done (s2.modThread s2.cur fun y => y.openOut s1.serial .v x.toNat l.toNat 0 .pending)
    | r => r

/-! ## Batches (R238) -/

/-- A command that no batch holds is assigned to one. -/
def MxCmd.close (slot : Nat) (who : List Nat) (n : Nat) (m : MxCmd) : MxCmd :=
  if m.of slot who && m.batch.isNone then { m with batch := some n } else m
/-- The same for a granted command. -/
def Stepping.close (core slot : Nat) (who : List Nat) (n : Nat) (x : Stepping) : Stepping :=
  if x.core = core then { x with cmd := x.cmd.close slot who n } else x

/-- Every command the thread has queued since its previous MX.BATCH joins batch n. -/
def State.closeBatch (s : State) (t : ThreadRef) (th : Thread) (n : Nat) : State :=
  let s1 := s.modCore t.core fun c => { c with mxQueue := c.mxQueue.map (MxCmd.close t.slot th.ident n) }
  s1.modCluster (clusterOf t.core) fun c =>
    { c with
      stepping := c.stepping.map (Stepping.close t.core t.slot th.ident n)
      finishing := c.finishing.map (Stepping.close t.core t.slot th.ident n) }

/-- MX.BATCH (R238). -/
def execMxBatch (p : Pred) (x : Reg) (l : BitVec 4) (s : State) : Host.Outcome State Fault Refusal :=
  issue { Meta.scalar [] [x.toNat] with notMast := true, window := true } p s fun s1 th =>
    let n := th.mxBatch + 1
    let s2 := (s1.closeBatch s1.cur th n).tick
    .done (s2.modThread s2.cur fun y => { y with mxBatch := n }.openOut s1.serial .s x.toNat l.toNat 0 (.word (ofN n)))

/-- The commands of a live thread that have not completed. -/
def State.cmdsOf (s : State) (t : ThreadRef) : List MxCmd :=
  match s.thread? t with
  | some th => ((s.core t.core).mxQueue ++ (s.granted t.core).map Stepping.cmd).filter (MxCmd.of t.slot th.ident)
  | none => []

/-- A command of a thread in batches 1 … lim has not completed. -/
def State.commandsRun (s : State) (t : ThreadRef) (lim : Nat) : Bool := (s.cmdsOf t).any fun m => inBatch lim m.batch

/-- MX.WAIT (R238). -/
def execMxWait (p : Pred) (x : Reg) (s : State) : Host.Outcome State Fault Refusal :=
  issue (Meta.mx [x.toNat]) p s fun s1 th =>
    let lim := min (th.readS x.toNat).toNat th.mxBatch
    if s1.commandsRun s1.cur lim then .wait .batch else .done s1

/-! ## Commands that begin in queue order -/

/-- MX_CTX_APPLY (R219, R221): a format context has reached the head of the queue, applies, and has completed. -/
def execMxCtxApply (n : Nat) (s : State) : Host.Outcome State Fault Refusal :=
  match (s.core n).nextCmd? with
  | none => .next s
  | some m =>
    if m.maj = 0x70 then .next ((s.modCore n fun c => { c with mxApplied := m.sx }).dropCmd n m.id) else .next s

/-- MX_ZERO_BEGIN (R228): the tile's slots, H, SAT and ERR become 0. -/
def execMxZeroBegin (n : Nat) (s : State) : Host.Outcome State Fault Refusal :=
  match (s.core n).nextCmd? with
  | none => .next s
  | some m =>
    if m.maj = 0x74 ∧ s.mayBegin n m then .next ((s.modCore n fun c => c.setTile (m.fn % 2) Tile.blank).dropCmd n m.id)
    else .next s

/-- The lanes MX.CNT writes (R231). -/
def cntLanes (tc : Vector Nat 64) (g : Nat) : List (Nat × Lane) :=
  (List.range 32).map fun i =>
    (i, if i < 8 then BitVec.ofNat 32 ((tc[4 * g + i / 2]?).getD 0 / 2 ^ (32 * (i % 2))) else 0)

/-- MX_CNT_WRITE (R231): the command has its turn and writes its register. -/
def execMxCntWrite (n : Nat) (s : State) : Host.Outcome State Fault Refusal :=
  match (s.core n).nextCmd? with
  | none => .next s
  | some m =>
    if m.maj = 0x77 ∧ s.mayBegin n m then
      let t : ThreadRef := ⟨n, m.slot⟩
      let s1 := (s.modThread t fun th =>
        { th with outs := modFirst (fun o => o.id == m.id) (fun o => { o with value := .lanes (cntLanes (s.core n).tc (m.fn % 16)) }) th.outs }).dropCmd n m.id
      execResultWrite t m.id s1
    else .next s

/-! ## MX.LDB (R223, R224) -/

/-- A weight-buffer slot. -/
def Cluster.weight (c : Cluster) (k : Nat) : Weight := lookupD c.weights k Weight.blank
/-- A weight-buffer slot changed. -/
def State.modWeight (s : State) (cl k : Nat) (f : Weight → Weight) : State :=
  s.modCluster cl fun c => { c with weights := insertKey c.weights k (f (c.weight k)) }

/-- The load begins: the slot is loading, with its tag. -/
def Weight.begin_ (f : Nat) (w : Weight) : Weight :=
  { state := .loading, tag := f, image := w.image ++ List.replicate (mxImageBytes f - w.image.length) 0 }

/-- Eight bytes of an image replaced. -/
def Weight.put (off : Nat) (bs : List Byte) (w : Weight) : Weight :=
  { w with image := w.image.take off ++ bs ++ w.image.drop (off + bs.length) }

/-- The slot takes a state. -/
def Weight.become (st : SlotState) (w : Weight) : Weight := { w with state := st }

/-- The load ends early: the slot is failed and the record is written, or waits (R207, R223). -/
def State.failLoad (s : State) (n : Nat) (m : MxCmd) (cause : Nat) (a : Word) : State :=
  let s1 := (s.modWeight (clusterOf n) (m.fn % 32) (Weight.become .failed)).meetFailure n (.req m.id)
  match s1.engineRecord n m.slot m.ctx m.ended cause false m.pc a (ofN (8 * m.prog)) with
  | some s2 => s2.dropCmd n m.id
  | none => s1.modCmd n m.id fun x => { x with record := some (cause, a, 8 * m.prog) }

/-- One word of the image is read (R223, R209). -/
def State.loadNext (s : State) (n : Nat) (m : MxCmd) : State :=
  let t : ThreadRef := ⟨n, m.slot⟩
  let th := engineThread m.ctx m.priv
  let a := m.sy + ofN (8 * m.prog)
  match s.engineResolve t th a accEngineRead false m.id with
  | .miss => s.joinMiss (unitOf n) m.ctx a 0 t (.req m.id)
  | .bad c => s.failLoad n m c.code a
  | .ok key e =>
    if s.held key then s
    else if s.grantSaved m.ctx key then s.holdSaved key (.load n)
    else
      let k := m.fn % 32
      let s1 := (s.correct key).modWeight (clusterOf n) k (Weight.put (8 * m.prog) (leBytes 8 (s.readAs (s.cipherFor th e) key 8)))
      if 8 * (m.prog + 1) < mxImageBytes (mxB m.fmt) then s1.modCmd n m.id fun x => { x with prog := m.prog + 1 }
      else (s1.modWeight (clusterOf n) k (Weight.become .valid)).dropCmd n m.id

/-- MX_LDB_LOAD (R223): the core's MX.LDB begins, reads its next word, or ends with a record. -/
def execMxLdbLoad (n : Nat) (s : State) : Host.Outcome State Fault Refusal :=
  match (s.core n).mxQueue.find? fun m => m.maj == 0x71 && m.begun with
  | some m =>
    match m.record with
    | some r =>
      match s.engineRecord n m.slot m.ctx m.ended r.1 false m.pc r.2.1 (ofN r.2.2) with
      | some s1 => .next (s1.dropCmd n m.id)
      | none => .next s
    | none => .next (s.loadNext n m)
  | none =>
    match (s.core n).nextCmd? with
    | none => .next s
    | some m =>
      if m.maj = 0x71 ∧ s.mayBegin n m then
        .next ((s.modCmd n m.id fun x => { x with begun := true }).modWeight (clusterOf n) (m.fn % 32) (Weight.begin_ (mxB m.fmt)))
      else .next s

/-! ## Arbitration (R220, R225, R227) -/

/-- The last cycle of the present rotation. -/
def State.lastCycle (s : State) : Nat := 8 * s.beat + 7

/-- The ready array command of a core: its next command, every command that has begun having completed; of the granted ones
only the previous array command may still be on its way, its last step over (R219). -/
def State.readyArray? (s : State) (n : Nat) : Option MxCmd :=
  match (s.core n).nextCmd? with
  | some m =>
    if m.isArray && (s.core n).passed m && (s.granted n).all fun x => (s.core n).mxLast == some x.cmd.id then some m else none
  | none => none

/-- The ready array commands of a cluster, in the order of their cores from the one after the last granted index on (R220). -/
def State.readyCores (s : State) (cl : Nat) : List (Nat × MxCmd) :=
  ((List.range 64).map fun i => cl * 64 + ((s.cluster cl).lastGrant + 1 + i) % 64).filterMap fun n =>
    (s.readyArray? n).map fun m => (n, m)

/-- The first cycle in which a core's ready command may be granted (R219, R220). -/
def State.grantFrom (s : State) (cl n : Nat) : Nat := max (max (s.cluster cl).freeAt (8 * s.beat)) (s.core n).mxFreeAt

/-- The first cycle in which one of these may be granted. -/
def State.firstGrant (s : State) (cl : Nat) : List (Nat × MxCmd) → Nat
  | [] => 0
  | [p] => s.grantFrom cl p.1
  | p :: r => min (s.grantFrom cl p.1) (s.firstGrant cl r)

/-- The next grant, and its cycle: of the commands ready in the first cycle in which one is, the one whose core's index follows the
last granted one most closely; a hold keeps the choice made before it (R220). -/
def State.arbitrate (s : State) (cl : Nat) : Option (Nat × MxCmd × Nat) :=
  match (s.cluster cl).holdFor.bind fun n => (s.readyArray? n).map fun m => (n, m) with
  | some (n, m) => some (n, m, s.grantFrom cl n)
  | none =>
    let rs := s.readyCores cl
    let c := s.firstGrant cl rs
    (rs.find? fun p => decide (s.grantFrom cl p.1 ≤ c)).map fun p => (p.1, p.2, c)

/-- The words of n bytes of a scratchpad row. -/
def State.rowKeys (s : State) (t : ThreadRef) (ctx : Nat) (a : Word) (n : Nat) : List Nat :=
  (List.range (n / 8)).map fun i => (s.keyOf? t ctx (a + ofN (8 * i))).getD 0

/-- n bytes of a scratchpad row, or none at an uncorrectable error. -/
def State.readRow (s : State) (t : ThreadRef) (ctx : Nat) (a : Word) (n : Nat) : Option (List Byte) :=
  let keys := s.rowKeys t ctx a n
  if keys.any fun k => s.eccAt k then none else some (keys.flatMap fun k => leBytes 8 (s.readMem k 8))

/-- Row m of A: its codes and its side pairs. -/
def State.readA (s : State) (n : Nat) (c : MxCmd) (m : Nat) : Option (List Byte × List Byte) :=
  let t : ThreadRef := ⟨n, c.slot⟩
  match s.readRow t c.ctx (c.sy + ofN (m * mmaStride c.sx c.fmt)) (mxRowBytes (mxA c.fmt)) with
  | none => none
  | some codes =>
    if mxA c.fmt = 0 then (s.readRow t c.ctx (c.sy + ofN (mmaSide c.sx + 16 * m)) 16).map fun side => (codes, side)
    else some (codes, [])

/-- Single-bit errors in the first k rows of A are corrected as they are read (R277, R349). -/
def State.correctRows (s : State) (n : Nat) (c : MxCmd) (k : Nat) : State :=
  if s.eccSoft.isEmpty then s
  else (List.range k).foldl (fun a m =>
    (a.rowKeys ⟨n, c.slot⟩ c.ctx (c.sy + ofN (m * mmaStride c.sx c.fmt)) (mxRowBytes (mxA c.fmt)) ++
      (if mxA c.fmt = 0 then a.rowKeys ⟨n, c.slot⟩ c.ctx (c.sy + ofN (mmaSide c.sx + 16 * m)) 16 else [])).foldl State.correct a) s

/-- Rows of A from m on, up to an uncorrectable error. -/
def State.readRows (s : State) (n : Nat) (c : MxCmd) : Nat → Nat → List (List Byte × List Byte)
  | 0, _ => []
  | k + 1, m =>
    match s.readA n c m with
    | none => []
    | some r => r :: s.readRows n c k (m + 1)

/-- A[m][k] of a row. -/
def mxAElem (fmt : Word) (r : List Byte × List Byte) : Nat → Fp × Nat :=
  let codes := r.1.toArray
  let side := r.2.toArray
  fun k => mxLine (mxA fmt) (mxNospec fmt) (byteAt codes) (byteAt side) k

/-- The term counts of a row of A. -/
def rowTerms (fmt : Word) (r : List Byte × List Byte) : List Nat :=
  let a := mxAElem fmt r
  (List.range (mxK (mxA fmt))).map fun k => (a k).2

/-- The largest of a list. -/
def listMax (l : List Nat) : Nat := l.foldl max 0

/-- The steps of the rows of an MX.MMA (R227): the plane's slowest group, or the row's own terms. Of a
command that meets an error in A, the rows not read count one step each with term side A and all theirs with side B (DEDUCED,
log 13). -/
def mmaSteps (plane : Plane) (fmt : Word) (m : Nat) (rows : List (List Byte × List Byte)) : Nat :=
  if mxTside fmt then
    (rows.map fun r => max 1 (cdiv (listMax (rowTerms fmt r)) 2)).sum + (m - rows.length)
  else m * listMax plane.step

/-- The command as granted in cycle c (R225, R227). MX.SETB tests its slot's state and tag here, so that an MX.LDB that overlaps its
steps leaves old or new elements and no fault (R224). DEDUCED: log 13. -/
def State.grantOf (s : State) (n : Nat) (m : MxCmd) (c : Nat) : Stepping :=
  if m.maj = 0x72 then
    let w := (s.cluster (clusterOf n)).weight (m.fn % 32)
    ⟨n, m, c, if mxB m.fmt = 6 then 16 else 64, w.state == .valid && w.tag == mxB m.fmt, none, []⟩
  else
    let plane := ((s.cluster (clusterOf n)).planes[m.fn / 2 % 4]?).getD Plane.blank
    if plane.tag = some (mxB m.fmt, mxTside m.fmt) then
      let rows := s.readRows n m (mmaM m.sx) 0
      ⟨n, m, c, mmaSteps plane m.fmt (mmaM m.sx) rows, true, some plane, rows⟩
    else ⟨n, m, c, 1, true, none, []⟩

/-- The array takes a granted command; what stepped before goes on to complete. -/
def Cluster.take (c : Cluster) (x : Stepping) (idx : Nat) : Cluster :=
  { c with
    finishing := c.finishing ++ c.stepping.toList
    stepping := some x
    lastGrant := idx
    freeAt := x.grant + x.d
    holdFor := none }

/-- No array command is stepping in the rotation's last cycle: the next grant may be made, and a finished MX.SETB has
replaced its plane. -/
def State.arrayFree (s : State) (cl : Nat) : Bool :=
  let c := s.cluster cl
  decide (c.freeAt ≤ s.lastCycle) && c.hold.isNone
    && (match c.stepping with | some x => x.cmd.maj != 0x72 | none => true)

/-- ARRAY_GRANT (R220): the next ready array command is granted, or, with a hold given, the power controller first places
a hold of up to 64 cycles (R353). An uncorrectable error in its rows of A is reported on the die (R335). -/
def execArrayGrant (cl hold : Nat) (s : State) : Host.Outcome State Fault Refusal :=
  if !s.arrayFree cl then .next s
  else match s.arbitrate cl with
  | none => .next s
  | some (n, m, c) =>
    if s.lastCycle < c then .next s
    else if 0 < hold then
      if hold ≤ 64 ∧ (s.cluster cl).holdFor = none then
        .next (s.modCluster cl fun x => { x with hold := some (c + hold), holdFor := some n })
      else .next s
    else
      let g := s.grantOf n m c
      let s0 := s.correctRows n m g.rows.length
      let s1 := if g.plane.isSome && decide (g.rows.length < mmaM m.sx) then s0.eccEvent n else s0
      .next (((s1.dropCmd n m.id).modCore n fun k => { k with mxLast := some m.id }).modCluster cl fun x => x.take g (indexOf n))

/-- POWER_HOLD (R220): the hold has run out. -/
def execPowerHold (cl : Nat) (s : State) : Host.Outcome State Fault Refusal :=
  match (s.cluster cl).hold with
  | none => .next s
  | some e =>
    if e ≤ s.lastCycle then .next (s.modCluster cl fun c => { c with hold := none, freeAt := max c.freeAt e }) else .next s

/-! ## MX.SETB (R225) -/

/-- The cells of group g, in FP64 mode gangs, as (k, n). -/
def groupCells (f g : Nat) : List (Nat × Nat) :=
  let w := if f = 6 then 4 else 16
  (List.range w).flatMap fun i => (List.range (mxK f)).map fun k => (k, w * g + i)

/-- The term counts of the cells of group g. -/
def groupTerms (f : Nat) (nospec : Bool) (img : Array Byte) (g : Nat) : List Nat :=
  (groupCells f g).map fun c => (mxB? f nospec img c.1 c.2).2

/-- A plane recoded from a slot (R225). -/
def recode (fmt : Word) (w : Weight) : Plane :=
  let f := mxB fmt
  let img := w.image.toArray
  let ts := (List.range 16).map fun g => groupTerms f (mxNospec fmt) img g
  { tag := some (f, mxTside fmt)
    nospec := mxNospec fmt
    step := if mxTside fmt then List.replicate 16 1 else ts.map fun t => max 1 (cdiv (listMax t) 2)
    terms := if mxTside fmt then List.replicate 16 0 else ts.map List.sum
    image := w.image }

/-- MX_SETB_COMPLETE (R225): at the end of its last step the plane's cells, tag and step table are replaced, from the image as it
then is. DESIGN CHOICE: log 13. -/
def execMxSetbComplete (cl : Nat) (s : State) : Host.Outcome State Fault Refusal :=
  match (s.cluster cl).stepping with
  | none => .next s
  | some x =>
    if x.cmd.maj = 0x72 ∧ x.grant + x.d ≤ s.lastCycle + 1 then
      let w := (s.cluster cl).weight (x.cmd.fn % 32)
      let put (p : Plane) : Plane := if x.valid then recode x.cmd.fmt w else { p with tag := none }
      .next (s.modCluster cl fun c =>
        { c with stepping := none, planes := c.planes.setIfInBounds (x.cmd.fx % 4) (put ((c.planes[x.cmd.fx % 4]?).getD Plane.blank)) })
    else .next s

/-! ## MX.MMA (R227-R230) -/

/-- A row of accumulator elements after the command. -/
def mmaRow (fmt : Word) (plane : Plane) (img : Array Byte) (r : Nat) (a : List Byte × List Byte) (t : Tile) : Tile :=
  let k := mxK (mxA fmt)
  let row := mxAElem fmt a
  (List.range k).foldl (fun t n =>
    let z := mxDot (mxAcc fmt) k (t.elem (mxAcc fmt) r n) (fun i => (row i).1) (fun i => (mxB? (mxB fmt) plane.nospec img i n).1)
    { t.setElem (mxAcc fmt) r n z.1 with sat := t.sat || z.2 }) t

/-- The tile after an MX.MMA (R227): a plane that changed sets ERR; so does an uncorrectable error in A. -/
def mmaTile (x : Stepping) (t : Tile) : Tile :=
  match x.plane with
  | none => { t with err := true }
  | some plane =>
    let row0 := mmaRow0 x.cmd.sx
    let t1 := x.rows.zipIdx.foldl (fun t p => mmaRow x.cmd.fmt plane plane.image.toArray (row0 + p.2) p.1 t) t
    { t1 with h := max t1.h (row0 + mmaM x.cmd.sx), err := t1.err || decide (x.rows.length < mmaM x.cmd.sx) }

/-- What an MX.MMA adds to counter k of group g (R230). -/
def mmaCount (x : Stepping) (plane : Plane) (g k : Nat) : Nat :=
  let m := mmaM x.cmd.sx
  let step := plane.step.getD g 1
  match mxTside x.cmd.fmt, k with
  | false, 0 => m * plane.terms.getD g 0
  | false, 1 => m * step
  | false, 2 => m * (listMax plane.step - step)
  | true, 0 => (if mxAcc x.cmd.fmt = 2 then 4 else 16) * (x.rows.map fun r => (rowTerms x.cmd.fmt r).sum).sum
  | true, 1 => x.d
  | true, 2 => 0
  | _, _ => 1

/-- The term counters after an MX.MMA; one that writes nothing counts nothing (R229, R230). -/
def mmaCounters (x : Stepping) (tc : Vector Nat 64) : Vector Nat 64 :=
  match x.plane with
  | none => tc
  | some plane =>
    if x.rows.isEmpty then tc else tc.mapIdx fun i v => (v + mmaCount x plane (i / 4) (i % 4)) % 2 ^ 64

/-- The granted command that completes next. -/
def Cluster.oldest? (c : Cluster) : Option Stepping := (c.finishing ++ c.stepping.toList).head?

/-- A granted command leaves. -/
def Cluster.leave (c : Cluster) : Cluster :=
  match c.finishing with
  | _ :: r => { c with finishing := r }
  | [] => { c with stepping := none }

/-- MX_MMA_COMPLETE (R221): 40 cycles after its last step every element and counter of an MX.MMA is written. -/
def execMxMmaComplete (cl : Nat) (s : State) : Host.Outcome State Fault Refusal :=
  match (s.cluster cl).oldest? with
  | none => .next s
  | some x =>
    if x.cmd.maj = 0x73 ∧ x.grant + x.d + 39 ≤ s.lastCycle then
      let i := x.cmd.fn % 2
      .next ((s.modCore x.core fun c =>
        { c.setTile i (mmaTile x (c.tile i)) with tc := mmaCounters x c.tc, mxFreeAt := x.grant + x.d + 40 }).modCluster cl Cluster.leave)
    else .next s

end Sys2Proof.Machine
end

