-- ==== Sys2Proof/Machine/DrainPath.lean ====
section
/-! DEFINITION. The drain path of the term array: HRESV (R232), MX.DRAIN and MX.DRAIN.RAW (R233-R235), ROWOUT (R236), the
done word (R236) and failing drains (R237). -/

namespace Sys2Proof.Machine

/-! ## HRESV (R232) -/

/-- The slot HRESV names: the core's reservation, or the lowest slot granted to the band that holds no thread. -/
def State.handlerSlot? (s : State) (n : Nat) (th : Thread) : Option Nat :=
  match (s.core n).reservation with
  | some k => some k
  | none => (List.range 8).find? fun i =>
    (s.slot ⟨n, i⟩).grant == some th.bandRef && (s.slot ⟨n, i⟩).thread.isNone

/-- HRESV (R232). -/
def execHresv (p : Pred) (x : Reg) (l : BitVec 4) (s : State) : Host.Outcome State Fault Refusal :=
  issue { Meta.scalar [] [x.toNat] with notMast := true, window := true } p s fun s1 th =>
    let n := s1.cur.core
    let k := s1.handlerSlot? n th
    let v := match k with | some i => ofN i | none => BitVec.allOnes 64
    let s2 := s1.tick.modCore n fun c => { c with reservation := k.or c.reservation }
    .done (s2.modThread s2.cur fun y => y.openOut s1.serial .s x.toNat l.toNat 0 (.word v))

/-! ## MX.DRAIN (R233) -/

/-- MX.DRAIN and MX.DRAIN.RAW. -/
def drainForm (raw : Bool) (p : Pred) (x y : Reg) (w : BitVec 1) (s : State) : Host.Outcome State Fault Refusal :=
  issue (Meta.mx [x.toNat, y.toNat]) p s fun s1 th =>
    let n := s1.cur.core
    let done := th.readS x.toNat
    let pc := th.readS y.toNat
    if (s1.core n).reservation.isNone then .trap .mxRange done s1.irWord
    else if pc.toNat % 4 ≠ 0 then .trap .align pc 4
    else if done.toNat % 8 ≠ 0 then .trap .align done 7
    else if !canonical pc then .trap .access pc 4
    else match s1.resolve s1.cur th done (accEngineFe true) (.thread s1.cur) with
    | .fault c info => .trap c done info
    | .miss => .miss done 3
    | .ok _ e =>
      enqueue (s1.refill n e) th (mxWord s1.ir 0x75 x.toNat y.toNat 0 (2 * b2n raw + w.toNat)) done pc (s1.core n).mxCtx
        (match e with | some x => pageBytes x.size | none => 65536)
    | _ => .trap .access done 7

/-- MX.DRAIN (R233, R234). -/
def execMxDrain (p : Pred) (x y : Reg) (w : BitVec 1) (s : State) := drainForm false p x y w s
/-- MX.DRAIN.RAW (R233, R234). -/
def execMxDrainRaw (p : Pred) (x y : Reg) (w : BitVec 1) (s : State) := drainForm true p x y w s

/-! ## Rows (R233, R234) -/

/-- A drain as it begins: H, SAT and ERR of its tile are sampled (R235). -/
def newDrain (m : MxCmd) (t : Tile) : Drain :=
  { cmd := m.id, raw := bits m.fn 1 1 == 1, tile := m.fn % 2, h := t.h, sat := t.sat, err := t.err, acc := mxAcc m.fmt
    satMode := mxSat m.fmt, next := 0, dispatched := 0, placed := 0, done := m.sx, handlerPc := m.sy, issuer := m.slot
    writes := [], failed := none, seed := m.seed, scope := m.scope, ident := m.ident, page := m.page }

/-- The core's next command is an MX.DRAIN that begins now. -/
def State.beginDrain (s : State) (n : Nat) : State :=
  match (s.core n).nextCmd?, (s.core n).drain with
  | some m, none =>
    if m.isDrain ∧ s.mayBegin n m then
      (s.modCmd n m.id fun x => { x with begun := true }).modCore n fun c => { c with drain := some (newDrain m (c.tile (m.fn % 2))) }
    else s
  | _, _ => s

/-- The next row of the tile enters the buffer, while that holds fewer than eight (R233). -/
def Core.enterRow (c : Core) : Core :=
  match c.drain with
  | none => c
  | some d =>
    if d.next < d.h ∧ c.drainBuf.length < 8 ∧ d.failed = none then
      let t := c.tile d.tile
      { c with
        drain := some { d with next := d.next + 1 }
        drainBuf := c.drainBuf ++ [(d.next, (List.range 256).map fun i => t.slot d.next i)] }
    else c

/-- DRAIN_ROW_ENTER (R233): a drain begins, and its next row enters the buffer. -/
def execDrainRowEnter (n : Nat) (s : State) : Host.Outcome State Fault Refusal :=
  .next ((s.beginDrain n).modCore n Core.enterRow)

/-- A code converted to FP32 for a drain (R234): RNE, and under SAT a finite value beyond the range stays finite. -/
def drainF32 (sat : Bool) (v : Fp) : Nat :=
  let r := (roundFp fp32 .rne false v).1
  match v with
  | .fin neg _ _ => if sat && r % 2 ^ 31 == 0x7F800000 then fp32.largest neg else r
  | _ => r

/-- The lane i of v(j) a row gives (R234). -/
def drainLane (d : Drain) (row : Array (BitVec 36)) (j i : Nat) : Lane :=
  let sl (k : Nat) : Nat := ((row[k]?).getD 0).toNat
  let f64 (n : Nat) : Nat := sl (2 * n) % 2 ^ 32 + sl (2 * n + 1) % 2 ^ 32 * 2 ^ 32
  let v : Nat :=
    if d.acc = 2 then
      if d.raw then (if j < 4 then f64 (16 * j + i / 2) / 2 ^ (32 * (i % 2)) else 0)
      else if j < 2 then drainF32 d.satMode (fp64.decode (f64 (32 * j + i)))
      else 0
    else if d.raw then
      if j < 8 then sl (32 * j + i)
      else (List.range 8).foldl (fun a k => a + sl (8 * i + k) / 2 ^ 32 * 16 ^ k) 0
    else if d.acc = 1 then
      let x := (BitVec.ofNat 36 (sl (32 * j + i))).toInt
      (roundFin fp32 .rne false (x < 0) x.natAbs 0 false).1
    else drainF32 d.satMode (e9m26.decode (sl (32 * j + i)))
  BitVec.ofNat 32 v

/-- v(j) for a row. -/
def drainReg (d : Drain) (row : Array (BitVec 36)) (j : Nat) : Vector Lane 32 := Vector.ofFn fun i => drainLane d row j i.val

/-! ## The handler thread (R235) -/

/-- The status word s5 (R235). -/
def Drain.status (d : Drain) : Word :=
  ofN (d.h + b2n d.sat * 2 ^ 8 + b2n d.err * 2 ^ 9 + d.acc * 2 ^ 10 + b2n d.raw * 2 ^ 12)

/-- The band of a drain. -/
def Drain.band (d : Drain) : BandRef := ⟨d.ident.getD 3 0, d.ident.getD 0 0, d.ident.getD 1 0⟩

/-- tile.org and tile.ext of a drain's handler: what the tensor division gives a thread of the band on the core (R235, R297). On a
core that is none of the band's there is no such value: 0. DESIGN CHOICE: log 15. -/
def State.handlerTile (s : State) (n : Nat) (d : Drain) : List Nat × List Nat :=
  match s.band? d.band, s.launch? d.band.ctx d.band.launch with
  | some b, some l =>
    if b.cores.contains n then tileOf l.rec_.divs (d.band.band * b.cores.length + b.cores.idxOf n) else tileOf [] 0
  | _, _ => tileOf [] 0

/-- The handler thread at its creation on a core (R235). -/
def newHandler (s : State) (n : Nat) (d : Drain) : Thread :=
  let w (i : Nat) : Word := d.seed.getD i 0
  { Thread.blank with
    tileOrg := (s.handlerTile n d).1
    tileExt := (s.handlerTile n d).2
    scopeD := w 0
    feBudget := w 1
    chBudget := w 2
    barBudget := w 3
    fpCtl := w 4
    rng := w 5
    lmask := (w 6).setWidth 32
    trapVec := w 7
    launch := d.ident.getD 0 0
    band := d.ident.getD 1 0
    tib := d.ident.getD 2 0
    ctx := d.ident.getD 3 0
    handler := some ⟨false, 0⟩ }

/-- A row dispatched to the handler: v0-v7, with .RAW v8, s3, s4, s5 and the PC (R235). -/
def Thread.takeRow (th : Thread) (d : Drain) (r : Nat) (row : List (BitVec 36)) (beat : Nat) : Thread :=
  let a := row.toArray
  let th1 := (List.range (if d.raw then 9 else 8)).foldl (fun x j => x.writeV j (drainReg d a j)) th
  { th1 with
    s := ((th1.s.setIfInBounds 3 (ofN r)).setIfInBounds 4 d.done).setIfInBounds 5 d.status
    pc := pcOf d.handlerPc
    handler := some ⟨true, ofN r⟩
    fetched := none
    wait := none
    notBefore := beat + 1 }

/-- The slot of a core's handler: the one the drain's handler was created in, else the reserved one. -/
def Core.handlerRef (c : Core) (n : Nat) : ThreadRef := ⟨n, ((c.drain.bind Drain.slot).or c.reservation).getD 0⟩

/-- A halted thread whose stores, reductions and other held accesses are over. -/
def State.quiet (s : State) (t : ThreadRef) (th : Thread) : Bool := th.halted && !s.haltBusy t th

/-- The slot can take a new handler: it holds no thread, or a handler that has ended and drained. -/
def State.handlerRoom (s : State) (t : ThreadRef) : Bool :=
  match s.thread? t with
  | none => true
  | some th => th.handler.isSome && s.quiet t th

/-- The drain's band is saved, its handler with it, while the core's state has stayed: the drain goes on when the band resumes
(R235, R313). -/
def State.drainSaved (s : State) (d : Drain) : Bool := match s.band? d.band with | some b => b.state == .saved | none => false

/-- The drain's handler, once created, is no longer there (R237). DEDUCED: log 15. -/
def State.handlerGone (s : State) (t : ThreadRef) (d : Drain) : Bool :=
  decide (0 < d.dispatched) && !s.drainSaved d && (match s.thread? t with
    | none => true
    | some th => th.halted || th.handler.isNone)

/-- DRAIN_DISPATCH (R235): the oldest row of the buffer goes to the idle handler thread, which the first row creates. -/
def execDrainDispatch (n : Nat) (s : State) : Host.Outcome State Fault Refusal :=
  let c := s.core n
  let t := c.handlerRef n
  match c.drain, c.drainBuf with
  | some d, (r, row) :: rest =>
    if d.failed.isSome ∨ (d.slot.or c.reservation).isNone ∨ s.drainSaved d then .next s
    else
      let go (s : State) (th : Thread) : Host.Outcome State Fault Refusal :=
        .next ((s.setThread t (th.takeRow d r row s.beat)).modCore n fun c =>
          { c with drain := some { d with dispatched := d.dispatched + 1, slot := some t.slot }, drainBuf := rest })
      if d.dispatched = 0 then
        if s.handlerRoom t ∧ !s.savingBand (newHandler s n d) then go s (newHandler s n d) else .next s
      else match s.thread? t with
      | some th =>
        if th.handler = none ∨ (th.handler.map Handler.busy) = some true ∨ th.halted ∨ th.stopped ∨ th.busy ≠ 0 ∨ s.stopping th
        then .next s else go s th
      | none => .next s
  | _, _ => .next s

/-! ## ROWOUT (R236) -/

/-- The 128 words of v0-v7, lane 0 of v0 first. -/
def Thread.rowWords (th : Thread) : List Word :=
  (List.range 128).map fun i =>
    ofN ((th.readLane (i / 16) (2 * (i % 16))).toNat + (th.readLane (i / 16) (2 * (i % 16) + 1)).toNat * 2 ^ 32)

/-- The row's writes begin, and the handler becomes idle; after the last row it ends. -/
def State.placeRow (s : State) (t : ThreadRef) (th : Thread) (row : Word) (a : Word) : State :=
  let s1 := (s.effectRange th a 1024).modCore t.core fun c =>
    { c with drain := c.drain.map fun d =>
        { d with placed := d.placed + 1, placedAt := s.beat, writes := d.writes ++ (th.rowWords.zipIdx.map fun p => (a + ofN (8 * p.2), p.1)) } }
  let s2 := s1.modThread t fun x => { x with handler := some ⟨false, row⟩, outs := [], pc := nextPc x.pc }
  match (s2.core t.core).drain with
  | some d => if d.h ≤ d.placed then s2.haltThread t else s2
  | none => s2

/-- ROWOUT (R236). -/
def execRowout (p : Pred) (x y : Reg) (s : State) : Host.Outcome State Fault Refusal :=
  issue { Meta.mx [x.toNat, y.toNat] with vs := [0, 1, 2, 3, 4, 5, 6, 7] } p s fun s1 th =>
    match th.handler with
    | some ⟨true, row⟩ =>
      let b := th.readS x.toNat
      let st := th.readS y.toNat
      let a := b + row * st
      if b.toNat % 8 ≠ 0 then .trap .align b 5
      else if st.toNat % 8 ≠ 0 then .trap .align st 5
      else match s1.rangeBad s1.cur th a 1024 with
      | some e => .trap .access e 5
      | none => if !th.settled then .wait .windows else .stay (s1.placeRow s1.cur th row a)
    | _ => .trap .mxRange 0 s1.irWord

/-! ## The done word (R236, R237) -/

/-- An engine thread for a drain: its context, without privilege. -/
def Drain.thread (d : Drain) : Thread := { Thread.blank with ctx := d.ident.getD 3 0 }

/-- A drain one of whose writes has failed: the rest of that row is not written, and the row does not count (R236,
R237). -/
def Drain.lose (d : Drain) (c : Cause) : Drain :=
  { d with
    failed := d.failed.or (some c.code)
    writes := d.writes.drop ((d.writes.length - 1) % 128 + 1)
    placed := d.placed - 1 }

/-- The next ROWOUT write of a drain: performed, or waiting for its page, or the drain has failed (R236, R237). DEDUCED: log 14. -/
def State.drainWrite (s : State) (n : Nat) (d : Drain) : State :=
  let t : ThreadRef := ⟨n, d.issuer⟩
  let now (d : Drain) (s : State) := s.modCore n fun c => { c with drain := some d }
  match d.writes with
  | [] => s
  | (a, w) :: _ =>
    match s.engineResolve t d.thread a accEngineWrite false d.cmd with
    | .miss => s.joinMiss (unitOf n) (d.ident.getD 3 0) a 1 t (.req d.cmd)
    | .bad c =>
      let s1 := if c = .eccUncorrectable then s.eccEvent n else s
      now (d.lose c) (s1.meetFailure n (.req d.cmd))
    | .ok key e =>
      if s.held key then s
      else if s.grantSaved (d.ident.getD 3 0) key then s.holdSaved key (.row n)
      else now { d with writes := d.writes.tail } (s.writeAs (s.cipherFor d.thread e) key 8 w.toNat)

/-- The effect of a done word's fill on band.OUT: its issuer is in a region (R308). -/
def State.drainEffect (s : State) (n : Nat) (d : Drain) : State :=
  match s.thread? ⟨n, d.issuer⟩ with
  | some th => if th.launch = d.ident.getD 0 0 ∧ th.band = d.ident.getD 1 0 ∧ th.tib = d.ident.getD 2 0 then s.effectOut th else s
  | none => s

/-- A done word with an uncorrectable error takes nothing: an engine's record for the issuing thread says so (R350). None while no
record is free (R207). DESIGN CHOICE: log 68. -/
def State.doneFails (s : State) (n : Nat) (d : Drain) (v : Word) : Option State :=
  let cmd := (s.core n).mxQueue.find? fun m => m.id == d.cmd
  s.engineRecord n d.issuer (d.ident.getD 3 0) ((cmd.map MxCmd.ended).getD true) 16 false ((cmd.map MxCmd.pc).getD 0) d.done v

/-- The done word is filled, set-full, and the drain is over (R236). A word that can no longer be written is left. DEDUCED: log 15. -/
def State.fillDone (s : State) (n : Nat) (d : Drain) (v : Word) : State :=
  let t : ThreadRef := ⟨n, d.issuer⟩
  let finish (s : State) := ((s.modCore n fun c => { c with drain := none, drainBuf := [] }).dropCmd n d.cmd).drainEffect n d
  match s.engineResolve t d.thread d.done (accEngineFe true) false d.cmd with
  | .miss => s.joinMiss (unitOf n) (d.ident.getD 3 0) d.done 3 t (.req d.cmd)
  | .bad .eccUncorrectable => (match s.doneFails n d v with | some s1 => finish s1 | none => s)
  | .bad _ => finish (s.meetFailure n (.req d.cmd))
  | .ok key e =>
    if s.held key then s
    else if s.grantSaved (d.ident.getD 3 0) key then s.holdSaved key (.row n)
    else finish (((s.writeAs (s.cipherFor d.thread e) key 8 v.toNat).setFull key true).changed key)

/-- The done word of a drain (R236). -/
def Drain.word (d : Drain) (fail : Bool) (cause : Nat) : Word :=
  ofN (d.placed % 256 + b2n d.sat * 2 ^ 8 + b2n d.err * 2 ^ 9 + b2n fail * 2 ^ 10 + cause * 2 ^ 16)

/-- DRAIN_DONE_FILL (R236): the ROWOUT writes of a drain are performed, a row's after the rotation of its ROWOUT (R272), and after the last of the last row the done word
is filled. -/
def execDrainDoneFill (n : Nat) (s : State) : Host.Outcome State Fault Refusal :=
  match (s.core n).drain with
  | none => .next s
  | some d =>
    if !d.writes.isEmpty then .next (if d.writes.length ≤ 128 ∧ s.beat ≤ d.placedAt then s else s.drainWrite n d)
    else if d.failed = none ∧ d.h ≤ d.placed then .next (s.fillDone n d (d.word false 0))
    else .next s

/-- The handler of a drain whose write failed is stopped at its next instruction boundary (R237); its state is not
kept. -/
def State.stopHandler (s : State) (t : ThreadRef) : State :=
  match s.thread? t with
  | some th =>
    if th.handler.isSome && !th.halted then
      (s.haltThread t).modThread t fun x => { x with handler := some ⟨false, 0⟩ }
    else s
  | none => s

/-- The handler of a drain is at an instruction boundary. -/
def State.handlerAtBoundary (s : State) (t : ThreadRef) : Bool :=
  match s.thread? t with
  | some th => th.handler.isNone || th.halted || th.busy == 0
  | none => true

/-- DRAIN_FAIL (R237): a write has failed, or the handler has ended with a row dispatched to it, or is gone at the next
dispatch. Rows not placed are discarded, the writes made are waited for, and the done word is filled with FAIL. -/
def execDrainFail (n : Nat) (s : State) : Host.Outcome State Fault Refusal :=
  let c := s.core n
  let t := c.handlerRef n
  match c.drain with
  | none => .next s
  | some d =>
    let gone := s.handlerGone t d && decide (d.placed < d.h) && (decide (d.placed < d.dispatched) || !c.drainBuf.isEmpty)
    match d.failed with
    | some cause =>
      if !s.handlerAtBoundary t then .next s
      else
        let s1 := (s.stopHandler t).modCore n fun c => { c with drainBuf := [] }
        if d.writes.isEmpty then .next (s1.fillDone n d (d.word true cause)) else .next s1
    | none =>
      if gone then .next (s.modCore n fun c => { c with drain := some { d with failed := some 0xFE }, drainBuf := [] }) else .next s

/-- A handler that has ended after its drain's last row, or with it, leaves its slot vacant once its held accesses are
performed (R236, R237). -/
def State.clearHandler (s : State) (t : ThreadRef) : State :=
  match s.thread? t with
  | some th => if (th.handler.map Handler.busy) = some false ∧ s.quiet t th then s.dropThread t else s
  | none => s

end Sys2Proof.Machine
end

