-- ==== Sys2Proof/Machine/Launches.lean ====
section
/-! DEFINITION. Launch records: their fields and checks (R295-R297), LAUNCH (R298), the host's POST (R324), acceptance
(R298), and the state of a band's threads when it starts (R66, R75, R297). -/

namespace Sys2Proof.Machine

/-! ## Records (R295, R296) -/

/-- The fields of a launch record given as its words, with the key of its STATUS word and the values of its tensor
division (R295). -/
def LaunchRec.parse (ws : List Word) (status : Nat) (divs : List Nat) : LaunchRec :=
  let w (i : Nat) : Word := ws.getD i 0
  { prio := wbits (w 0) 10 8
    idem := wbit (w 0) 11
    aff := wbit (w 0) 12
    nbar := wbits (w 0) 36 32
    slots := wbits (w 0) 42 40 + 1
    threads := wbits (w 0) 51 43 + 1
    entry := w 1
    args := w 2
    gx := wbits (w 3) 20 0 + 1
    gy := wbits (w 3) 41 21 + 1
    gz := wbits (w 3) 62 42 + 1
    spad := wbits (w 4) 17 0
    afflog := wbits (w 4) 23 18
    div := w 5
    affaddr := w 6
    status := status
    divs := divs }

/-- A reserved field of a record is not zero (R295). -/
def recReserved (ws : List Word) : Bool :=
  let w (i : Nat) : Word := ws.getD i 0
  wbits (w 0) 15 13 != 0 || wbits (w 0) 31 28 != 0 || wbits (w 0) 39 37 != 0 || wbits (w 0) 63 52 != 0
    || wbits (w 3) 63 63 != 0 || wbits (w 4) 63 24 != 0

/-- The reason for which a record is refused, the lowest that applies, or 0 (R296): plim is the context's priority limit,
and div says whether the division descriptor, if any, is readable and valid. Reason 9 is LAUNCH's own. -/
def recReason (plim : Nat) (ws : List Word) (div : Bool) : Nat :=
  let w (i : Nat) : Word := ws.getD i 0
  let r := LaunchRec.parse ws 0 []
  if wbits (w 0) 7 0 ≠ 1 ∨ recReserved ws then 1
  else if 64 * r.slots < r.threads ∨ r.spad % 64 ≠ 0 ∨ 196608 < r.slots * r.spad then 2
  else if 2 ^ 32 < r.gx * r.gy * r.gz then 3
  else if 16 < r.nbar then 4
  else if plim < r.prio then 5
  else if !div then 6
  else if !canonical r.entry ∨ r.entry.toNat % 4 ≠ 0 then 7
  else if r.aff ∧ (r.afflog < 16 ∨ 40 < r.afflog) then 8
  else 0

/-- A word of STATUS or of LAUNCH's result for a refusal (R298). -/
def refusal (reason : Nat) : Word := ofN (2 + reason * 2 ^ 8)

/-- The values of a division descriptor, EX, EY, EZ, TX, TY, TZ, if it is valid (R297). -/
def divValues (ws : List Word) : Option (List Nat) :=
  let half (i : Nat) : Nat := bits (ws.getD (i / 2) 0).toNat (32 * (i % 2) + 31) (32 * (i % 2))
  let vs := (List.range 6).map half
  if vs.all (fun v => decide (0 < v)) && ws.getD 3 0 == 0 then some vs else none

/-- The division of a record: none when its descriptor is misaligned, cannot be read word by word by rd, or is not
valid (R296 reason 6); the empty list when there is none. -/
def division (a : Word) (rd : Word → Option Word) : Option (List Nat) :=
  if a = 0 then some []
  else if a.toNat % 8 ≠ 0 then none
  else match (List.range 4).mapM fun i => rd (a + ofN (8 * i)) with
  | some ws => divValues ws
  | none => none

/-! ## Acceptance (R298) -/

/-- Accepted, unfinished launches of a context, with the prepared records of gangs that count towards them (R298,
R380). -/
def State.unfinished (s : State) (ctx : Nat) : Nat :=
  (s.launches.filter fun l => l.ctx == ctx).length + (s.prepared.filter fun p => p.ctx == ctx && p.decided.isNone && p.answer == 0).length

/-- The context holds as many accepted launches as it may (R298). -/
def State.atCapacity (s : State) (ctx : Nat) : Bool := decide (256 ≤ s.unfinished ctx)

/-- The number the next launch of a context gets: a 32-bit count (R298). DESIGN CHOICE: log 49. -/
def State.nextLaunch (s : State) (ctx : Nat) : Nat := lookupD s.launchCounts ctx 0 % 2 ^ 32

/-- The dispatcher accepts a record: it becomes the context's next launch, with a flight-recorder entry (R298, R348). -/
def State.accept (s : State) (ctx : Nat) (r : LaunchRec) (masthead : Bool) : State :=
  let n := s.nextLaunch ctx
  let s1 := { s with launchCounts := insertKey s.launchCounts ctx (lookupD s.launchCounts ctx 0 + 1) }
  let l : Launch := {
    ctx := ctx, num := n, rec_ := r, nextBand := 0, ended := 0, lastDie := none, lost := false, masthead := masthead
    redo := [] }
  ({ s1 with launches := s1.launches ++ [l] } : State).record 24 7 0 [ofN ctx, ofN n]

/-- LAUNCH_ACCEPT (R298): the dispatcher accepts the oldest record posted by LAUNCH whose context has room, and the
thread that posted it goes on with its result. -/
def execLaunchAccept (s : State) : Host.Outcome State Fault Refusal :=
  match s.posted.find? fun p => !s.atCapacity p.ctx with
  | none => .next s
  | some p =>
    let s1 := { s with posted := s.posted.erase p }.accept p.ctx p.rec_ false
    let v := ofN (s.nextLaunch p.ctx * 2 ^ 32)
    match p.poster with
    | none => .next s1
    | some t => .next (s1.modThread t fun th =>
        match th.wait with
        | some ⟨.launch _ d, _, _⟩ => (th.writeS d v s.beat).goOn
        | _ => th)

/-! ## LAUNCH (R298) -/

/-- The words of a record at a key. -/
def State.recordWords (s : State) (cipher : Keying) (key : Nat) : List Word :=
  (List.range 8).map fun i => ofN (s.readAs cipher (key + 8 * i) 8)

/-- A word of a division descriptor read for a thread. -/
def State.threadWord (s : State) (t : ThreadRef) (th : Thread) (a : Word) : Option Word :=
  match s.resolve t th a accEngineRead (.thread t) with
  | .ok key e => if s.eccAt key then none else some (ofN (s.readAs (s.cipherFor th e) key 8))
  | _ => none

/-- The addresses of the words of the division descriptor a record names, if it can be one (R297). -/
def divWords (a : Word) : List Word := if a = 0 ∨ a.toNat % 8 ≠ 0 then [] else (List.range 4).map fun i => a + ofN (8 * i)

/-- A word of a division descriptor whose page is not translated yet. -/
def State.divMiss? (s : State) (t : ThreadRef) (th : Thread) (a : Word) : Option Word :=
  (divWords a).find? fun x => s.resolve t th x accEngineRead (.thread t) == .miss

/-- The keys of a division descriptor's words, as a thread's LAUNCH reads them. -/
def State.divKeys (s : State) (t : ThreadRef) (th : Thread) (a : Word) : List Nat :=
  (divWords a).filterMap fun x => match s.resolve t th x accEngineRead (.thread t) with | .ok key _ => some key | _ => none

/-- A word written set-full, its queue served. -/
def State.fillWord (s : State) (cipher : Keying) (key : Nat) (w : Word) : State :=
  ((s.writeAs cipher key 8 w.toNat).setFull key true).changed key

/-- A record is posted: the STATUS word is emptied and the header filled (R298). -/
def State.fillHeader (s : State) (key : Nat) : State :=
  ((s.setFull (key + 56) false).setFull key true).changed key

/-- LAUNCH once its address has passed: the header's bit, the CTX field, the checks of R296, and the post. -/
def State.launchAt (s : State) (t : ThreadRef) (th : Thread) (d : Nat) (va : Word) (key : Nat) (cipher : Keying) : Res :=
  let answer (s : State) (v : Word) : Res := .done ((s.effectOut th).modThread t fun x => x.writeS d v s.beat)
  if s.full key then answer s (refusal 9)
  else
    let ws0 := s.recordWords cipher key
    let h := setBits (ws0.getD 0 0) 27 16 th.ctx
    let ws := h :: ws0.tail
    let a := ws.getD 5 0
    match s.divMiss? t th a with
    | some x => .miss x 0
    | none =>
      if (s.divKeys t th a).any s.held then .wait .older else
      let s := s.readErrors (s.divKeys t th a)
      let divs := division a (s.threadWord t th)
      let plim := match s.context? th.ctx with | some c => c.plim | none => 0
      let reason := recReason plim ws divs.isSome
      let s1 := s.writeAs cipher key 8 h.toNat
      if reason ≠ 0 then answer (s1.fillWord cipher (key + 56) (refusal reason)) (refusal reason)
      else
        let s2 := (s1.fillHeader key).effectOut th
        .block (.launch va d) (BitVec.allOnes 64)
          { s2 with posted := s2.posted ++ [⟨th.ctx, LaunchRec.parse ws (key + 56) (divs.getD []), some t⟩] }

/-- LAUNCH (R298, R386). The post is a release: the thread waits as XFENCE does (R211). -/
def execLaunch (p : Pred) (d a : Reg) (s : State) : Host.Outcome State Fault Refusal :=
  issue (Meta.scalar [a.toNat] [d.toNat]) p s fun s1 th =>
    let t := s1.cur
    let va := th.readS a.toNat
    if va.toNat % 64 ≠ 0 then .trap .align va 7
    else match s1.resolve t th va (accEngineFe true) (.thread t) with
    | .fault c info => .trap c va info
    | .miss => .miss va 3
    | .ok key e =>
      if windowOf va ≠ .global then .trap .access va 7
      else if !s1.allPerformed t s1.serial true ∨ (range 0 8).any (fun i => s1.held (key + 8 * i)) then .wait .older
      else match (range 0 7).find? fun i => s1.eccAt (key + 8 * i) with
      | some i => .trap .eccUncorrectable (va + ofN (8 * i)) (s1.eccTier (key + 8 * i))
      | none => (s1.correctAll key 56).launchAt t th d.toNat va key (s1.cipherFor th e)
    | _ => .trap .access va 7

/-! ## POST (R324) -/

/-- The entry with which the dispatcher, the gang unit and the host's post registers translate an address of a context:
any translation unit's. DEDUCED: log 23. -/
def State.anyEntry (s : State) (ctx va : Nat) : Option TlbEntry :=
  s.xlat.findSome? fun p => p.2.tlb.find? fun e => e.covers ctx va

/-- The key of a GLOBAL word in near or far memory that the context may access so, outside any thread. -/
def State.deviceKey? (s : State) (ctx : Nat) (a : Word) (p : Perm) : Option Nat :=
  if windowOf a = .global then
    match s.anyEntry ctx a.toNat with
    | some e => if e.grants p && decide (e.tier < 2) then some (e.keyOf a.toNat) else none
    | none => none
  else none

/-- A word of a division descriptor read for the dispatcher. -/
def State.deviceWord (s : State) (ctx : Nat) (a : Word) : Option Word :=
  match s.deviceKey? ctx a .rd with
  | some key => if s.eccAt key then none else some (s.readWord key)
  | none => none

/-- The translation unit through which those units ask for a page: I/O die 0's. DESIGN CHOICE: log 23. -/
def deviceUnit : Nat := 384

/-- OP 2 has answered that the page they asked for a context does not exist (R282). -/
def State.deviceFailed (s : State) (ctx : Nat) (a : Word) : Bool :=
  (s.unit deviceUnit).misses.any fun m => m.failed.isSome && m.ctx == ctx && m.vpn == wbits a 55 16 && m.waiters.contains (.device ctx)

/-- A page no translation unit holds, and of which they have had no answer. -/
def State.deviceMiss (s : State) (ctx : Nat) (a : Word) : Bool :=
  windowOf a == .global && (s.anyEntry ctx a.toNat).isNone && !s.deviceFailed ctx a

/-- Such a page is asked for (R279, R376). -/
def State.deviceAsk (s : State) (ctx : Nat) (a : Word) : State :=
  if s.deviceMiss ctx a then s.joinMiss deviceUnit ctx a 3 ⟨mastBase, 0⟩ (.device ctx) else s

/-- A failed miss has been met (R282). -/
def State.deviceMet (s : State) (ctx : Nat) : State :=
  if (s.unit deviceUnit).misses.any fun m => m.failed.isSome && m.waiters.contains (.device ctx) then
    s.modUnit deviceUnit fun u =>
      { u with misses := (u.misses.map (Miss.leave (.device ctx))).filter fun m => m.failed.isNone || !m.waiters.isEmpty }
  else s

/-- The words of a record, and of the division descriptor it names, that a page is missing for. -/
def State.recordMiss? (s : State) (ctx : Nat) (a : Word) : Option Word :=
  if s.deviceMiss ctx a then some a
  else match s.deviceKey? ctx a .wr with
  | none => none
  | some key => if s.full key then none else (divWords (s.readWord (key + 40))).find? (s.deviceMiss ctx)

/-- The first page a record misses is asked for. -/
def State.askRecord (s : State) (ctx : Nat) (a : Word) : State :=
  match s.recordMiss? ctx a with
  | some x => s.deviceAsk ctx x
  | none => s

/-- The keys of the words of a record that a unit reads, its division descriptor's among them. -/
def State.recordKeys (s : State) (ctx : Nat) (a : Word) : List Nat :=
  match s.deviceKey? ctx a .wr with
  | none => []
  | some key => (range 0 7).map (fun i => key + 8 * i) ++ (divWords (s.readWord (key + 40))).filterMap fun x => s.deviceKey? ctx x .rd

/-- An atomic holds a word of a record, of its STATUS or of its division descriptor (R196). -/
def State.recordHeld (s : State) (ctx : Nat) (a : Word) : Bool :=
  (s.recordKeys ctx a).any s.held || (s.deviceKey? ctx a .wr).any fun key => s.held (key + 56)

/-- A unit has read a record: its errors are met, and so is a failed miss. -/
def State.recordRead (s : State) (ctx : Nat) (a : Word) : State := (s.readErrors (s.recordKeys ctx a)).deviceMet ctx

/-- What a post of the record at a in a context finds (R324): 1 the context is not active or the device not ready, 2 the
address, 3 the header is full, 4 refused with a reason, 5 no room, or the key of the record and its fields; or it waits, for a page
(R279) or for an atomic (R196). -/
inductive PostCheck where
  | wait
  | bad (st : Nat)
  | refused (key reason : Nat)
  | ok (key : Nat) (r : LaunchRec)
  deriving DecidableEq, Repr

/-- The record's words with the CTX field supplied. -/
def State.postWords (s : State) (ctx key : Nat) : List Word :=
  let ws := s.recordWords .plain key
  setBits (ws.getD 0 0) 27 16 ctx :: ws.tail

/-- The checks of POST (R324), also those of a gang's member (R380). -/
def State.postCheck (s : State) (ctx : Nat) (a : Word) : PostCheck :=
  match s.context? ctx with
  | none => .bad 1
  | some c =>
    if s.bootStage ≠ 4 then .bad 1
    else if a.toNat % 64 ≠ 0 then .bad 2
    else if (s.recordMiss? ctx a).isSome ∨ s.recordHeld ctx a then .wait
    else match s.deviceKey? ctx a .wr with
    | none => .bad 2
    | some key =>
      if (range 0 7).any (fun i => s.eccAt (key + 8 * i)) then .bad 2
      else if s.full key then .bad 3
      else
        let ws := s.postWords ctx key
        let divs := division (ws.getD 5 0) (s.deviceWord ctx)
        let reason := recReason c.plim ws divs.isSome
        if reason ≠ 0 then .refused key reason
        else if s.atCapacity ctx then .bad 5
        else .ok key (LaunchRec.parse ws (key + 56) (divs.getD []))

/-- The CTX field of a record written. -/
def State.setCtxField (s : State) (ctx key : Nat) : State := s.writeWord key ((s.postWords ctx key).getD 0 0)

/-- POST (R324, R325, R356): the host writes the address of a launch record to the POST register of a context. A write of
another size than 8 bytes is discarded; one that waits for a page or an atomic is under way until it is answered. -/
def execPost (ctx size : Nat) (a : Word) (s : State) : Host.Outcome State Fault Refusal :=
  let stat (s : State) (w : Nat) : Host.Outcome State Fault Refusal := .next { s with postStat := insertKey s.postStat ctx (ofN w) }
  if size ≠ 8 ∨ !s.powered then .next s
  else
  let s1 := s.recordRead ctx a
  match s.postCheck ctx a with
  | .wait => .next (s.askRecord ctx a)
  | .bad st => stat s1 st
  | .refused key reason =>
    stat ((s1.setCtxField ctx key).fillWord .plain (key + 56) (refusal reason)) (4 + reason * 2 ^ 8)
  | .ok key r =>
    stat (((s1.setCtxField ctx key).fillHeader key).accept ctx r false) (s.nextLaunch ctx * 2 ^ 32)

/-! ## The threads of a starting band (R66, R75, R297) -/

/-- The band-start value of rng (R75). -/
def rngSeed (launch band tib : Nat) : Word :=
  let x := 0x9E3779B97F4A7C15#64 ^^^ (ofN launch <<< 32) ^^^ (ofN band <<< 9) ^^^ ofN tib
  if x = 0 then 1 else x

/-- The reset value of scope.d for a context: its rectangle (R70, R329). -/
def State.rectOf (s : State) (ctx : Nat) : Word := match s.context? ctx with | some c => c.rect | none => 0

/-- A thread at the start of its band (R66): base and k place its scratchpad allocation, the k-th of its core's grant;
q is its core in the launch. A masthead thread's scope has SYS set (R375). -/
def State.startThread (s : State) (l : Launch) (b tib base k q : Nat) : Thread :=
  let tile := tileOf l.rec_.divs q
  let org := tile.1
  let rect := s.rectOf l.ctx
  { Thread.blank with
    pc := l.rec_.entry
    s := (Thread.blank.s.setIfInBounds 2 (0xFFFFFFFFFFFC0000#64 + ofN (base + (k + 1) * l.rec_.spad))).setIfInBounds 3 l.rec_.args
    launch := l.num
    band := b
    tib := tib
    ctx := l.ctx
    tileOrg := org
    tileExt := tile.2
    scopeD := if l.masthead then rect ||| ofN (2 ^ 32) else rect
    rng := rngSeed l.num b tib
    notBefore := s.beat + 1
    bornAt := some s.beat }

/-- A thread of a band that starts again after a discard: its snapshot, the rest as at an arrival, and inside its region
(R309). DEDUCED: log 48. -/
def Thread.restartAt (th : Thread) (r : Region) : Thread :=
  { th with
    pc := r.pc
    s := (r.s.zipIdx.foldl (fun v p => v.setIfInBounds (p.2 + 1) p.1) Thread.blank.s)
    f := (r.f.zipIdx.foldl (fun v p => v.setIfInBounds p.2 p.1) Thread.blank.f)
    region := some r }

end Sys2Proof.Machine
end

