-- ==== Sys2Proof/Machine/Bands.lean ====
section
/-! DEFINITION. Bands: the order in which pending bands are served (R302), placing (R299, R300), starting (R66, R301),
and the ends of threads, bands and launches (R315-R317). -/

namespace Sys2Proof.Machine

/-! ## What a core has to offer (R187, R216, R299, R300) -/

/-- The band holds its slots: placed, running, or still being saved. -/
def Band.present (b : Band) : Bool :=
  match b.state with
  | .placed | .running | .saving => true
  | _ => false

/-- A SQKILL names the channel of a core and has not finished (R187). -/
def State.killNames (s : State) (n : Nat) : Bool :=
  s.allThreads.any fun p => match p.2.wait with | some ⟨.sqkill m _ _, _, _⟩ => m == n | _ => false

/-- A migration packet is bound for a core. -/
def State.packetFor (s : State) (n : Nat) : Bool :=
  !(s.core n).arrivals.isEmpty || s.packets.any (fun k => k.dest == n) || s.dies.any fun d => d.2.ring.any fun k => k.dest == n

/-- Nothing on a core belongs to a context, so that its slots may be assigned to another one: no thread but firmware's,
no grant, no arrival, no engine command, no mailbox message still to be written, no SQKILL that names it (R187, R216). -/
def State.coreIdle (s : State) (n : Nat) : Bool :=
  let c := s.core n
  (c.slots.toList.all fun sl => sl.grant.isNone && (match sl.thread with | none => true | some th => th.mode == .control))
    && c.deliveries.isEmpty && c.copies.isEmpty && c.mxQueue.isEmpty && c.drain.isNone && (s.granted n).isEmpty
    && !s.packetFor n && !s.killNames n

/-- The slots of a core are a context's, or may become so, and its die has been released and not fenced (R351, R356). -/
def State.coreUsable (s : State) (n ctx : Nat) : Bool :=
  ((s.core n).slots.toList.all (fun sl => sl.ctx == some ctx) || s.coreIdle n) && (s.die (dieOf n)).released
    && !(s.die (dieOf n)).fenced

/-- The free slots of a core, lowest first (R299): not one that is reserved for a handler (R232). DESIGN CHOICE: log 49. -/
def State.freeSlots (s : State) (n : Nat) : List Nat :=
  (List.range 8).filter fun i =>
    (s.slot ⟨n, i⟩).thread.isNone && (s.slot ⟨n, i⟩).grant.isNone && (s.core n).reservation != some i

/-- Two ranges of a scratchpad overlap. -/
def overlap (a n b m : Nat) : Bool := decide (a < b + m) && decide (b < a + n)

/-- The lowest 64-byte-aligned range of a core's scratchpad that no band holds (R300). -/
def State.freeBase? (s : State) (n size : Nat) : Option Nat :=
  let gs := (s.core n).grants.filter fun g => !g.saved
  let starts := 0 :: gs.map fun g => roundUp (g.base + g.size) 64
  (starts.filter fun b => decide (b + size ≤ 262144) && !(gs.any fun g => overlap b size g.base g.size)).min?

/-! ## Where a band fits (R299, R300) -/

/-- Where a band fits: its cluster, its cores, the slots granted on each, and the bases of its scratchpad grants. -/
structure Fit where
  cluster : Nat
  cores : List Nat
  slots : List (List Nat)
  bases : List Nat
  deriving DecidableEq, Repr

/-- C: cores of a band (R299). -/
def LaunchRec.cores (r : LaunchRec) : Nat := cdiv r.threads r.slots
/-- Bands of a launch (R295). -/
def LaunchRec.bands (r : LaunchRec) : Nat := r.gx * r.gy * r.gz
/-- Bytes of a band's grant on each core (R300). -/
def LaunchRec.grant (r : LaunchRec) : Nat := r.slots * r.spad

/-- A core qualifies for a band (R299). -/
def State.qualifies (s : State) (ctx : Nat) (r : LaunchRec) (n : Nat) : Bool :=
  s.coreUsable n ctx && decide (r.slots ≤ (s.freeSlots n).length) && (s.freeBase? n r.grant).isSome

/-- The fit of a band on the first of some cores that qualify. -/
def State.fitCores (s : State) (ctx : Nat) (r : LaunchRec) (cl : Nat) (ns : List Nat) : Option Fit :=
  let cs := (ns.filter (s.qualifies ctx r)).take r.cores
  if cs.length = r.cores then
    some ⟨cl, cs, cs.map fun n => (s.freeSlots n).take r.slots, cs.map fun n => (s.freeBase? n r.grant).getD 0⟩
  else none

/-- The fit of a band on a cluster: its barriers too (R258, R300). -/
def State.fitCluster (s : State) (ctx : Nat) (r : LaunchRec) (cl : Nat) : Option Fit :=
  match s.context? ctx with
  | none => none
  | some c =>
    if 16 < (s.cluster cl).barriers.length + r.nbar then none
    else s.fitCores ctx r cl ((range (cl * 64) 64).filter fun n => (c.logical? n).isSome)

/-- The fit of a band on the lowest cluster of a die that can hold it (R299). -/
def State.fitDie (s : State) (ctx : Nat) (r : LaunchRec) (die : Nat) : Option Fit :=
  (range (die * 16) 16).findSome? fun cl => s.fitCluster ctx r cl

/-- The dies that hold cores of a context, ascending (R299). -/
def Context.dies (c : Context) : List Nat := (List.range 24).filter fun d => c.coreTab.any fun p => dieOf p.2 == d

/-- The die a band with affinity must go to (R299). -/
def State.affinity? (s : State) (l : Launch) (b : Nat) : Option Nat :=
  if l.rec_.aff then
    match s.deviceKey? l.ctx (l.rec_.affaddr + ofN (b * 2 ^ l.rec_.afflog)) .rd with
    | some key => if tierOf key = 0 then some (homeDie key) else none
    | none => none
  else none

/-- The dies on which band b is tried, in order (R299). -/
def State.dieOrder (s : State) (l : Launch) (b : Nat) : List Nat :=
  match s.affinity? l b with
  | some d => [d]
  | none =>
    let ds := match s.context? l.ctx with | some c => c.dies | none => []
    match l.lastDie with
    | none => ds
    | some k => ds.filter (fun d => decide (k < d)) ++ ds.filter fun d => decide (d ≤ k)

/-- The masthead cores a context is granted, ascending (R365, R377). -/
def State.mastheadCores (s : State) (ctx : Nat) : List Nat :=
  match s.context? ctx with
  | none => []
  | some c => ((List.range 64).filter fun k => wbit (s.fwinWord c 16) k).map (mastBase + ·)

/-- Where band b of a launch fits now (R299, R300, R377). -/
def State.fit (s : State) (l : Launch) (b : Nat) : Option Fit :=
  if l.masthead then s.fitCores l.ctx l.rec_ 384 (s.mastheadCores l.ctx)
  else (s.dieOrder l b).findSome? fun d => s.fitDie l.ctx l.rec_ d

/-! ## The order of pending bands (R302, R305) -/

/-- The next band of a launch to place: the lowest one made pending again by a discard, or the next in number (R299,
R309). -/
def Launch.candidate? (l : Launch) : Option (Nat × List Region) :=
  if l.lost then none
  else match l.redo with
  | (b, rs) :: _ => some (b, rs)
  | [] => if l.nextBand < l.rec_.bands then some (l.nextBand, []) else none

/-- Running or saved priority of a band. -/
def State.bandPrio (s : State) (b : BandRef) : Nat := match s.launch? b.ctx b.launch with | some l => l.rec_.prio | none => 0

/-- The place of a band in the order of R302: its launch's position in acceptance order. -/
def State.launchPos (s : State) (b : BandRef) : Nat := s.launches.findIdx fun l => l.ctx == b.ctx && l.num == b.launch

/-! ## The save area (R312, R314) -/

/-- The parts of a context's save area in use, as offset and size: records of bands, and what was saved of an array. -/
def State.savedParts (s : State) (c : Context) : List (Nat × Nat) :=
  (s.bands.filterMap fun b => if b.ref.ctx = c.num then b.saved.map fun v => (v.key - c.save, v.bytes) else none)
    ++ (s.savedArray.filter fun x => x.1 == c.num).map fun x => (x.2.2.1 - c.save, x.2.2.2)

/-- The lowest free part of a save area of a size, at a 64-byte-aligned address. DEDUCED: log 22. -/
def freePart? (c : Context) (used : List (Nat × Nat)) (n : Nat) : Option Nat :=
  let starts := (0 :: used.map fun u => u.1 + u.2).map fun o => roundUp (c.save + o) 64 - c.save
  (starts.filter fun o => decide (o + n ≤ c.saveSz) && !(used.any fun u => overlap o n u.1 u.2)).min?

/-! ## Ownership of the array (R300, R314) -/

/-- A saved slot: its number, format tag and bytes of image, then the image. DESIGN CHOICE: log 22. -/
def Weight.savedWords (k : Nat) (w : Weight) : List Word :=
  ofN (k + w.tag * 2 ^ 8 + w.image.length * 2 ^ 32) :: wordsOfBytes w.image

/-- A saved plane: whether its cells hold a tile, tag and NOSPEC with the bytes of its image, the step table and the term
counts, then the image. -/
def Plane.savedWords (p : Plane) : List Word :=
  let tag := match p.tag with | some t => 1 + t.1 * 2 ^ 8 + b2n t.2 * 2 ^ 16 | none => 0
  [ofN (tag + b2n p.nospec * 2 ^ 17 + p.image.length * 2 ^ 32)] ++ (List.range 16).map (fun i => ofN (p.step.getD i 0))
    ++ (List.range 16).map (fun i => ofN (p.terms.getD i 0)) ++ wordsOfBytes p.image

/-- What is saved of a cluster's array: how many slots are valid, each of them, and the planes (R314). -/
def Cluster.savedWords (c : Cluster) : List Word :=
  let ws := c.weights.filter fun w => w.2.state == .valid
  ofN ws.length :: (ws.flatMap fun w => w.2.savedWords w.1) ++ c.planes.toList.flatMap Plane.savedWords

/-- n bytes from a key on. -/
def State.bytesAt (s : State) (key n : Nat) : List Byte := (List.range n).map fun i => s.readByte (key + i)

/-- The largest image of a B tile (R223). -/
def maxImage : Nat := 131072

/-- The most cycles a group of a plane of this format can step (R3, R225). -/
def maxStep (f : Nat) : Nat := match f with | 6 => 14 | 4 | 5 => 3 | 1 => 1 | _ => 2

/-- The saved slots read back, and the key after them. -/
def State.readSlots (s : State) : Nat → Nat → List (Nat × Weight) × Nat
  | 0, key => ([], key)
  | n + 1, key =>
    let h := s.readWord key
    let len := min (wbits h 63 32) maxImage
    let r := s.readSlots n (key + 8 + roundUp len 8)
    ((wbits h 7 0 % 32, ⟨.valid, wbits h 15 8, s.bytesAt (key + 8) len⟩) :: r.1, r.2)

/-- The saved planes read back. -/
def State.readPlanes (s : State) : Nat → Nat → List Plane
  | 0, _ => []
  | n + 1, key =>
    let h := s.readWord key
    let len := min (wbits h 63 32) maxImage
    let p : Plane := {
      tag := if wbit h 0 then some (wbits h 15 8, wbit h 16) else none
      nospec := wbit h 17
      step := (List.range 16).map fun i =>
        max 1 (min (if wbit h 0 then maxStep (wbits h 15 8) else 1) (s.readWord (key + 8 + 8 * i)).toNat)
      terms := (List.range 16).map fun i => (s.readWord (key + 136 + 8 * i)).toNat
      image := s.bytesAt (key + 264) len }
    p :: s.readPlanes n (key + 264 + roundUp len 8)

/-- The array of a cluster after a reset, what was saved of it at a key for its new owner put back (R224, R300, R314). -/
def State.handOver (s : State) (c : Cluster) (ctx : Nat) (kept : Option Nat) : Cluster :=
  let slots := match kept with
    | some k => s.readSlots (min (s.readWord k).toNat 32) (k + 8)
    | none => ([], 0)
  let planes := match kept with | some _ => s.readPlanes 4 slots.2 | none => []
  { c with
    owner := some ctx
    weights := slots.1.foldl (fun ws w => insertKey ws w.1 w.2) []
    planes := Vector.ofFn fun i => (planes[i.val]?).getD Plane.blank }

/-- What is saved of a context's array on a cluster (R314). -/
def State.savedOf? (s : State) (ctx cl : Nat) : Option (Nat × Nat) :=
  (s.savedArray.find? fun x => x.1 == ctx && x.2.1 == cl).map fun x => x.2.2

/-- Where the array of a cluster is saved for its owner: none needs saving without an active owner, and no part may be free. -/
def State.arrayPart (s : State) (cl : Nat) : Option (Option (Context × Nat)) :=
  match (s.cluster cl).owner.bind s.context? with
  | none => some none
  | some c => (freePart? c (s.savedParts c) (8 * (s.cluster cl).savedWords.length)).map fun o => some (c, o)

/-- The array of a cluster may pass to a context, or is its own (R300). While the save area of the owner has no room for it, it
may not. DEDUCED: log 22. -/
def State.mayOwn (s : State) (cl ctx : Nat) : Bool :=
  match (s.cluster cl).owner with
  | none => true
  | some o => o == ctx || (!(s.bands.any fun b => b.cluster == cl && b.ref.ctx == o && b.present) && (s.arrayPart cl).isSome)

/-- Words written from a key on, ascending. -/
def State.putWords (s : State) (key : Nat) : List Word → State
  | [] => s
  | w :: ws => (s.writeWord key w).putWords (key + 8) ws

/-- The valid slots and planes of the present owner are saved into its save area (R314). -/
def State.saveArray (s : State) (cl : Nat) : State :=
  match s.arrayPart cl with
  | some (some (c, o)) =>
    let ws := (s.cluster cl).savedWords
    { (s.putWords (c.save + o) ws).sealFor c.num (c.save + o) (8 * ws.length) with savedArray := s.savedArray ++ [(c.num, cl, c.save + o, 8 * ws.length)] }
  | _ => s

/-- Ownership passes to a context, if it may (R300, R314). -/
def State.passArray (s : State) (cl ctx : Nat) : State :=
  if (s.cluster cl).owner = some ctx ∨ !s.mayOwn cl ctx then s
  else
    let s1 := s.saveArray cl
    { s1.modCluster cl fun c => s1.handOver c ctx ((s1.savedOf? ctx cl).map Prod.fst) with
      savedArray := s1.savedArray.filter fun x => !(x.1 == ctx && x.2.1 == cl) }

/-- One saved band could be put back now: its slots are vacant, its grants free, its cores usable, its barriers at hand, and, when
its context has lost the array, that too (R305, R314). -/
def State.couldReturn (s : State) (b : Band) (v : SavedBand) : Bool :=
  let refs := v.threads.map (fun p => p.2.1) ++ v.handlers.map Prod.fst ++ v.granted
  (refs.all fun t => (s.slot t).thread.isNone && s.coreUsable t.core b.ref.ctx)
    && (v.granted.all fun t => (s.slot t).grant.isNone)
    && (s.cores.all fun p => p.2.grants.all fun g => g.band != b.ref ||
        !(p.2.grants.any fun h => !h.saved && overlap g.base g.size h.base h.size))
    && (v.cores.all fun p => !(s.bands.any fun x => x.present && x.cores.contains p.1))
    && (v.pubs.all fun p => (s.core p.1).pub.isNone)
    && (v.records.all fun p => decide ((v.records.filter fun q => q.1 == p.1).length
        ≤ ((List.range 8).filter fun i => !s.full (recordKey p.1 (32 * i))).length))
    && decide ((s.cluster b.cluster).barriers.length + v.bars.length ≤ 16)
    && ((s.savedOf? b.ref.ctx b.cluster).isNone || s.mayOwn b.cluster b.ref.ctx)

/-- The bands saved together with a band (R304). -/
def State.groupOf (s : State) (b : Band) : List Band := s.bands.filter fun x => x.ref == b.ref || (b.group != 0 && x.group == b.group)

/-- A saved band can resume now, with its closed set (R305). -/
def State.resumable (s : State) (b : Band) : Bool :=
  (s.groupOf b).all fun x => match x.state, x.saved with
    | .saved, some v => s.couldReturn x v
    | _, _ => false

/-- a comes before b among saved bands of one priority (R302). -/
def State.bandBefore (s : State) (a b : BandRef) : Bool :=
  decide (s.launchPos a < s.launchPos b) || (s.launchPos a == s.launchPos b && decide (a.band < b.band))

/-- The first band of a list in the order of R302. -/
def State.firstBand (s : State) (bs : List Band) : Option Band :=
  bs.foldl (fun best b => match best with
    | none => some b
    | some x => if s.bandBefore b.ref x.ref then some b else some x) none

/-- The saved band of a launch that resumes next: the lowest in number (R305). -/
def State.nextSaved (s : State) (l : Launch) : Option Band :=
  s.firstBand (s.bands.filter fun b => b.state == .saved && b.ref.ctx == l.ctx && b.ref.launch == l.num)

/-- The unstarted band of a launch that is placed next: none while a saved band of lower number has not resumed (R302). -/
def State.nextUnstarted (s : State) (l : Launch) : Option (Nat × List Region) :=
  l.candidate?.filter fun c => match s.nextSaved l with | some b => decide (c.1 < b.ref.band) | none => true

/-- The dispatcher's next move. -/
inductive Placement where
  | resume (b : BandRef)
  | place (l : Launch) (b : Nat) (rs : List Region) (f : Fit)
  deriving DecidableEq, Repr

/-- The move at one priority (R302, R305): the next saved band of a launch, if it can resume, before the next unstarted one of a
launch, if it fits; launches in order of acceptance. -/
def State.moveAt (s : State) (p : Nat) : Option Placement :=
  let ls := s.launches.filter fun l => l.rec_.prio == p
  match ls.findSome? fun l => (s.nextSaved l).filter s.resumable with
  | some b => some (.resume b.ref)
  | none => ls.findSome? fun l => (s.nextUnstarted l).bind fun c => (s.fit l c.1).map fun f => .place l c.1 c.2 f

/-! ## Placing (R299, R300) -/

/-- A core whose slots pass to another context: its registers and its array context are at their reset values. -/
def Core.renew (c : Core) : Core :=
  { Core.blank with
    slots := c.slots, icache := c.icache, utlb := c.utlb, grants := c.grants, recSeq := c.recSeq, recNew := c.recNew
    recFreed := c.recFreed, rotHist := c.rotHist, rotEnded := c.rotEnded, left := c.left }

/-- The slots of a core are assigned to a context (R187, R216). -/
def Core.assign (c : Core) (ctx : Nat) : Core :=
  let c1 := if c.slots.toList.all fun sl => sl.ctx == some ctx then c else c.renew
  { c1 with slots := c1.slots.map fun sl => { sl with ctx := some ctx } }

/-- Every byte of a range zero, every word full (R189). -/
def State.zeroRange (s : State) (key n : Nat) : State :=
  { s with
    mem := s.mem.filter fun c => !(decide (key ≤ c.1) && decide (c.1 < key + n))
    feFlips := s.feFlips.filter fun k => !(decide (key ≤ k) && decide (k < key + n)) }

/-- The grants of a band on one core (R189, R299, R300). -/
def State.grantCore (s : State) (b : BandRef) (n base size : Nat) (slots : List Nat) : State :=
  let s1 := s.modCore n fun c => c.assign b.ctx
  let s2 := slots.foldl (fun a i => a.modSlot ⟨n, i⟩ fun sl => { sl with grant := some b }) s1
  if size = 0 then s2
  else (s2.zeroRange (scratchKey n base) size).modCore n fun c => { c with grants := c.grants ++ [⟨b, base, size, false⟩] }

/-- A barrier as granted (R258). -/
def Barrier.granted (b : BandRef) (n threads : Nat) : Barrier := ⟨b, n, threads, none, 0, 0, [], [], [], false⟩

/-- The launch once its band b has been placed on a die. -/
def Launch.placed (l : Launch) (b die : Nat) : Launch :=
  { l with
    nextBand := if b = l.nextBand then b + 1 else l.nextBand
    redo := l.redo.filter fun r => r.1 != b
    lastDie := some die }

/-- A band is placed where it fits (R299, R300). -/
def State.placeBand (s : State) (l : Launch) (b : Nat) (rs : List Region) (f : Fit) : State :=
  let ref : BandRef := ⟨l.ctx, l.num, b⟩
  let r := l.rec_
  let s1 := ((f.cores.zip f.slots).zip f.bases).foldl (fun a x => a.grantCore ref x.1.1 x.2 r.grant x.1.2) s
  let s2 := if l.masthead then s1 else
    (s1.modCluster f.cluster fun c => { c with
      barriers := c.barriers ++ (List.range r.nbar).map fun n => Barrier.granted ref n r.threads }).passArray f.cluster l.ctx
  let refs := (List.range r.threads).map fun t => (⟨f.cores.getD (t / r.slots) 0, (f.slots.getD (t / r.slots) []).getD (t % r.slots) 0⟩ : ThreadRef)
  let band : Band := {
    ref := ref, state := .placed, cluster := f.cluster, cores := f.cores, slots := refs, out := false, restart := rs
    haltedIn := [], discard := false, saved := none, group := 0 }
  { s2.modLaunch l.ctx l.num fun x => x.placed b (dieOf (f.cores.headD 0)) with bands := s2.bands ++ [band] }

/-! ## Starting (R301) -/

/-- A core passes from holding no band to holding one: its term counters, histogram and tkt.last are cleared (R301). -/
def Core.firstBand (c : Core) : Core :=
  { c with tc := Vector.replicate 64 0, rotHist := Vector.replicate 9 0, tktLast := 0 }

/-- Another band than b holds a core. -/
def State.coreHeld (s : State) (b : BandRef) (n : Nat) : Bool :=
  s.bands.any fun x => x.ref != b && (x.state == .running || x.state == .saving) && x.cores.contains n

/-- The offset of a band's grant on a core. -/
def State.grantBase (s : State) (b : BandRef) (n : Nat) : Nat :=
  match (s.core n).grants.find? fun g => g.band == b with | some g => g.base | none => 0

/-- Thread t of a starting band. -/
def State.startOne (s : State) (l : Launch) (b : Band) (tib : Nat) (ref : ThreadRef) : State :=
  let th := s.startThread l b.ref.band tib (s.grantBase b.ref ref.core) (tib % l.rec_.slots)
    (b.ref.band * l.rec_.cores + tib / l.rec_.slots)
  s.setThread ref (match b.restart[tib]? with | some r => th.restartAt r | none => th)

/-- BAND_START (R301, R66, R297): every slot of a placed band is granted; its threads begin together, issuing from the
next rotation. Its one trace record carries the band's first slot (DESIGN CHOICE, log 69). DESIGN CHOICE: log 49. -/
def execBandStart (b : BandRef) (s : State) : Host.Outcome State Fault Refusal :=
  match s.band? b, s.launch? b.ctx b.launch with
  | some x, some l =>
    if x.state ≠ .placed then .next s
    else
      let s1 := x.cores.foldl (fun a n => if a.coreHeld b n then a else a.modCore n Core.firstBand) s
      let s2 := x.slots.zipIdx.foldl (fun a p => a.startOne l x p.2 p.1) s1
      let t := x.slots.headD ⟨0, 0⟩
      .next ((s2.modBand b fun y => { y with state := .running, restart := [], out := false }).traceEvent 6 b.ctx t.core t.slot
        l.rec_.entry (ofN b.band))
  | _, _ => .next s

/-! ## Ends (R315-R317) -/

/-- The band of a packet's thread. -/
def Packet.bandRef (k : Packet) : BandRef := ⟨k.ctx, k.launch, k.band⟩

/-- A packet of a band's thread is on its way or in a queue (R315). -/
def State.packetOf (s : State) (b : BandRef) : Bool :=
  let mine (k : Packet) : Bool := k.bandRef == b
  s.packets.any mine || s.cores.any (fun p => p.2.arrivals.any mine) || s.dies.any fun p => p.2.ring.any mine

/-- An engine command of a core issued by a band (R315). -/
def Core.works (c : Core) (b : BandRef) : Bool :=
  c.copies.any (fun x => x.band == b) || c.mxQueue.any (fun x => x.band == b)
    || (match c.drain with | some d => d.band == b | none => false)

/-- A granted array command issued by a band. -/
def State.arrayWorks (s : State) (b : BandRef) : Bool :=
  s.clusters.any fun p => (p.2.finishing ++ p.2.stepping.toList).any fun x => x.cmd.band == b

/-- The slots that hold a thread of a band. -/
def State.threadsOf (s : State) (b : BandRef) : List (ThreadRef × Thread) := s.allThreads.filter fun p => p.2.bandRef == b

/-- A band has ended (R315): every thread of it, every command they issued, and every record of theirs has reached the
fault queue. -/
def State.bandDone (s : State) (b : Band) : Bool :=
  let refs := b.slots ++ (s.threadsOf b.ref).map Prod.fst
  ((s.threadsOf b.ref).all fun p => s.quiet p.1 p.2)
    && !s.packetOf b.ref && !(s.cores.any fun p => p.2.works b.ref) && !s.arrayWorks b.ref
    && (refs.all fun t => (s.recordsOf t).isEmpty && !(s.flights.any fun f => f.of t))
    && !(s.faultWait.any fun r => r.ctx == b.ref.ctx && refs.contains ⟨r.core, r.slot⟩)

/-- The halted thread of a band that leaves a slot with the band's grants, unless a debug session holds it (R316). -/
def Slot.leaver (b : BandRef) (sl : Slot) : Option Thread := sl.thread.filter fun th => th.bandRef == b && th.halted && !th.stopped

/-- A slot without what a band had there: its grant and its halted thread (R316). -/
def Slot.release (b : BandRef) (sl : Slot) : Slot :=
  { sl with
    grant := if sl.grant = some b then none else sl.grant
    thread := if (sl.leaver b).isSome then none else sl.thread
    used := sl.used || (match sl.leaver b with | some th => th.issued | none => false) }

/-- A core without what a band had there (R316); it keeps what outlives the threads that leave it (R180, R346). -/
def Core.release (b : BandRef) (c : Core) : Core :=
  { (c.slots.toList.zipIdx.filterMap fun p => (p.1.leaver b).map fun th => (p.2, th)).foldl (fun c p => c.outlive p.1 p.2) c with
    slots := c.slots.map (Slot.release b)
    grants := c.grants.filter fun g => g.band != b
    reservation := match c.reservation with
      | some k => if ((c.slots[k]?).bind Slot.grant) = some b then none else some k
      | none => none }

/-- The reservation that a saved band has left on a core: its slot is no band's now (R232, R313). -/
def Core.unreserve (n : Nat) (granted : List ThreadRef) (c : Core) : Core :=
  { c with reservation := c.reservation.filter fun k =>
      !(granted.contains ⟨n, k⟩ && ((c.slots[k]?).bind Slot.grant).isNone) }

/-- The slots that were granted to a saved band. -/
def Band.savedGrants (b : Option Band) : List ThreadRef := match b.bind Band.saved with | some v => v.granted | none => []

/-- A scratchpad word lies in a grant of the band. -/
def State.grantOfBand (s : State) (b : BandRef) (key : Nat) : Bool :=
  (s.core (keyCore key)).grants.any fun g => g.band == b && g.holds b.ctx (key % 2 ^ 18)

/-- The grants of a band are released in one step (R316). -/
def State.releaseBand (s : State) (b : BandRef) : State :=
  let granted := Band.savedGrants (s.band? b)
  { s with
    cores := s.cores.map fun p => (p.1, (p.2.release b).unreserve p.1 granted)
    clusters := s.clusters.map fun p => (p.1, { p.2 with barriers := p.2.barriers.filter fun x => x.band != b })
    savedWaits := s.savedWaits.filter fun w => !(s.grantOfBand b w.2.1)
    bands := s.bands.filter fun x => x.ref != b }

/-- The detached requests of a saved band that will not resume are withdrawn (R309, R317). -/
def State.withdrawDetached (s : State) (b : Band) : State :=
  match b.saved with
  | none => s
  | some v => { s with flights := s.flights.map fun f =>
      if v.detached.any fun d => d.id == f.id then { f with orphan := true, withdrawal := true } else f }

/-- The PC of a band-level trace record: its first slot's thread's, else its launch's entry. DESIGN CHOICE: log 69. -/
def State.bandPc (s : State) (b : BandRef) (t : ThreadRef) : Word :=
  match s.thread? t with
  | some th => th.ipc
  | none => match s.launch? b.ctx b.launch with | some l => l.rec_.entry | none => 0

/-- BAND_END (R315, R316). -/
def execBandEnd (b : BandRef) (s : State) : Host.Outcome State Fault Refusal :=
  match s.band? b with
  | none => .next s
  | some x =>
    if x.state = .running ∧ s.bandDone x then
      let t := x.slots.headD ⟨0, 0⟩
      let s1 := s.traceEvent 7 b.ctx t.core t.slot (s.bandPc b t) (ofN b.band)
      .next ((s1.releaseBand b).modLaunch b.ctx b.launch fun l => { l with ended := l.ended + 1 })
    else .next s

/-- The bands of a launch. -/
def State.bandsOf (s : State) (l : LaunchRef) : List Band := s.bands.filter fun b => b.ref.ctx == l.ctx && b.ref.launch == l.launch

/-- A launch that was lost: the threads it still has stop (R317). -/
def State.stopLaunch (s : State) (l : LaunchRef) : State :=
  (s.bandsOf l).foldl (fun a b => (a.threadsOf b.ref).foldl (fun a p => if p.2.halted then a else a.haltThread p.1) a) s

/-- Nothing of a launch's bands goes on. -/
def State.launchQuiet (s : State) (l : LaunchRef) : Bool :=
  (s.bandsOf l).all fun b => b.state == .saved || b.state == .lost || s.bandDone b

/-- A launch that is over: CODE 1 when every band has ended, 3 when a band was lost (R298, R317). -/
def Launch.code? (l : Launch) : Option Nat :=
  if l.lost then some 3 else if l.rec_.bands ≤ l.ended then some 1 else none

/-- LAUNCH_END (R317, R298): STATUS is filled, and the launch runs nothing further. What a lost launch still runs stops
first. -/
def execLaunchEnd (l : LaunchRef) (s : State) : Host.Outcome State Fault Refusal :=
  match s.launch? l.ctx l.launch with
  | none => .next s
  | some x =>
    match x.code? with
    | none => .next s
    | some code =>
      let s0 := s.stopLaunch l
      if !s0.launchQuiet l ∨ s0.held x.rec_.status then .next s0
      else
        let s1 := (s0.bandsOf l).foldl (fun a b => (a.withdrawDetached b).releaseBand b.ref) s0
        let s2 := s1.fillWord .plain x.rec_.status (ofN (code + l.launch * 2 ^ 32))
        .next (({ s2 with launches := s2.launches.filter fun y => !(y.ctx == l.ctx && y.num == l.launch) } : State).record
          24 7 1 [ofN l.ctx, ofN l.launch])

end Sys2Proof.Machine
end

