-- ==== Sys2Proof/Machine/Image.lean ====
section
/-! DEFINITION. The thread save image (R80, R81): 768 words that stand for a thread, and a thread with an image written
back over it. -/

namespace Sys2Proof.Machine

/-- Word 0 of an image (R81). -/
def imageVersion : Word := 0x000148545353
/-- Words of an image: 6 KiB. -/
def imageWords : Nat := 768

/-- Two 32-bit halves as a word. -/
def pair32 (lo hi : Nat) : Word := ofN (lo % 2 ^ 32 + hi % 2 ^ 32 * 2 ^ 32)
/-- Half i of a list of words seen as 32-bit halves. -/
def half32 (w : Nat → Word) (i : Nat) : Nat := bits (w (i / 2)).toNat (32 * (i % 2) + 31) (32 * (i % 2))

/-- Code of a mode in an image (R81). -/
def Mode.code : Mode → Nat
  | .run => 0 | .trap => 1 | .control => 2
/-- The mode of a code. -/
def Mode.ofCode : Nat → Option Mode
  | 0 => some .run | 1 => some .trap | 2 => some .control | _ => none

/-- The member state of a code of sq.state (R74). -/
def SqState.ofCode : Nat → Option SqState
  | 0 => some .fetching | 1 => some .publishing | 2 => some .subscribed | 3 => some .away | 4 => some .held | 5 => some .trapped
  | _ => none

/-- A window entry (R81). -/
def Out.windowWord (o : Out) : Nat := o.reg % 32 + o.cls.code * 2 ^ 5 + 2 ^ 7 + o.left % 16 * 2 ^ 8

/-- trap.cause as it is read (R76). -/
def Thread.causeWord (th : Thread) : Word := ofN (th.trapCause.toNat + b2n th.trapCtl * 2 ^ 8)

/-- The special registers of an image, in order (R81). -/
def Thread.imageRegs (th : Thread) : List Word :=
  [th.scopeD, th.feBudget, th.chBudget, th.barBudget, th.portCfg, th.portTag, th.fpCtl, th.fpFlags, th.rng,
   th.lmask.setWidth 64, th.trapVec, th.causeWord, th.trapPc, th.trapAddr, th.trapInfo, th.sqLeftpc, th.sqWord]

/-- A word of a saved port queue: payload, then tag. -/
def queueWord (q : List PortWord) (j : Nat) : Word :=
  match q[j / 2]? with
  | some p => if j % 2 = 0 then p.data else p.tag.setWidth 64
  | none => 0

/-- Word i of a thread's image (R81): its window entries hold the four windows opened first (DESIGN CHOICE, log 28); sf says whether a STORE_FAULT is pending, and away gives the away counts of the
thread's channel by id when it publishes. -/
def Thread.imageWord (th : Thread) (sf : Bool) (away : Nat → Nat) (i : Nat) : Word :=
  let r := th.region
  let f (j : Nat) : Nat := (th.readF j).toNat
  let win (j : Nat) : Nat := match th.outs[j]? with | some o => o.windowWord | none => 0
  if i = 0 then imageVersion
  else if i = 1 then th.pc
  else if i = 2 then ofN (th.mode.code + b2n sf * 4 + b2n th.halted * 8)
  else if i = 3 then 0
  else if i < 36 then (if i = 4 then 0 else (th.s[i - 4]?).getD 0)
  else if i < 42 then pair32 (f (2 * (i - 36))) (f (2 * (i - 36) + 1))
  else if i < 46 then (th.k[i - 42]?).getD 0
  else if i < 48 then pair32 (win (2 * (i - 46))) (win (2 * (i - 46) + 1))
  else if i < 52 then (match th.heldTakes[i - 48]? with | some a => a ||| 1 | none => 0)
  else if i < 69 then th.imageRegs.getD (i - 52) 0
  else if i = 69 then ofN (th.copyBatch % 2 ^ 32)
  else if i = 70 then ofN (th.mxBatch % 2 ^ 32)
  else if i = 71 then ofN (b2n r.isSome)
  else if i = 72 then (r.map Region.base).getD 0
  else if i = 73 then (r.map Region.size).getD 0
  else if i = 74 then (r.map Region.pc).getD 0
  else if i < 90 then (match r with | some x => x.s.getD (i - 75) 0 | none => 0)
  else if i < 96 then (match r with
    | some x => pair32 (x.f.getD (2 * (i - 90)) 0).toNat (x.f.getD (2 * (i - 90) + 1) 0).toNat
    | none => 0)
  else if i = 96 then ofN (th.inq.length + th.outq.length * 2 ^ 8)
  else if i = 97 then 0
  else if i < 114 then queueWord th.inq (i - 98)
  else if i < 130 then queueWord th.outq (i - 114)
  else if i < 146 then
    (if th.sq = .publishing then
      pair32 (away (2 * (i - 130) + 1)) (if i = 145 then 0 else away (2 * (i - 130) + 2))
    else 0)
  else if i < 256 then 0
  else pair32 (th.readLane ((i - 256) / 16) (2 * ((i - 256) % 16))).toNat
    (th.readLane ((i - 256) / 16) (2 * ((i - 256) % 16) + 1)).toNat

/-- A port queue of n entries read from an image. -/
def queueOf (w : Nat → Word) (at_ n : Nat) (beat : Nat) : List PortWord :=
  (List.range (min n 8)).map fun j => ⟨w (at_ + 2 * j), (w (at_ + 2 * j + 1)).setWidth 8, beat⟩

/-- The register class of a code (R77). -/
def RegClass.ofCode : Nat → Option RegClass
  | 0 => some .s | 1 => some .v | 2 => some .f | _ => none

/-- The windows an image holds: each entry's register, class and remaining count, over what was outstanding in its place; an
entry the thread had nothing for is a window whose result has been written. Windows beyond the four it holds are kept. DEDUCED: log
28. -/
def setWindows (outs : List Out) (w : Nat → Word) : List Out :=
  ((List.range 4).filterMap fun j =>
    let e := half32 (fun i => w (46 + i)) j
    match RegClass.ofCode (bits e 6 5) with
    | some c => if bits e 7 7 = 1 then
        some { (outs[j]?).getD ⟨0, c, 0, 0, 0, 0, 0, .written⟩ with cls := c, reg := bits e 4 0, left := bits e 11 8 }
      else none
    | none => none) ++ outs.drop 4

/-- The region an image holds. -/
def regionOf (w : Nat → Word) : Option Region :=
  if wbit (w 71) 0 then
    some {
      pc := pcOf (w 74)
      s := (List.range 15).map fun j => w (75 + j)
      f := (List.range 12).map fun j => BitVec.ofNat 32 (half32 (fun k => w (90 + k)) j)
      base := w 72
      size := w 73 }
  else none

/-- The mode of an image: control mode only on a thread that has control privilege already (R67, R68). -/
def Thread.imageMode (th : Thread) (w2 : Word) : Mode :=
  match Mode.ofCode (wbits w2 1 0) with
  | some .control => if th.privileged then .control else th.mode
  | some m => m
  | none => th.mode

/-- A thread with the fields of an image written back (R80, R81), each as its register holds it: reserved fields zero (R11,
R71-R73), the PC canonical (R63). What the image has no field for is kept. -/
def Thread.restore (th : Thread) (w : Nat → Word) (beat : Nat) : Thread :=
  let sq := w 68
  { th with
    pc := pcOf (w 1)
    mode := th.imageMode (w 2)
    halted := wbit (w 2) 3
    s := Vector.ofFn fun i => if i.val = 0 then 0 else w (4 + i.val)
    f := Vector.ofFn fun i => BitVec.ofNat 32 (half32 (fun k => w (36 + k)) i.val)
    k := Vector.ofFn fun i => w (42 + i.val)
    outs := setWindows th.outs w
    heldTakes := ((List.range 4).map fun j => w (48 + j)).filterMap fun a => if wbit a 0 then some (a &&& ~~~(7#64)) else none
    scopeD := if scopeOk (w 52) then w 52 else th.scopeD
    feBudget := w 53
    chBudget := w 54
    barBudget := w 55
    portCfg := portCfgMask (w 56)
    portTag := keepBits (w 57) 15 0
    fpCtl := fpCtlMask th.fpCtl (w 58)
    fpFlags := keepBits (w 59) 4 0
    rng := rngValue (w 60)
    lmask := (w 61).setWidth 32
    trapVec := w 62 &&& ~~~(0xFFF#64)
    trapCause := (w 63).setWidth 8
    trapCtl := th.privileged && wbit (w 63) 8
    trapPc := w 64
    trapAddr := w 65
    trapInfo := w 66
    sqLeftpc := w 67
    sq := (SqState.ofCode (wbits sq 2 0)).getD th.sq
    sqRdv := wbits sq 7 3
    sqCh := wbits sq 22 8
    sqDepth := wbits sq 26 23
    copyBatch := wbits (w 69) 31 0
    mxBatch := wbits (w 70) 31 0
    region := regionOf w
    inq := queueOf w 98 (wbits (w 96) 3 0) beat
    outq := queueOf w 114 (wbits (w 96) 11 8) beat
    v := Vector.ofFn fun r => Vector.ofFn fun l => BitVec.ofNat 32 (half32 (fun k => w (256 + 16 * r.val + k)) l.val) }

/-- The away counts of an image, by id (R81). -/
def imageAway (w : Nat → Word) : Vector Nat 32 :=
  Vector.ofFn fun i => if i.val = 0 then 0 else half32 (fun k => w (130 + k)) (i.val - 1)

/-- The away counts of the channel a core holds, by id. -/
def Core.awayOf (c : Core) (id : Nat) : Nat := (c.away[id]?).getD 0

namespace State

/-- The image of a thread in its slot. -/
def imageOf (s : State) (t : ThreadRef) (th : Thread) (i : Nat) : Word :=
  th.imageWord (s.storeFaultPending t) (s.core t.core).awayOf i

end State

end Sys2Proof.Machine
end

