-- ==== Sys2Proof/Machine/Saving.lean ====
section
/-! DEFINITION. Pre-emption (R303, R304), discarding (R309), saving and resuming bands with their save records
(R310-R314), and the dispatcher's answer to an FE_TIMEOUT (R306). -/

namespace Sys2Proof.Machine

/-! ## The layout of a save record (R312, R313) -/

/-- Word 0 of a band save record (R312). -/
def bandVersion : Word := 0x0001444E4142

/-- Bytes of a core section with L bytes of grant, and with the core state (R313). -/
def sectionBytes (size : Nat) (flag : Bool) : Nat := roundUp (0x40 + size + size / 64) 64 + (if flag then roundUp 0x26120 64 else 0)

/-- The parts of a record: barriers' pending generations, detached requests, core sections, images (R312). -/
structure RecordPlan where
  b1 : Nat
  b2 : Nat
  b3 : Nat
  b4 : Nat
  bytes : Nat
  deriving DecidableEq, Repr

/-- The plan of a record (R312): threads, barriers, core sections as grant sizes and flags, handler images. -/
def recordPlan (threads nbar : Nat) (sections : List (Nat × Bool)) (handlers : Nat) : RecordPlan :=
  let b1 := 0x40 + 16 * nbar
  let b2 := b1 + 8 * threads * nbar
  let b3 := roundUp (b2 + 128 * threads) 64
  let b4 := roundUp (b3 + (sections.map fun x => sectionBytes x.1 x.2).sum) 64
  ⟨b1, b2, b3, b4, b4 + 6144 * (threads + handlers)⟩

/-- A core section to be written or read: the core, the band's slots there, its grant, and the flags (R313). -/
structure Section where
  core : Nat
  slots : List Nat
  base : Nat
  size : Nat
  flag : Bool
  handler : Bool
  deriving DecidableEq, Repr

/-- The cores of a band: those it was placed on and those its threads have migrated to, in ascending logical core. -/
def State.bandCores (s : State) (b : Band) : List Nat :=
  let ns := b.cores ++ ((s.threadsOf b.ref).map fun p => p.1.core).filter fun n => !b.cores.contains n
  sortOn (s.idCore b.ref.ctx) ns.eraseDups

/-- A band is its context's last on a core (R313). -/
def State.lastOn (s : State) (b : Band) (n : Nat) : Bool :=
  !(s.bands.any fun x => x.ref != b.ref && x.ref.ctx == b.ref.ctx && x.present && x.cores.contains n)

/-- The live drain handlers of a band. -/
def State.handlersOf (s : State) (b : BandRef) : List (ThreadRef × Thread) :=
  (s.threadsOf b).filter fun p => p.2.handler.isSome && !p.2.halted

/-- The core sections of a band (R313). -/
def State.sections (s : State) (b : Band) : List Section :=
  (s.bandCores b).map fun n =>
    let g := (s.core n).grants.find? fun g => g.band == b.ref
    { core := n
      slots := (List.range 8).filter fun i => (s.slot ⟨n, i⟩).grant == some b.ref || b.slots.contains ⟨n, i⟩
      base := (g.map Grant.base).getD 0
      size := (g.map Grant.size).getD 0
      flag := s.lastOn b n
      handler := (s.handlersOf b.ref).any fun p => p.1.core == n }

/-- The live drain handlers of a band in the order of its sections (R312). -/
def State.handlersIn (s : State) (b : Band) (secs : List Section) : List (ThreadRef × Thread) :=
  secs.flatMap fun x => (s.handlersOf b.ref).filter fun p => p.1.core == x.core

/-- The plan of a band's record. -/
def planOf (b : Band) (nbar : Nat) (secs : List Section) : RecordPlan :=
  recordPlan b.slots.length nbar (secs.map fun x => (x.size, x.flag)) (secs.filter Section.handler).length

/-- The barriers of a band, in number. -/
def State.barriersOf (s : State) (b : Band) : List Barrier := (s.cluster b.cluster).barriers.filter fun x => x.band == b.ref

/-! ## Room in the save area (R303) -/

/-- The bytes of a band's record as it stands (R312). -/
def State.recordBytes (s : State) (b : Band) : Nat := (planOf b (s.barriersOf b).length (s.sections b)).bytes

/-- The save areas can take the records of these bands, one after another, beside what is listed, by context, offset and size
(R303). -/
def State.canSaveBeside (s : State) (used : List (Nat × Nat × Nat)) : List Band → Bool
  | [] => true
  | b :: r =>
    match s.context? b.ref.ctx with
    | none => s.canSaveBeside used r
    | some c =>
      match freePart? c (s.savedParts c ++ (used.filter fun u => u.1 == c.num).map Prod.snd) (s.recordBytes b) with
      | none => false
      | some o =>
        (s.modBand b.ref fun x => { x with state := .saved }).canSaveBeside ((c.num, o, s.recordBytes b) :: used) r

/-- The save areas can take the records of these bands (R303). -/
def State.canSave (s : State) (bs : List Band) : Bool := s.canSaveBeside [] bs

/-! ## Victims (R303, R304, R309) -/

/-- A core as if a band were not there. -/
def Core.without (b : BandRef) (c : Core) : Core :=
  { c.release b with
    slots := (c.release b).slots.map fun sl => match sl.thread with
      | some th => if th.bandRef = b then { sl with thread := none } else sl
      | none => sl
    copies := c.copies.filter fun x => x.band != b
    mxQueue := c.mxQueue.filter fun x => x.band != b
    arrivals := c.arrivals.filter fun k => k.bandRef != b
    drain := match c.drain with
      | some d => if d.ident.getD 0 0 = b.launch ∧ d.ident.getD 1 0 = b.band ∧ d.ident.getD 3 0 = b.ctx then none else some d
      | none => none }

/-- The package as if some bands were not there: what the dispatcher considers. -/
def State.without (s : State) (bs : List Band) : State :=
  bs.foldl (fun a b => (({ a with cores := a.cores.map fun p => (p.1, p.2.without b.ref) } : State)).releaseBand b.ref) s

/-- A running band of a priority below p. -/
def State.isBelow (s : State) (p : Nat) (b : Band) : Bool :=
  b.state == .running && decide (s.bandPrio b.ref < p)
    && !(match s.launch? b.ref.ctx b.ref.launch with | some l => l.masthead | none => true)

/-- The bands that hold a party to the channel of a core (R304). -/
def State.channelBands (s : State) (n : Nat) : List BandRef :=
  (s.channelParties n).filterMap fun t => (s.thread? t).map Thread.bandRef

/-- The closed set of some bands: with every channel one of them is party to come all its other parties (R304). -/
def State.closeSet (s : State) : Nat → List BandRef → List BandRef
  | 0, set => set
  | n + 1, set =>
    let more := s.cores.flatMap fun p => let bs := s.channelBands p.1; if bs.any set.contains then bs else []
    s.closeSet n (set ++ more.filter fun b => !set.contains b).eraseDups

/-- The closed set of a band (R304). -/
def State.closedSet (s : State) (b : Band) : List Band := (s.closeSet (s.bands.length + 1) [b.ref]).filterMap s.band?

/-- The bands that make room for work of priority p: those of lower priority that are being stopped, and those that may be
pre-empted, running ones with closed sets of such bands (R303, R304). -/
def State.below (s : State) (p : Nat) : List Band :=
  s.bands.filter fun b =>
    (b.state == .saving && decide (s.bandPrio b.ref < p)) || (s.isBelow p b && (s.closedSet b).all (s.isBelow p))

/-- The victims a pending band of a launch may take (R303). -/
def State.victimsFor (s : State) (l : Launch) (b : Nat) : List Band :=
  let bs := s.below l.rec_.prio
  let dies := s.dieOrder l b
  bs.filter fun x => dies.contains (x.cluster / 16) &&
    ((s.without (bs.filter fun y => y.cluster == x.cluster)).fitCluster l.ctx l.rec_ x.cluster).isSome

/-- The victims a saved band may take: those that stand where its closed set ran (R303, R305). -/
def State.victimsForSaved (s : State) (b : Band) : List Band :=
  let bs := s.below (s.bandPrio b.ref)
  let mine := (s.groupOf b).flatMap fun x => match x.saved with
    | some v => v.threads.map (fun p => p.2.1) ++ v.granted
    | none => []
  let near := bs.filter fun x => x.slots.any (fun t => mine.any fun r => r.core == t.core)
  if (s.without near).resumable b then near else []

/-- a is a better victim than b: lowest priority, latest launch, highest band number (R303). -/
def State.betterVictim (s : State) (a b : Band) : Bool :=
  let pa := s.bandPrio a.ref
  let pb := s.bandPrio b.ref
  decide (pa < pb) || (pa == pb && (decide (s.launchPos b.ref < s.launchPos a.ref)
    || (s.launchPos a.ref == s.launchPos b.ref && decide (b.ref.band < a.ref.band))))

/-- The victim to take first. -/
def State.firstVictim (s : State) (bs : List Band) : Option Band :=
  bs.foldl (fun best b => match best with
    | none => some b
    | some x => if s.betterVictim b x then some b else some x) none

/-- The victim for the first pending band of a priority that has one (R302, R303). -/
def State.victimAt (s : State) (p : Nat) : Option Band :=
  let ls := s.launches.filter fun l => l.rec_.prio == p && !l.masthead
  match ls.findSome? fun l => (s.nextSaved l).bind fun b => s.firstVictim (s.victimsForSaved b) with
  | some v => some v
  | none => ls.findSome? fun l => (s.nextUnstarted l).bind fun c => s.firstVictim (s.victimsFor l c.1)

/-- A victim is discarded, not saved (R309). A live drain handler is a thread of the band outside its region. -/
def State.discards (s : State) (b : Band) : Bool :=
  let ths := s.threadsOf b.ref
  !b.out
    && ((List.range b.slots.length).all fun tib =>
        (lookup? b.haltedIn tib).isSome || ths.any fun p => p.2.tib == tib && p.2.handler.isNone && p.2.region.isSome)
    && (ths.all fun p => (p.2.sq == .fetching || p.2.sq == .trapped) && clusterOf p.1.core == b.cluster)
    && !s.packetOf b.ref && !(ths.any fun p => p.2.handler.isSome && !p.2.halted)

/-- A victim can be taken: its context's save area can take what of its closed set is saved (R303); one that is being stopped has
been taken. -/
def State.canTake (s : State) (v : Band) : Bool :=
  v.state == .saving || s.canSave ((s.closedSet v).filter fun b => !s.discards b)

/-- The dispatcher's next move among some priorities (R302): at each, a move, else a victim that makes room for its pending bands
comes before any lower priority (R303), so that a victim does not resume before they have been placed. -/
def State.moveFrom (s : State) : List Nat → Option Placement
  | [] => none
  | p :: r =>
    match s.moveAt p with
    | some m => some m
    | none => if ((s.victimAt p).filter s.canTake).isSome then none else s.moveFrom r

/-- The priorities, highest first. -/
def priorities : List Nat := [7, 6, 5, 4, 3, 2, 1, 0]

/-- The dispatcher's next move: priority, highest first (R302). -/
def State.nextMove (s : State) : Option Placement := s.moveFrom priorities

/-- BAND_PLACE (R299, R302): the dispatcher places the next pending band, if that is its next move. -/
def execBandPlace (s : State) : Host.Outcome State Fault Refusal :=
  match s.nextMove with
  | some (.place l b rs f) => .next (s.placeBand l b rs f)
  | _ => .next s

/-- A victim with its closed set is stopped, to be saved or discarded (R303, R304, R309). -/
def State.stopSet (s : State) (set : List Band) : State :=
  let g := if set.length = 1 then 0 else s.serial + 1
  let s1 := set.foldl (fun a b => a.modBand b.ref fun x => { x with state := .saving, discard := s.discards b, group := g }) s.tick
  set.foldl (fun a b =>
    let t := b.slots.headD ⟨0, 0⟩
    (a.traceEvent 8 b.ref.ctx t.core t.slot (s.bandPc b.ref t) (ofN b.ref.band)).record (b.cluster / 16) 6 b.cluster
      [ofN b.ref.launch, ofN b.ref.band]) s1

/-- PREEMPT (R303, R304, R309): at the beat boundary, so that every publisher stops in one rotation, the next pending band that
cannot be placed or resumed takes a victim, with the victim's closed set. A victim for whose record the save area has no room is
not pre-empted, and the die control core is told (R335). -/
def execPreempt (s : State) : Host.Outcome State Fault Refusal :=
  if !s.boundary ∨ s.nextMove.isSome ∨ (s.bands.any fun b => b.state == .saving) then .next s
  else match priorities.findSome? fun p => (s.victimAt p).filter s.canTake with
  | some v => .next (s.stopSet (s.closedSet v))
  | none =>
    match priorities.findSome? s.victimAt with
    | some v => .next (s.postDie (v.cluster / 16) 9)
    | none => .next s

/-! ## At rest (R80, R310, R311) -/

/-- A request that may stay parked while its thread is saved (R311): a conditional one that waits for its word, or any with one
result at most that waits at a saved band's word (R314). -/
def Flight.parked (f : Flight) : Bool :=
  !f.kind.isRed && (match f.stage with
    | .queued _ | .refused | .remote => f.kind.awaits.isSome
    | .parked _ => (match f.kind with | .vload .. => false | _ => true)
    | _ => false)

/-- A thread's outstanding results have been written or have faulted, or are parked (R80, R311). -/
def State.outsRest (s : State) (th : Thread) : Bool :=
  th.outs.all fun o => match o.value with
    | .written | .fault .. => true
    | .pending => (match s.flight? o.id with | some f => f.parked | none => false)
    | _ => false

/-- A wait in which a thread may be saved. -/
def WaitKind.rests : WaitKind → Bool
  | .launch .. | .depart .. | .sqkill .. => false
  | _ => true

/-- A thread has stopped and everything of it is over but what may be saved (R80, R310, R311). DEDUCED: log 22. -/
def State.atRest (s : State) (t : ThreadRef) (th : Thread) : Bool :=
  if th.halted then s.quiet t th
  else
    th.busy == 0 && (!th.member || th.subBuf.isEmpty) && th.storeQ.isEmpty && th.pending == 0 && s.outsRest th
      && th.killAt.isNone && (match th.wait with | some w => w.kind.rests | none => true)
      && ((s.flights.filter fun f => f.of t).all Flight.parked) && decide ((s.flights.filter fun f => f.of t).length ≤ 4)
      && !(s.fabReqs.any fun r => r.thread == some t && r.flight.isNone && r.xfer.isNone)
      && !(s.barMsgs.any fun m => m.thread == t)
      && !(s.cores.any fun p => p.2.deliveries.any fun d => d.sender == some t)

/-- The cores' part of a save: copies and begun commands are over, and what was reserved has been written (R310). -/
def State.coresRest (s : State) (b : Band) : Bool :=
  !(s.cores.any fun p => p.2.copies.any (fun x => x.band == b.ref)
      || p.2.mxQueue.any (fun m => m.band == b.ref && m.begun && !m.isDrain)
      || (match p.2.drain with
          | some d => d.ident.getD 0 0 == b.ref.launch && d.ident.getD 1 0 == b.ref.band && d.ident.getD 3 0 == b.ref.ctx
              && (!d.writes.isEmpty || d.failed.isSome)
          | none => false))
    && !s.arrayWorks b.ref && !s.packetOf b.ref
    && ((s.sections b).all fun x => !x.flag || ((s.core x.core).deliveries.isEmpty && (s.core x.core).mboxPend.isEmpty))
    && !(s.holds.any fun h => (s.sections b).any fun x =>
        decide (scratchKey x.core x.base ≤ h.key) && decide (h.key < scratchKey x.core x.base + x.size))

/-- Nothing that a band has asked of an engine is left (R309). -/
def State.enginesRest (s : State) (b : Band) : Bool := !(s.cores.any fun p => p.2.works b.ref) && !s.arrayWorks b.ref

/-- The band that is being stopped is to be discarded still (R309). -/
def State.discarding (s : State) (b : Band) : Bool := b.discard && s.discards b

/-- A band that is being stopped has come to rest: to be saved (R310), or to be discarded, its commands over too (R309). -/
def State.bandRests (s : State) (b : Band) : Bool :=
  ((s.threadsOf b.ref).all fun p => s.atRest p.1 p.2) && s.coresRest b && (!s.discarding b || s.enginesRest b)

/-! ## Discarding (R309) -/

/-- The snapshot of each thread of a band, by id.tib. -/
def State.snapshots (s : State) (b : Band) : List Region :=
  (List.range b.slots.length).filterMap fun tib =>
    match (s.threadsOf b.ref).find? fun p => p.2.tib == tib && p.2.handler.isNone && p.2.region.isSome with
    | some p => p.2.region
    | none => lookup? b.haltedIn tib

/-- The requests of a thread are withdrawn, and belong to no slot any more. -/
def State.withdrawAll (s : State) (t : ThreadRef) : State :=
  { s with flights := s.flights.map fun f =>
      if f.of t then { f with orphan := true, withdrawal := true, detached := some 0 } else f }

/-- A band is discarded, and pending again (R309). Records of its threads go to the context's fault queue (R207). -/
def State.discardBand (s : State) (b : Band) : State :=
  let rs := s.snapshots b
  let refs := (s.threadsOf b.ref).map Prod.fst
  let s1 := refs.foldl (fun a t => ((a.moveRecords t b.ref.ctx).withdrawAll t).dropThread t) s
  let s2 := ({ s1 with cores := s1.cores.map fun p => (p.1, p.2.without b.ref) } : State).releaseBand b.ref
  s2.modLaunch b.ref.ctx b.ref.launch fun l => { l with redo := insertKey l.redo b.ref.band rs }

/-! ## Writing the record (R312, R313) -/

/-- H, SAT and ERR of a tile as the array context holds them. -/
def Tile.metaBits (t : Tile) : Nat := t.h % 64 + b2n t.sat * 64 + b2n t.err * 128

/-- A queued command's four words (R313). -/
def MxCmd.entryWord (m : MxCmd) (i : Nat) : Word :=
  match i with
  | 0 => m.word.setWidth 64 | 1 => m.sx | 2 => m.sy | _ => ofN (m.slot + m.batch.getD 0 % 2 ^ 32 * 2 ^ 32)

/-- The drain words of an array context (R313). -/
def Core.drainWord (c : Core) (i : Nat) : Word :=
  match c.drain with
  | none => 0
  | some d =>
    match i with
    | 0 => ofN (1 + b2n d.raw * 2 + d.tile * 4 + d.next % 64 * 2 ^ 8 + d.placed % 64 * 2 ^ 16)
    | 1 => d.done | 2 => d.handlerPc | 3 => ofN d.issuer | _ => 0

/-- Word i of an array core context (R313). -/
def Core.arrayWord (c : Core) (i : Nat) : Word :=
  if i = 0 then c.mxCtx
  else if i = 1 then ofN (c.tile0.metaBits + c.tile1.metaBits * 2 ^ 8 + (match c.reservation with | some k => k * 2 ^ 16 + 2 ^ 19 | none => 0))
  else if i < 8 then 0
  else if i < 72 then (match (c.mxQueue.filter fun m => !m.begun)[(i - 8) / 4]? with | some m => m.entryWord ((i - 8) % 4) | none => 0)
  else if i < 136 then ofN ((c.tc[i - 72]?).getD 0)
  else if i < 144 then c.drainWord (i - 136)
  else if i < 2192 then (match c.drainBuf[(i - 144) / 256]? with | some r => (r.2.getD ((i - 144) % 256) 0).setWidth 64 | none => 0)
  else if i < 3072 then 0
  else if i < 11264 then (c.tile0.slot ((i - 3072) / 256) ((i - 3072) % 256)).setWidth 64
  else (c.tile1.slot ((i - 11264) / 256) ((i - 11264) % 256)).setWidth 64

/-- The words of a core's state (R313): mbox.*, the RECORD area, the array core context. -/
def State.coreStateWords (s : State) (n : Nat) : List Word :=
  let c := s.core n
  [ofN c.mboxBase, ofN c.mboxSize, ofN c.mboxHead, ofN c.mboxTail]
    ++ (List.range 32).map (fun i => s.readWord (recordKey n (8 * i)))
    ++ (List.range (0x26000 / 8)).map c.arrayWord

/-- The words of a core section (R313). -/
def State.sectionWords (s : State) (ctx : Nat) (x : Section) : List Word :=
  let key := scratchKey x.core x.base
  let mask := (x.slots.map fun i => 2 ^ i).sum
  let head := [ofN (s.idCore ctx x.core % 2 ^ 15 + indexOf x.core * 2 ^ 16 + mask * 2 ^ 24 + x.base * 2 ^ 32), ofN x.size,
    ofN (b2n x.flag + 2 * b2n x.handler), 0, 0, 0, 0, 0]
  let data := (List.range (x.size / 8)).map fun i => s.readWord (key + 8 * i)
  let fe := wordsOfBytes ((List.range (x.size / 64)).map fun i =>
    BitVec.ofNat 8 ((List.range 8).map fun j => b2n (s.full (key + 64 * i + 8 * j)) * 2 ^ j).sum)
  let body := head ++ data ++ fe
  let pad := roundUp (0x40 + x.size + x.size / 64) 64 / 8 - body.length
  let core := if x.flag then s.coreStateWords x.core else []
  body ++ List.replicate pad 0 ++ core ++ List.replicate (sectionBytes x.size x.flag / 8 - body.length - pad - core.length) 0

/-- The words of a barrier (R312). -/
def Barrier.words (b : Barrier) : List Word := [ofN (b.c + b.c'.getD 0 * 2 ^ 10 + b.a * 2 ^ 20), ofN b.g]

/-- A thread's pending generation of a barrier (R312). -/
def Barrier.pendWord (b : Barrier) (tib : Nat) : Word := match b.pending? tib with | some g => ofN (g + 2 ^ 32) | none => 0

/-- The detached requests of a thread: each with its entry's index (R311, R312). -/
def State.parkedOf (s : State) (t : ThreadRef) : List (Nat × Flight) := ((s.flights.filter fun f => f.of t).zipIdx).map fun p => (p.2, p.1)

/-- Words 0 and 1 of a detached request's entry (R312). -/
def Thread.detachedWords (th : Thread) (f : Flight) : List Word :=
  let o := th.outs.find? fun o => o.id == f.id
  [ofN ((match o with | some o => o.reg % 32 + o.cls.code * 2 ^ 5 | none => 0) + 2 ^ 7), f.va, 0, 0]

/-- The thread of a band with an id.tib, and its slot; one that has ended leaves its slot's name. -/
def State.member (s : State) (b : Band) (tib : Nat) : ThreadRef × Thread :=
  match (s.threadsOf b.ref).find? fun p => p.2.tib == tib && p.2.handler.isNone with
  | some p => p
  | none => (b.slots.getD tib ⟨0, 0⟩, { Thread.blank with halted := true, tib := tib, launch := b.ref.launch, band := b.ref.band, ctx := b.ref.ctx })

/-- The words of a band's record (R312). -/
def State.recordWordsOf (s : State) (b : Band) (secs : List Section) : List Word :=
  let ms := (List.range b.slots.length).map (s.member b)
  let bars := s.barriersOf b
  let r := planOf b bars.length secs
  let head := [bandVersion, ofN b.ref.launch, ofN b.ref.band,
    ofN (b.slots.length + b.cores.length * 2 ^ 10 + bars.length * 2 ^ 17 + b2n b.out * 2 ^ 22), ofN s.beat, 0, 0, 0]
  let p1 := head ++ bars.flatMap Barrier.words
  let p2 := ms.flatMap fun m => bars.map fun x => x.pendWord m.2.tib
  let p3 := ms.flatMap fun m =>
    let e := (s.parkedOf m.1).flatMap fun p => m.2.detachedWords p.2
    e ++ List.replicate (16 - e.length) 0
  let upTo3 := p1 ++ p2 ++ p3
  let p4 := upTo3 ++ List.replicate (r.b3 / 8 - upTo3.length) 0 ++ secs.flatMap (s.sectionWords b.ref.ctx)
  let images := (ms ++ s.handlersIn b secs).flatMap fun m => (List.range imageWords).map (s.imageOf m.1 m.2)
  p4 ++ List.replicate (r.b4 / 8 - p4.length) 0 ++ images

/-! ## Saving (R310-R314) -/

/-- The detached requests of a band, with the keys of their entries in a record at key (R311). -/
def State.detachedOf (s : State) (b : Band) (key : Nat) (r : RecordPlan) : List Detached :=
  (List.range b.slots.length).flatMap fun tib =>
    (s.parkedOf (s.member b tib).1).map fun p =>
      ⟨tib, key + r.b2 + 128 * tib + 32 * p.1, p.2.id, p.2.kind == .ldT, p.2.va, p.2.kind == .ticket true, wordKey p.2.key⟩

/-- The fault records a save takes along (R313): on a core whose state is saved all of them, elsewhere those of the band's
slots. -/
def State.recordsTaken (s : State) (x : Section) : List (Nat × Nat) :=
  (List.range 8).filterMap fun i =>
    let k := recordKey x.core (32 * i)
    if s.full k && (x.flag || x.slots.contains (wbits (s.readWord k) 2 0)) then some (x.core, i) else none

/-- The words of a record. -/
def State.recordAt (s : State) (p : Nat × Nat) : Nat × List Word :=
  (p.1, (List.range 4).map fun j => s.readWord (recordKey p.1 (32 * p.2 + 8 * j)))

/-- A core without its state, which has been saved (R313). -/
def Core.stateless (c : Core) : Core := { c.renew with slots := c.slots, arrivals := c.arrivals, pub := c.pub, away := c.away }

/-- A saved thread's request belongs to no slot: its entry in the save record takes its outcome, and its park-list entry says
DET (R285, R311). -/
def State.detach (s : State) (d : Detached) : State :=
  match s.flight? d.id with
  | none => s
  | some f =>
    { (s.parkDet f true).modFlight d.id fun x => { x with detached := some d.key } with
      fabReqs := s.fabReqs.map fun r => if r.flight = some d.id then { r with thread := none } else r }

/-- A request still pending is its thread's again (R285, R311). -/
def State.attach (s : State) (d : Detached) : State :=
  match s.flight? d.id with
  | none => s
  | some f =>
    let parked := match f.stage with | .parked _ => true | _ => false
    { (s.parkDet f parked).modFlight d.id fun x => { x with detached := none } with
      fabReqs := s.fabReqs.map fun r => if r.flight = some d.id then { r with thread := some f.thread } else r }

/-- A word lies in the grants of these sections. -/
def inGrants (secs : List Section) (key : Nat) : Bool :=
  secs.any fun x => decide (scratchKey x.core x.base ≤ key) && decide (key < scratchKey x.core x.base + x.size)

/-- Words of a saved grant in whose queues others are parked (R314). -/
def State.queuesIn (s : State) (secs : List Section) : List (Nat × List Nat) :=
  s.queues.filter fun q => inGrants secs q.1

/-- A saved thread leaves its slot; its rotations count for its context's sums (R346). -/
def State.suspend (s : State) (t : ThreadRef) : State :=
  (s.vacate t).modCore t.core fun c => match s.thread? t with | some th => c.keepRotations th | none => c

/-- A band at rest is saved: its record is written at key, and its slots go vacant (R310-R314). -/
def State.saveBand (s : State) (b : Band) (key : Nat) : State :=
  let secs := s.sections b
  let bars := s.barriersOf b
  let r := planOf b bars.length secs
  let ms := (List.range b.slots.length).map fun tib => (tib, s.member b tib)
  let hs := s.handlersIn b secs
  let ds := s.detachedOf b key r
  let taken := secs.flatMap s.recordsTaken
  let refs := (s.threadsOf b.ref).map Prod.fst
  let v : SavedBand := {
    key := key
    bytes := r.bytes
    beat := s.beat
    threads := ms.filterMap fun m => if (s.thread? m.2.1).isSome && refs.contains m.2.1 then some m else none
    handlers := hs
    granted := s.allSlots.filter fun t => (s.slot t).grant == some b.ref
    detached := ds
    pubs := secs.filterMap fun x => match (s.core x.core).pub with
      | some p => if refs.contains ⟨x.core, p.slot⟩ then some (x.core, p) else none
      | none => none
    bars := bars
    cores := (secs.filter Section.flag).map fun x => (x.core, s.core x.core)
    records := taken.map s.recordAt
    queues := s.queuesIn secs }
  let s1 := (s.putWords key (s.recordWordsOf b secs)).sealFor b.ref.ctx key r.bytes
  let s2 := taken.foldl (fun a p => let k := recordKey p.1 (32 * p.2); (a.setFull k false).noteFreed k) s1
  let s3 := { ds.foldl State.detach s2 with queues := s2.queues.filter fun q => !(v.queues.any fun x => x.1 == q.1) }
  let s4 := (v.pubs).foldl (fun a p => a.modCore p.1 fun c => { c with pub := none }) s3
  let s5 := refs.foldl State.suspend s4
  let s6 := v.granted.foldl (fun a t => a.modSlot t fun sl => { sl with grant := none }) s5
  let s7 := secs.foldl (fun a x => a.modCore x.core fun c =>
    let c1 := if x.flag then c.stateless else c
    { c1 with grants := c1.grants.map fun g => if g.band = b.ref then { g with saved := true } else g }) s6
  (s7.modCluster b.cluster fun c => { c with barriers := c.barriers.filter fun y => y.band != b.ref }).modBand b.ref fun x =>
    { x with state := .saved, saved := some v }

/-- BAND_SAVE (R310, R309): once every band of its closed set has come to rest, a band that is being pre-empted is saved,
or discarded while it still may be. One that has lost its discard and finds no room in the save area goes on (R303; log 22). -/
def execBandSave (b : BandRef) (s : State) : Host.Outcome State Fault Refusal :=
  match s.band? b with
  | none => .next s
  | some x =>
    if x.state ≠ .saving ∨ !((s.groupOf x).all fun y => y.state != .saving || s.bandRests y) then .next s
    else if s.discarding x then .next (s.discardBand x)
    else match s.context? b.ctx with
    | none => .next s
    | some c =>
      match freePart? c (s.savedParts c) (planOf x (s.barriersOf x).length (s.sections x)).bytes with
      | some o => .next (s.saveBand x (c.save + o))
      | none => .next (if x.discard then s.modBand b fun y => { y with state := .running, discard := false, group := 0 } else s)

/-! ## Resuming (R305, R311-R314) -/

/-- The sections of a saved band, as they were written: from its slots, grants and kept cores. -/
def State.savedSections (s : State) (b : Band) (v : SavedBand) : List Section :=
  let ns := sortOn (s.idCore b.ref.ctx) (b.cores ++ (v.threads.map fun p => p.2.1.core).filter fun n => !b.cores.contains n).eraseDups
  ns.map fun n =>
    let g := (s.core n).grants.find? fun g => g.band == b.ref
    { core := n
      slots := (List.range 8).filter fun i => v.granted.contains ⟨n, i⟩ || b.slots.contains ⟨n, i⟩
      base := (g.map Grant.base).getD 0
      size := (g.map Grant.size).getD 0
      flag := v.cores.any fun p => p.1 == n
      handler := v.handlers.any fun p => p.1.core == n }

/-- A tile of 8,192 words read back (R313). -/
def tileOfWords (w : Nat → Word) (meta_ : Nat) : Tile :=
  { slots := (List.range 8192).filterMap fun i => let x := (w i).setWidth 36; if x = 0 then none else some (i, x)
    h := meta_ % 64
    sat := meta_ / 64 % 2 == 1
    err := meta_ / 128 % 2 == 1 }

/-- A core with its saved state back: the words of its section over what was kept (R313), the fields its registers do not hold zero
(R11). -/
def Core.resume (now kept : Core) (w : Nat → Word) : Core :=
  let a (i : Nat) : Word := w (36 + i)
  let m := (a 1).toNat
  { now with
    mboxBase := wbits (w 0) 17 3 * 8
    mboxSize := wbits (w 1) 18 3 * 8
    mboxHead := wbits (w 2) 17 3 * 8
    mboxTail := wbits (w 3) 17 3 * 8
    tktLast := kept.tktLast
    recSeq := max now.recSeq kept.recSeq
    mxCtx := keepBits (a 0) 12 0
    mxApplied := kept.mxApplied
    mxQueue := kept.mxQueue
    tile0 := tileOfWords (fun i => a (3072 + i)) (m % 2 ^ 8)
    tile1 := tileOfWords (fun i => a (11264 + i)) (m / 2 ^ 8 % 2 ^ 8)
    tc := Vector.ofFn fun i => (a (72 + i.val)).toNat
    reservation := if m / 2 ^ 19 % 2 = 1 then some (m / 2 ^ 16 % 8) else none
    drain := kept.drain
    drainBuf := kept.drainBuf }

/-- A grant's contents and bits read back from its section at key (R313). -/
def State.restoreGrant (s : State) (x : Section) (key : Nat) : State :=
  (List.range (x.size / 8)).foldl (fun a i =>
    let k := scratchKey x.core x.base + 8 * i
    (a.writeWord k (s.readWord (key + 0x40 + 8 * i))).setFull k
      ((s.readByte (key + 0x40 + x.size + i / 8)).getLsbD (i % 8))) s

/-- One core section read back: the core is the context's again, its grant, and its state when that was saved. -/
def State.restoreSection (s : State) (b : BandRef) (v : SavedBand) (x : Section) (key : Nat) : State :=
  let s1 := s.modCore x.core fun c =>
    let c1 := c.assign b.ctx
    { c1 with grants := c1.grants.map fun g => if g.band = b then { g with saved := false } else g }
  let s2 := s1.restoreGrant x key
  match v.cores.find? fun p => p.1 == x.core with
  | some p =>
    let at_ := key + roundUp (0x40 + x.size + x.size / 64) 64
    s2.modCore x.core fun c => c.resume p.2 fun i => s.readWord (at_ + 8 * i)
  | none => s2

/-- The sections of a record, one after another. -/
def State.restoreSections (s : State) (b : BandRef) (v : SavedBand) : Nat → List Section → State
  | _, [] => s
  | key, x :: r => (s.restoreSection b v x key).restoreSections b v (key + sectionBytes x.size x.flag) r

/-- Barrier n read back from a record (R312). -/
def State.restoreBarrier (s : State) (v : SavedBand) (r : RecordPlan) (threads nbar : Nat) (i : Nat) (x : Barrier) : Barrier :=
  let w0 := s.readWord (v.key + 0x40 + 16 * i)
  { x with
    c := wbits w0 9 0
    c' := if wbits w0 19 10 = 0 then none else some (wbits w0 19 10)
    a := wbits w0 29 20
    g := wbits (s.readWord (v.key + 0x48 + 16 * i)) 31 0
    pend := (List.range threads).filterMap fun t =>
      let p := s.readWord (v.key + r.b1 + 8 * (t * nbar + i))
      if wbit p 32 then some (t, wbits p 31 0) else none }

/-- A detached request's outcome at its thread as it resumes (R311): a result waits to be written, a TICKET.BC's number to be
broadcast first of those still to be (R268), an FE_TIMEOUT to be reported; a request still pending makes the thread wait again.
DEDUCED: log 28. -/
def Thread.reattach (th : Thread) (d : Detached) (w0 result : Word) : Thread :=
  let blocked : Bool := (th.wait.map Wait.kind) == some (.fill d.id)
  let put (v : OutValue) (t : Thread) : Thread := { t with outs := modFirst (fun o => o.id == d.id) (fun o => { o with value := v }) t.outs }
  if wbit w0 8 then
    let t1 := put (if d.bc then .bcast result 0 else .word result) th
    let t2 := if d.take then t1.noteTake d.va d.word else t1
    if blocked then { t2 with wait := none, pc := nextPc t2.pc } else t2
  else if wbit w0 9 then
    if blocked then { th with outs := th.outs.filter fun o => o.id != d.id } else put (.fault .feTimeout d.va 0) th
  else th

/-- A thread as it resumes in its slot: its image over what was kept, its wait counting on, its counters from 0 (R80,
R81). -/
def Thread.resumeAt (th : Thread) (w : Nat → Word) (beat away : Nat) : Thread :=
  { th.restore w beat with
    wait := th.wait.map fun x => { x with since := x.since + away }
    rotIssued := 0
    rotMem := 0
    rotMsg := 0
    rotVacant := 0
    issued := false
    fetched := none
    together := none
    notBefore := beat + 1
    bornAt := some beat }

/-- A saved request is its thread's again (R311); its FE_TIMEOUT is reported now (R198, R306). -/
def State.reattachAll (s : State) (v : SavedBand) : State :=
  v.detached.foldl (fun a d =>
    match v.threads.find? fun m => m.1 == d.tib with
    | none => a
    | some m =>
      let w0 := s.readWord d.key
      let a1 := a.modThread m.2.1 fun th => th.reattach d w0 (s.readWord (d.key + 16))
      let waits := (m.2.2.wait.map Wait.kind) == some (.fill d.id)
      if wbit w0 8 then (if waits && !(m.2.2.outs.any fun o => o.id == d.id) then a1.noteFill m.2.1 d.va d.word else a1)
      else if wbit w0 9 then (if waits then a1.raise m.2.1 .feTimeout d.va 0 m.2.2.pc else a1).tellTimeout m.2.1
      else a1.attach d) s

/-- A saved record goes back to the lowest free place of its core. -/
def State.putRecord (s : State) (p : Nat × List Word) : State :=
  match s.freeRecord? p.1 with
  | none => s
  | some i => (s.putWords (recordKey p.1 (32 * i)) p.2).setFull (recordKey p.1 (32 * i)) true

/-- The record and every image have the version this device writes (R312, R81). -/
def State.versionsOk (s : State) (b : Band) (v : SavedBand) (r : RecordPlan) : Bool :=
  s.readWord v.key == bandVersion &&
    (List.range (b.slots.length + v.handlers.length)).all fun i => s.readWord (v.key + r.b4 + 6144 * i) == imageVersion

/-- What waits at the words of a band's grants, in the order in which it reached them (R314). -/
def State.parkedIn (s : State) (secs : List Section) : List SavedWait :=
  let fs := (s.flights.filter fun f => (match f.stage with | .parked _ => true | _ => false) && inGrants secs f.key).map fun f =>
    (f.seq, SavedWait.request f.id)
  let ws := fs ++ (s.savedWaits.filter fun w => inGrants secs w.2.1).map fun w => (w.1, w.2.2)
  (sortOn id (ws.map Prod.fst)).eraseDups.flatMap fun k => (ws.filter fun w => w.1 == k).map Prod.snd

/-- The state an event leaves. -/
def State.after (s : State) (o : Host.Outcome State Fault Refusal) : State := match o with | .next x => x | _ => s

/-- One access that has waited is served (R314). -/
def State.serveSaved (s : State) (w : SavedWait) : State :=
  match w with
  | .request id =>
    match s.flight? id with
    | some f => ((s.parkFree f).modFlight f.id fun x => { x with stage := .sent }).arrive { f with stage := .sent }
    | none => s
  | .store t =>
    match s.thread? t with
    | none => s
    | some th => match th.storeQ with
      | e :: _ => if e.leftAt.isSome then s.checkEntry t th e else s
      | [] => s
  | .lane id lane => s.after (execPlainAccessArrival id lane s)
  | .copy n id =>
    match (s.core n).copies.find? fun c => c.id == id with
    | some c => if c.record.isNone then s.copyNext n c else s
    | none => s
  | .load n => s.after (execMxLdbLoad n s)
  | .row n => s.after (execDrainDoneFill n s)

/-- What has waited at a band's words is served in order (R314). -/
def State.unparkSaved (s : State) (secs : List Section) : State :=
  (s.parkedIn secs).foldl State.serveSaved { s with savedWaits := s.savedWaits.filter fun w => !inGrants secs w.2.1 }

/-- A core passes from holding no band to holding one again (R301). -/
def State.wakeCore (s : State) (b : BandRef) (n : Nat) : State := if s.coreHeld b n then s else s.modCore n Core.firstBand

/-- A word of the band's record has an uncorrectable error (R317). -/
def State.recordSpoilt (s : State) (v : SavedBand) : Bool := (List.range (v.bytes / 8)).any fun i => s.eccAt (v.key + 8 * i)

/-- The words of a record are read: single-bit errors are corrected (R349). -/
def State.correctRecord (s : State) (v : SavedBand) : State := (List.range (v.bytes / 8)).foldl (fun a i => a.correct (v.key + 8 * i)) s

/-- A saved band that cannot come back is lost (R312, R317). -/
def State.loseSaved (s : State) (b : Band) : State :=
  (s.modBand b.ref fun x => { x with state := .lost }).modLaunch b.ref.ctx b.ref.launch fun l => { l with lost := true }

/-- One band of a closed set resumes from its record (R305, R311-R314); with another version (R312) or an uncorrectable error in it,
which is reported (R317, R350), it is lost. -/
def State.resumeBand (s : State) (b : Band) (v : SavedBand) : State :=
  let secs := s.savedSections b v
  let r := planOf b v.bars.length secs
  if s.recordSpoilt v then (s.eccOn (homeDie v.key) deviceUnit).loseSaved b
  else if !s.versionsOk b v r then s.loseSaved b
  else
    let s := s.correctRecord v
    let away := s.beat - v.beat
    let img (i : Nat) (j : Nat) : Word := s.readWord (v.key + r.b4 + 6144 * i + 8 * j)
    let s0 := (secs.map Section.core).foldl (fun a n => a.wakeCore b.ref n) s
    let s1 := s0.restoreSections b.ref v (v.key + r.b3) secs
    let s1 := if (s1.savedOf? b.ref.ctx b.cluster).isSome then s1.passArray b.cluster b.ref.ctx else s1
    let s2 := s1.modCluster b.cluster fun c => { c with
      barriers := c.barriers ++ v.bars.zipIdx.map fun p => s.restoreBarrier v r b.slots.length v.bars.length p.2 p.1 }
    let s3 := v.granted.foldl (fun a t => a.modSlot t fun sl => { sl with grant := some b.ref }) s2
    let s4 := v.threads.foldl (fun a m => a.setThread m.2.1 (m.2.2.resumeAt (img m.1) s.beat away)) s3
    let s5 := v.handlers.zipIdx.foldl (fun a p => a.setThread p.1.1 (p.1.2.resumeAt (img (b.slots.length + p.2)) s.beat away)) s4
    let s6 := v.pubs.foldl (fun a p => a.modCore p.1 fun c => { c with
      pub := some { p.2 with recent := [], heldPrev := false }
      away := match v.threads.find? fun m => m.2.1 == ⟨p.1, p.2.slot⟩ with
        | some m => imageAway (img m.1)
        | none => c.away }) s5
    let s7 := v.records.foldl State.putRecord s6
    let parked (id : Nat) : Bool := match s7.flight? id with
      | some f => (match f.stage with | .queued _ => true | _ => false)
      | none => false
    let s8 := v.queues.foldl (fun a q => a.setQueue q.1 (q.2.filter parked ++ a.queue q.1)) s7
    let s9 := (s8.modBand b.ref fun x => { x with state := .running, saved := none, group := 0 }).reattachAll v
    let s10 := (v.queues.foldl (fun a q => a.changed (q.1 / 8 * 8)) s9).unparkSaved secs
    v.pubs.foldl (fun a p => a.allThreads.foldl (fun c q => c.completeSub p.1 q.1) a) s10

/-- The publishers of some saved bands. -/
def publishersOf (bs : List Band) : List ThreadRef :=
  bs.flatMap fun x => match x.saved with | some v => v.pubs.map fun p => ⟨p.1, p.2.slot⟩ | none => []

/-- The publishers of a closed set that stand before an instruction begin it together (R305). DEDUCED: log 22. -/
def State.align (s : State) (ps : List ThreadRef) : State :=
  if ps.length ≤ 1 then s
  else ps.foldl (fun a t => a.modThread t fun th =>
    { th with together := if (match th.wait with | none => true | some w => w.kind.retries) then some s.serial else none }) s.tick

/-- A closed set resumes together (R305). -/
def State.resumeGroup (s : State) (b : Band) : State :=
  ((s.groupOf b).foldl (fun a x => match x.saved with | some v => a.resumeBand x v | none => a) s).align (publishersOf (s.groupOf b))

/-- BAND_RESUME (R302, R305): a saved band resumes, if that is the dispatcher's next move. -/
def execBandResume (b : BandRef) (s : State) : Host.Outcome State Fault Refusal :=
  match s.nextMove, s.band? b with
  | some (.resume c), some x => if c = b then .next (s.resumeGroup x) else .next s
  | _, _ => .next s

/-! ## FE_TIMEOUT and the dispatcher (R306) -/

/-- The slots a saved band was saved from. -/
def SavedBand.refs (v : SavedBand) : List ThreadRef := v.threads.map (fun p => p.2.1) ++ v.granted

/-- A pending band of higher priority than p, unstarted or saved, could use slots of a saved band now. -/
def State.wanted (s : State) (p : Nat) (v : SavedBand) : Bool :=
  (s.launches.any fun l => decide (p < l.rec_.prio) && (match l.candidate? with
    | some (b, _) =>
      (s.dieOrder l b).any fun d => (range (d * 16) 16).any fun cl =>
        match s.fitCluster l.ctx l.rec_ cl with
        | some f => (f.cores.zip f.slots).any fun x => v.refs.any fun t => t.core == x.1 && x.2.contains t.slot
        | none => false
    | none => false))
  || s.bands.any fun x => x.state == .saved && decide (p < s.bandPrio x.ref) && s.resumable x && (match x.saved with
    | some u => u.refs.any v.refs.contains
    | none => false)

/-- FE_TIMEOUT_REPORT (R306): every saved band of a priority below the reporting thread's whose own slots are vacant, and
of no use to a pending band of higher priority, resumes at once. -/
def execFeTimeoutReport (prio : Nat) (s : State) : Host.Outcome State Fault Refusal :=
  if !s.feReports.contains prio then .next s
  else
    let s0 := { s with feReports := s.feReports.erase prio }
    .next (s.bands.foldl (fun a b =>
      match a.band? b.ref with
      | some x =>
        match x.saved with
        | some v =>
          if x.state == .saved && decide (a.bandPrio x.ref < prio) && a.resumable x && !a.wanted (a.bandPrio x.ref) v then
            a.resumeGroup x
          else a
        | none => a
      | none => a) s0)

end Sys2Proof.Machine
end

