-- ==== Sys2Proof/Machine/Package.lean ====
section
/-! DEFINITION. The package: contexts (R329-R332), the timer (R335), power (R320, R353, R342), keys (R337), resets and
bring-up (R355, R356, R340), fencing (R351), scrubbing (R349), and the profiler (R346). -/

namespace Sys2Proof.Machine

/-! ## Contexts (R329-R332) -/

/-- A physical address that a context entry or a control register holds (R276): one beyond the tiers names no memory. DEDUCED: log 5. -/
def physKey (w : Word) : Nat := if w.toNat < 3 * 2 ^ 52 then w.toNat else 2 ^ 64 + w.toNat

/-- A word of a context's entry (R329). -/
def State.entryWord (s : State) (c i : Nat) : Word := s.readWord (physKey (s.ctxBase + ofN (128 * c)) + 8 * i)

/-- Columns and rows of a rectangle (R241). -/
def rectSize (rect : Word) : Nat × Nat :=
  ((wbits rect 23 16 + 192 - wbits rect 7 0) % 192 + 1, (wbits rect 31 24 + 128 - wbits rect 15 8) % 128 + 1)

/-- The logical cores of a rectangle in the order of the core table (R331). -/
def rectCores (rect : Word) : List Nat :=
  let d := rectSize rect
  (List.range (d.1 * d.2)).map fun i => 192 * ((wbits rect 15 8 + i / d.1) % 128) + (wbits rect 7 0 + i % d.1) % 192

/-- The core table of a context: logical and physical cores (R331). -/
def State.readCoreTab (s : State) (rect : Word) (ctab : Nat) : List (Nat × Nat) :=
  (rectCores rect).zipIdx.filterMap fun p =>
    let e := s.readMem (ctab + 2 * p.2) 2
    if bits e 15 15 = 1 ∧ bits e 14 10 < 24 then some (p.1, e % 2 ^ 15) else none

/-- The context an entry describes (R329); what the hardware has written of it before goes on, with the
context's measurement and breakpoints, until it is deactivated (DESIGN CHOICE, log 74). -/
def State.readContext (s : State) (c : Nat) : Context :=
  let w (i : Nat) : Word := s.entryWord c i
  let old := s.context? c
  { num := c
    conf := wbit (w 0) 1
    pennant := wbit (w 0) 2
    trace := wbit (w 0) 3
    kdbg := wbit (w 0) 4
    plim := wbits (w 0) 7 5
    key := wbits (w 0) 18 8
    hport := wbits (w 0) 19 19
    rect := w 1
    coreTab := s.readCoreTab (w 1) (physKey (w 2))
    routeTab := (List.range 576).map fun i => s.readMem (physKey (w 3) + i) 1
    save := physKey (w 4)
    saveSz := (w 5).toNat
    park := physKey (w 6)
    parkN := (w 7).toNat
    fq := physKey (w 8)
    fqN := (w 9).toNat
    plog := physKey (w 10)
    plogN := (w 11).toNat
    fwin := physKey (w 12)
    tbuf := physKey (w 13)
    tbufN := (w 14).toNat
    fqNext := (old.map Context.fqNext).getD 0
    plogNext := (old.map Context.plogNext).getD 0
    tbufNext := (old.map Context.tbufNext).getD 0
    breakpoints := (old.map Context.breakpoints).getD []
    measurement := (old.map Context.measurement).getD (List.replicate 64 0) }

/-- RECT is valid as a scope value with SYS = FAB = 0 (R241, R329). -/
def rectOk (rect : Word) : Bool := scopeOk rect && wbits rect 63 32 == 0

/-- A core table in which no core appears twice, and none in the table of another active context of the other kind
(R330). -/
def State.tableOk (s : State) (c : Context) : Bool :=
  let ns := c.coreTab.map Prod.snd
  decide (ns.eraseDups.length = ns.length)
    && !(s.contexts.any fun x => x.num != c.num && x.conf != c.conf && x.coreTab.any fun p => ns.contains p.2)

/-- KEY is a generated slot, confidential as the context is (R330). -/
def State.keyOk (s : State) (c : Context) : Bool :=
  match lookup? s.keys c.key with
  | some k => k.1 == c.conf
  | none => false

/-- STATUS of an activation (R330): the table is read only when RECT is valid. DEDUCED: log 54. -/
def State.activation (s : State) (c : Context) : Nat :=
  if !rectOk c.rect then 2 else if !s.tableOk c then 1 else if !s.keyOk c then 3 else 0

/-- The cores of a context that no context holds yet become its own, once the last holder's messages there are written and no
SQKILL names them (R187, R216); a core that is not free yet becomes its own when a band is placed there (R299). -/
def State.assignCores (s : State) (c : Context) : State :=
  c.coreTab.foldl (fun a p =>
    if ((a.core p.2).slots.toList.all fun sl => sl.ctx.isNone) && a.coreIdle p.2 then a.modCore p.2 fun x => x.assign c.num else a) s

/-- The post words of the window table of a context that becomes active are empty (R365). DESIGN CHOICE: log 45. -/
def State.emptyPosts (s : State) (c : Context) : State :=
  if c.fwin = 0 ∨ (s.context? c.num).isSome then s else (s.setFull (c.fwin + 8) false).setFull (c.fwin + 24) false

/-- CTX_ACTIVATE (R330): the entry and its tables are read, and STATUS is set. An entry that is not in use is not
activated; its STATUS is a free value (DESIGN CHOICE, log 40). -/
def execCtxActivate (s : State) : Host.Outcome State Fault Refusal :=
  match s.ctxActBusy with
  | none => .next s
  | some v =>
    if !wbit v 63 then .next s
    else
      let n := wbits v 11 0
      let done (s : State) (st : Nat) : Host.Outcome State Fault Refusal := .next { s with ctxActBusy := none, ctxActStatus := st }
      if !wbit (s.entryWord n 0) 0 then done { s with fresh := s.fresh + 1 } ((Config.freeWord (coreCount + s.fresh)).toNat % 16)
      else
        let c := s.readContext n
        let st := s.activation c
        if st ≠ 0 then done s st
        else done (({ s.emptyPosts c with contexts := (s.contexts.filter fun x => x.num != n) ++ [c] } : State).assignCores c) 0

/-- A core without a context that is no longer active. -/
def Core.unassign (ctx : Nat) (c : Core) : Core :=
  { c with slots := c.slots.map fun sl => if sl.ctx = some ctx then { sl with ctx := none } else sl }

/-- A cluster whose array a context no longer owns: reset (R224). -/
def Cluster.disown (ctx : Nat) (c : Cluster) : Cluster :=
  if c.owner = some ctx then { c with owner := none, weights := [], planes := Vector.replicate 4 Plane.blank } else c

/-- A context is active no more: its cores, its arrays and its prepared gang records are given up (R330, R382). -/
def State.dropContext (s : State) (n : Nat) : State :=
  { s with
    contexts := s.contexts.filter fun x => x.num != n
    cores := s.cores.map fun p => (p.1, p.2.unassign n)
    clusters := s.clusters.map fun p => (p.1, p.2.disown n)
    savedArray := s.savedArray.filter fun x => x.1 != n
    prepared := s.prepared.filter fun x => x.ctx != n }

/-- CTX_DEACTIVATE (R330, R382): refused while the context holds a band, STATUS staying as it is. -/
def execCtxDeactivate (s : State) : Host.Outcome State Fault Refusal :=
  match s.ctxActBusy with
  | none => .next s
  | some v =>
    if wbit v 63 then .next s
    else
      let n := wbits v 11 0
      let s1 := { s with ctxActBusy := none }
      if s.bands.any fun b => b.ref.ctx == n then .next s1
      else .next { s1.dropContext n with ctxActStatus := 0 }

/-! ## TIMER (R335) -/

/-- TIMER (R334, R335): the beat has reached ctl.timer of a slot; it is posted once for each value written. DESIGN CHOICE: log 50. -/
def execTimer (t : ThreadRef) (s : State) : Host.Outcome State Fault Refusal :=
  let sl := s.slot t
  if sl.timer ≠ 0 ∧ sl.timer.toNat ≤ s.beat ∧ !sl.timerFired then
    .next (s.modSlot t fun x => { x.post 1 with timerFired := true })
  else .next s

/-! ## Power (R320, R342, R353) -/

/-- A power or thermal action is posted to the die control cores and masthead core 0 of I/O die 0, and recorded (R335,
R348). -/
def State.thermPost (s : State) (data : List Word) : State :=
  let s1 := (List.range 24).foldl (fun a d => a.postDie d 6) s
  (s1.postCore chiefCore 6).record 24 4 0 data

/-- PWR_FSTEP_WRITE (R320, R334, R342): the step firmware wrote takes effect at a beat boundary, and ends what a current
trip forced. -/
def execPwrFstepWrite (s : State) : Host.Outcome State Fault Refusal :=
  match s.fstepPend with
  | none => .next s
  | some n => if s.boundary then .next { s with fstep := n, fstepPend := none, fstepHeld := false } else .next s

/-- POWER_CHECK (R353, R334): every 1,024 rotations the power controller takes the package power and the hottest sensor's
temperature, and, while the limit is exceeded, lowers the step by one at that beat boundary. DEDUCED: log 52. -/
def execPowerCheck (watts temp : Nat) (s : State) : Host.Outcome State Fault Refusal :=
  if s.powered ∧ s.beat % 1024 = 0 ∧ s.powerAt ≠ some s.beat ∧ s.boundary then
    let s1 := { s with pwrMeas := watts, pwrTemp := temp, powerAt := some s.beat }
    if s.pwrLimit < watts ∧ 0 < s.fstep then
      .next ({ s1 with fstep := s.fstep - 1 }.thermPost [ofN watts, ofN (s.fstep - 1)])
    else .next s1
  else .next s

/-- CURRENT_TRIP (R320, R342): the rail current has been above its limit for 10 µs; at the beat boundary the step becomes 0, until
firmware writes pwr.fstep again. -/
def execCurrentTrip (s : State) : Host.Outcome State Fault Refusal :=
  if s.powered ∧ s.boundary then .next ({ s with fstep := 0, fstepPend := none, fstepHeld := true }.thermPost [0, 0]) else .next s

/-- THERMAL_TRIP (R342): a sensor at 115 °C or more, 920 units of 0.125 °C, removes package power. DEDUCED: log 52. -/
def execThermalTrip (s : State) : Host.Outcome State Fault Refusal :=
  if 920 ≤ s.pwrTemp then .next { State.reset with agenda := s.agenda, fresh := s.fresh, powered := false } else .next s

/-! ## Keys (R337) -/

/-- KEY_GENERATE (R337): every memory controller holds a slot's new key, 64 bytes of the internal random source. -/
def execKeyGenerate (s : State) : Host.Outcome State Fault Refusal :=
  if s.keyBusy ∧ wbits s.keyCmd 1 0 = 0 then
    .next { s with
      keys := insertKey s.keys (wbits s.keyCmd 12 2) (wbit s.keyCmd 13, s.fresh)
      fresh := s.fresh + 64
      keyBusy := false }
  else .next s

/-- KEY_ERASE (R337): the slot holds no key any more. -/
def execKeyErase (s : State) : Host.Outcome State Fault Refusal :=
  if s.keyBusy ∧ wbits s.keyCmd 1 0 = 1 then
    .next { s with keys := eraseKey s.keys (wbits s.keyCmd 12 2), keyBusy := false }
  else .next s

/-! ## Cold and package reset (R355) -/

/-- COLD_RESET (R355): the whole package from power-on; only the fuses are kept. Slot 0 of the key unit is generated
afresh (R337). -/
def execColdReset (s : State) : Host.Outcome State Fault Refusal :=
  .next { State.reset with agenda := s.agenda, fresh := s.fresh + 64, keys := [(0, false, s.fresh)] }

/-- The recorder of a die, which a reset keeps (R348, R355). -/
def Die.recorderOnly (d : Die) : Die := { Die.blank with recorder := d.recorder, frSeq := d.frSeq }

/-- What becomes of a launch when some of its bands go (R317, R352): those that can be restarted are pending again with
their snapshots, and the launch is lost with any other. -/
def Launch.afterLoss (l : Launch) (again : List (Nat × List Region)) (lost : Bool) : Launch :=
  { l with redo := again.foldl (fun r x => insertKey r x.1 x.2) l.redo, lost := l.lost || lost }

/-- A band that a fault takes can be restarted: it had not begun, or it could be discarded (R309, R317). -/
def State.restartable (s : State) (b : Band) : Bool :=
  b.state == .placed || ((b.state == .running || b.state == .saving) && s.discards b)

/-- The launches after some bands have gone. -/
def State.launchesAfter (s : State) (bs : List Band) : List Launch :=
  s.launches.map fun l =>
    let mine := bs.filter fun b => b.ref.ctx == l.ctx && b.ref.launch == l.num
    l.afterLoss ((mine.filter s.restartable).map fun b => (b.ref.band, if b.state = .placed then b.restart else s.snapshots b))
      (mine.any fun b => !s.restartable b)

/-- A gang after a reset of its leader (R382): one without a decision will be aborted, whatever answers still come, and a
decided one tells every member again. -/
def Gang.afterReset (g : Gang) : Gang :=
  match g.decision with
  | none => { g with timeout := 0, startedAt := 0, members := g.members.map fun m => { m with ack := none }, ownAck := none }
  | some _ => { g with members := g.members.map fun m => { m with told := false, sentAt := 0 } }

/-- A key of far memory. -/
def isFar (key : Nat) : Bool := tierOf key == 1

/-- The package after its reset: flight recorders, far memory, accepted launches, and what the fabric and the gang unit
keep in far memory (R352, R355, R362, R382). DEDUCED: log 51. -/
def State.afterPackageReset (s : State) : State :=
  { State.reset with
    agenda := s.agenda
    fresh := s.fresh + 64
    serial := s.serial
    keys := [(0, false, s.fresh)]
    mem := s.mem.filter fun c => isFar c.1
    feFlips := s.feFlips.filter isFar
    unitKeys := s.unitKeys.filter fun u => isFar (64 * u.1)
    eccBad := s.eccBad.filter isFar
    eccSoft := s.eccSoft.filter isFar
    dies := s.dies.map fun p => (p.1, p.2.recorderOnly)
    recorder := s.recorder
    frSeq := s.frSeq
    fabricId := s.fabricId
    launchCounts := s.launchCounts
    launches := s.launchesAfter s.bands
    fabDone := s.fabDone
    fabTags := s.fabTags
    gangs := s.gangs.map Gang.afterReset
    gangCount := s.gangCount
    prepared := s.prepared.map fun p => { p with since := 0 } }

/-- PACKAGE_RESET (R355). -/
def execPackageReset (s : State) : Host.Outcome State Fault Refusal :=
  if s.powered then .next (s.afterPackageReset.record 24 5 0 [0, 0]) else .next s

/-! ## The loss of a die (R351, R355, R317) -/

/-- A key of a die's near memory or of a scratchpad or RECORD area of one of its cores. -/
def onDie (d key : Nat) : Bool :=
  (tierOf key == 0 && homeDie key == d)
    || (tierOf key == 3 && dieOf (keyCore key) == d)

/-- A band of which something lies on a die: a core it was placed on or saved from, a thread, or a packet bound for the die
(R305, R351). -/
def State.bandOn (s : State) (d : Nat) (b : Band) : Bool :=
  (b.cores.any fun n => dieOf n == d) || ((s.threadsOf b.ref).any fun p => dieOf p.1.core == d)
    || (match b.saved with | some v => v.refs.any fun t => dieOf t.core == d | none => false)
    || ((s.packets ++ s.cores.flatMap (fun p => p.2.arrivals) ++ s.dies.flatMap fun p => p.2.ring).any fun k =>
        k.ctx == b.ref.ctx && k.launch == b.ref.launch && k.band == b.ref.band && dieOf k.dest == d)

/-- The cores whose channel a die carries: those of the die, and those with a member there (R351). -/
def State.channelsThrough (s : State) (d : Nat) : List Nat :=
  s.cores.filterMap fun p => match p.2.pub with
    | some b => if dieOf p.1 = d ∨ b.members.any (fun m => dieOf m.core == d) then some p.1 else none
    | none => none

/-- The resume PC of the publication of a core: where its publisher would have issued its next channel instruction
(R178). -/
def State.resumeOf (s : State) (n : Nat) : Word :=
  match (s.core n).pub.bind fun b => s.thread? ⟨n, b.slot⟩ with
  | some th => if th.mode = .trap then th.trapPc else th.pc
  | none => 0

/-- The band's threads are gone, its packets too wherever they stand (R317), and its grants are released. -/
def State.loseBand (s : State) (b : Band) : State :=
  let refs := (s.threadsOf b.ref).map Prod.fst
  let s1 := refs.foldl (fun a t => match a.thread? t with
    | some th => ((if th.halted then a else (a.unsubscribe t th).uncount th).withdrawAll t).dropThread t
    | none => a) s
  let s2 := ({ s1 with
    cores := s1.cores.map fun p => (p.1, p.2.without b.ref)
    barMsgs := s1.barMsgs.filter fun m => m.band != b.ref
    packets := s1.packets.filter fun k => k.bandRef != b.ref
    dies := s1.dies.map fun p => (p.1, { p.2 with ring := p.2.ring.filter fun k => k.bandRef != b.ref }) } : State)
  (s2.withdrawDetached b).releaseBand b.ref

/-- A core of a lost die: nothing but a publication whose members still have to leave (R351). -/
def Core.lose (c : Core) : Core :=
  { Core.blank with pub := c.pub, recSeq := c.recSeq, slots := c.slots.map fun sl => { Slot.blank with ctx := sl.ctx } }

/-- The clusters, translation units and cores of a lost die. -/
def State.loseParts (s : State) (d : Nat) : State :=
  { s with
    cores := s.cores.map fun p => if dieOf p.1 = d then (p.1, p.2.lose) else p
    clusters := s.clusters.map fun p => if p.1 / 16 = d then (p.1, Cluster.blank) else p
    xlat := s.xlat.map fun p => if p.1 / 16 = d then (p.1, XlatUnit.blank) else p }

/-- A request parked at a holder of a lost die is withdrawn with ECC_UNCORRECTABLE (R351). -/
def State.loseFlight (s : State) (d id : Nat) : State :=
  match s.flight? id with
  | none => s
  | some f =>
    if onDie d f.key && f.stage != .toSend && f.stage != .remote then
      let s1 := s.unjoin f
      let s2 := { s1.modFlight id fun x => { x with stage := .sent } with
        holds := s1.holds.filter fun h => h.owner != id }
      match s2.flight? id with
      | some x => s2.failEcc x
      | none => s2
    else s

/-- A die is lost: its bands, its channels, and what is parked there (R351). DEDUCED: log 51. -/
def State.loseDie (s : State) (d : Nat) : State :=
  let bs := s.bands.filter (s.bandOn d)
  let ls := s.launchesAfter bs
  let s1 := (s.channelsThrough d).foldl (fun a n => a.endPublication n (s.resumeOf n)) s
  let s2 := (bs.foldl State.loseBand { s1 with launches := ls } : State).loseParts d
  (s.flights.map Flight.id).foldl (fun a id => a.loseFlight d id) s2

/-- DIE_FENCE (R351): a compute die has failed irrecoverably. -/
def execDieFence (die : Nat) (s : State) : Host.Outcome State Fault Refusal :=
  if die < 24 ∧ !(s.die die).fenced ∧ s.powered then
    .next (((s.modDie die fun x => { x with fenced := true }).loseDie die).eccEvent (dctlBase + die))
  else .next s

/-- The thread with which a control core or masthead core leaves reset: control mode, slot 0, PC 0 (DEDUCED, log 41). -/
def firmwareThread (s : State) : Thread := { Thread.blank with mode := .control, notBefore := s.beat + 1, bornAt := some s.beat }

/-- The cores whose firmware a die's release starts: its translation service cores, cluster control cores and die control core,
or an I/O die's masthead cores (R67, R375). Masthead core 0 of I/O die 0 has run since the package firmware was verified. -/
def firmwareCores (d : Nat) : List Nat :=
  if d < 24 then range (tsvcBase + 16 * d) 16 ++ range (cctlBase + 16 * d) 16 ++ [dctlBase + d]
  else (range (mastBase + 16 * (d - 24)) 16).filter fun n => n != chiefCore

/-- A die is released from reset (R340, R356). -/
def State.releaseDie (s : State) (d : Nat) : State :=
  (firmwareCores d).foldl (fun a n => a.setThread ⟨n, 0⟩ (firmwareThread s)) (s.modDie d fun x => { x with released := true })

/-- DIE_RESET (R355): one compute die, by order of the package firmware; its near memory and scratchpads are as after a
reset, its flight recorder is kept, and a fence stays until package reset (R351). -/
def execDieReset (die : Nat) (s : State) : Host.Outcome State Fault Refusal :=
  if die < 24 ∧ (s.die die).released ∧ s.powered then
    let s1 := s.loseDie die
    let s2 := { s1 with
      mem := s1.mem.filter fun c => !onDie die c.1
      feFlips := s1.feFlips.filter fun k => !onDie die k
      eccBad := s1.eccBad.filter fun k => !onDie die k
      eccSoft := s1.eccSoft.filter fun k => !onDie die k
      eccCache := s1.eccCache.filter fun k => !onDie die k
      unitKeys := s1.unitKeys.filter fun u => !onDie die (64 * u.1) }
    let s3 := s2.modDie die fun x => { x.recorderOnly with fenced := x.fenced }
    .next ((s3.releaseDie die).record die 5 die [ofN die, 0])
  else .next s

/-! ## Bring-up (R340, R341, R356) -/

/-- An image passes the checks of R340: the key it comes with is the vendor key by its fused hash, its Ed448 signature under
that key is valid, and its rollback index is not below the fused counter. -/
def imageOk (x : BootImage) : Bool :=
  Config.shake256 x.key == Config.fusedKeyHash && decide (x.sig.length = 114) && Config.ed448Valid x.key x.image x.sig
    && decide (Config.fusedRollback ≤ x.rollback)

/-- Each verification extends the firmware measurement with the image's digest (R341). -/
def State.measure (s : State) (digest : List Byte) : State := { s with measurement := Config.shake256 (s.measurement ++ digest) }

/-- A failed stage leaves BOOTSTAT at 15 with the stage's code (R340, R356). DEDUCED: log 53. -/
def State.bootFailed (s : State) (code : Nat) : State := { s with bootStage := 15, bootFail := code }

/-- Images of one die: its control core's and its service cores', or an I/O die's masthead image (R340). DESIGN CHOICE: log 53. -/
def imagesOf (d : Nat) : Nat := if d < 24 then 2 else 1

/-- The package firmware verifies the images of a die before it releases it, die after die in ascending order; bring-up ends at
the first that is refused (R340, R341, R356). -/
def State.bootDies : List Nat → List BootImage → State → Except State State
  | [], _, s => .ok s
  | d :: r, xs, s =>
    let mine := xs.take (imagesOf d)
    if mine.length = imagesOf d ∧ mine.all imageOk then
      State.bootDies r (xs.drop (imagesOf d)) ((mine.foldl (fun a x => a.measure (Config.shake256 x.image)) s).releaseDie d)
    else .error s

/-- BOOT_STAGE (R340, R356): bring-up advances by one stage. Stage 1 takes the package firmware image; at stage 2, with far
memory trained, the beat starts at step 18, and the verified firmware runs on masthead core 0 of I/O die 0; stage 3 takes the
images of compute dies 0-23 and then of the I/O dies, and the halyard's test. trained and tested say whether training and test
succeed. -/
def execBootStage (images : List BootImage) (trained tested : Bool) (s : State) : Host.Outcome State Fault Refusal :=
  if !s.powered then .next s
  else match s.bootStage with
  | 0 =>
    match images with
    | [x] => if imageOk x then .next { s.measure (Config.shake256 x.image) with bootStage := 1 } else .next (s.bootFailed 1)
    | _ => .next (s.bootFailed 1)
  | 1 =>
    if trained then
      let s1 := { s with bootStage := 2, beat := 0, fstep := 18 }
      .next (s1.setThread ⟨chiefCore, 0⟩ (firmwareThread s1))
    else .next (s.bootFailed 2)
  | 2 =>
    match State.bootDies (List.range 28) images s with
    | .ok t => .next (if tested then { t with bootStage := 3 } else t.bootFailed 3)
    | .error t => .next (t.bootFailed 3)
  | 3 => .next { s with bootStage := 4 }
  | _ => .next s

/-! ## Scrubbing and profiling (R349, R346) -/

/-- SCRUB (R349): near and far memory are scrubbed, every soft error corrected and counted. -/
def execScrub (s : State) : Host.Outcome State Fault Refusal :=
  .next ((s.eccSoft.filter fun k => decide (tierOf k < 2)).foldl State.correct s)

/-- Lists of counts added place by place. -/
def addCounts (a b : List Nat) : List Nat := a.zipWith (· + ·) b

/-- rot.issued, rot.mem, rot.msg and rot.vacant of a context on a core: of its threads there, of those that have left, and of
its slots without a thread (R157, R346). -/
def Core.rotOf (ctx : Nat) (c : Core) : List Nat :=
  c.slots.toList.foldl (fun a sl => match sl.thread with
    | some th => if th.ctx = ctx then addCounts a [th.rotIssued, th.rotMem, th.rotMsg, th.rotVacant] else a
    | none => if sl.ctx = some ctx then addCounts a [0, 0, 0, sl.vacantCount] else a) (lookupD c.rotEnded ctx [0, 0, 0, 0])

/-- The cores of a die that a context holds. -/
def State.coresHeld (s : State) (die ctx : Nat) : List Core :=
  s.cores.filterMap fun p => if dieOf p.1 = die ∧ s.heldBy p.1 ctx then some p.2 else none

/-- The sums of a context on a die: rot.*, rot.hist*, and tc.*, which a confidential context does not show (R339,
R346). -/
def State.profileOf (s : State) (die : Nat) (c : Context) : List Nat :=
  let cs := s.coresHeld die c.num
  let rot := cs.foldl (fun a x => addCounts a (x.rotOf c.num)) (List.replicate 4 0)
  let hist := cs.foldl (fun a x => addCounts a x.rotHist.toList) (List.replicate 9 0)
  let tc := cs.foldl (fun a x => addCounts a x.tc.toList) (List.replicate 64 0)
  rot ++ hist ++ (if c.conf then List.replicate 64 0 else tc)

/-- PROFILER_SUM (R346): every 65,536 rotations a die's profiler, an I/O die's too, sums the counters of each context. -/
def execProfilerSum (die : Nat) (s : State) : Host.Outcome State Fault Refusal :=
  if die < 28 ∧ s.beat % 65536 = 0 then
    .next (s.modDie die fun d => { d with profile := s.contexts.map fun c => (c.num, s.profileOf die c) })
  else .next s

end Sys2Proof.Machine
end

