-- ==== Sys2Proof/Machine/Debug.lean ====
section
/-! DEFINITION. Firmware debug (R344) and kernel debug sessions (R343). -/

namespace Sys2Proof.Machine

/-! ## Firmware debug (R344) -/

/-- A debug request is posted to the die control cores (R335). -/
def State.debugPost (s : State) : State := (List.range 24).foldl (fun a d => a.postDie d 8) s

/-- DEBUG_CHALLENGE (R344): the key unit presents a random value of 32 bytes, and a challenge is outstanding. -/
def execDebugChallenge (s : State) : Host.Outcome State Fault Refusal :=
  if s.powered then
    .next { s with challenge := some ((range s.fresh 32).map Config.randomByte), fresh := s.fresh + 32 }.debugPost
  else .next s

/-- The word "debug" (R344). -/
def debugWord : List Byte := [0x64, 0x65, 0x62, 0x75, 0x67]

/-- DEBUG_SIGNATURE (R344, R341): a valid signature of the challenge by the vendor debug key unlocks firmware debug until
package reset and extends the firmware measurement with the digest of the word "debug". -/
def execDebugSignature (sig : List Byte) (s : State) : Host.Outcome State Fault Refusal :=
  match s.challenge with
  | none => .next s
  | some c =>
    if sig.length = 114 ∧ Config.ed448Valid Config.debugKey c sig then
      .next (({ s with challenge := none, dbgUnlocked := true }.measure (Config.shake256 debugWord)).record 24 8 0 [0, 0])
    else .next s

/-! ## Kernel debug sessions (R343) -/

/-- A thread stands at an instruction boundary. -/
def Thread.atBoundary (th : Thread) : Bool :=
  th.busy == 0 && th.trapPend.isNone && (match th.wait with | none => true | some w => w.kind.retries)

/-- A request of a session is posted to the control core of the thread's die (R335, R343). -/
def State.sessionPost (s : State) (t : ThreadRef) : State := s.postDie (dieOf t.core) 8

/-- DEBUG_STOP (R343): a thread stops at its next instruction boundary; a halted one is kept for the session. -/
def execDebugStop (t : ThreadRef) (s0 : State) : Host.Outcome State Fault Refusal :=
  let s := s0.sessionPost t
  match s.thread? t with
  | none => .next s
  | some th =>
    if !s.sessionReaches th || th.stopped then .next s
    else if th.halted then .next (s.setThread t { th with stopped := true })
    else if th.atBoundary then .next (s.stopThread t)
    else .next s

/-- The save image of a thread may be read and written: it has stopped, and everything of R80 is over. -/
def Thread.imageReady (th : Thread) : Bool := th.stopped && th.settled && th.storeQ.isEmpty && th.pending == 0

/-- Word i of a stopped thread's image written (R80, R81): the image with that word replaced is restored. -/
def State.writeImage (s : State) (t : ThreadRef) (th : Thread) (i : Nat) (v : Word) : State :=
  let w (j : Nat) : Word := if j = i then v else s.imageOf t th j
  let s1 := s.setThread t (th.restore w s.beat)
  if th.sq = .publishing then s1.modCore t.core fun c => { c with away := imageAway w } else s1

/-- DEBUG_IMAGE_ACCESS (R343, R81): a session reads or writes a word of a stopped thread's save image; of a confidential
context it reads ciphertext, and its writes are discarded and logged (R338, R339). -/
def execDebugImageAccess (t : ThreadRef) (off : Nat) (wr : Option Word) (s0 : State) : Host.Outcome State Fault Refusal :=
  let s := s0.sessionPost t
  match s.thread? t with
  | none => .next s
  | some th =>
    if !s.sessionReaches th || !th.imageReady || decide (6144 ≤ off) || off % 8 != 0 then .next s
    else
      let key : Option Nat := match s.context? th.ctx with | some c => if c.conf then some c.key else none | none => none
      match wr, key with
      | none, none => .next { s with hostRead := leBytes 8 (s.imageOf t th (off / 8)).toNat }
      | none, some k =>
        let block := [off / 16 * 2, off / 16 * 2 + 1].flatMap fun i => leBytes 8 (s.imageOf t th i).toNat
        .next { s with hostRead := (range off 8).map fun a => Config.cipherByte k (s.keyNow k).2 a block }
      | some v, none => .next (s.writeImage t th (off / 8) v)
      | some _, some _ => .next (s.logAdmin [ofN 338, ofN off])

/-- DEBUG_RESUME (R343): a stopped thread goes on from the next rotation. A halted one that was kept past its band's end leaves
its slot (R316; DEDUCED, log 32). -/
def execDebugResume (t : ThreadRef) (s0 : State) : Host.Outcome State Fault Refusal :=
  let s := s0.sessionPost t
  match s.thread? t with
  | none => .next s
  | some th =>
    if s.sessionReaches th ∧ th.stopped then
      if th.halted ∧ (s.band? th.bandRef).isNone then .next (s.dropThread t)
      else .next (s.setThread t { th with stopped := false, notBefore := s.beat + 1 })
    else .next s

/-- BREAKPOINT_SET (R343): one of a context's four breakpoints is set or removed. -/
def execBreakpointSet (ctx idx : Nat) (pc : Option Word) (s : State) : Host.Outcome State Fault Refusal :=
  if s.sessionMay ctx ∧ idx < 4 then
    .next (s.debugPost.modContext ctx fun c => { c with breakpoints := match pc with
      | some a => insertKey c.breakpoints idx a
      | none => eraseKey c.breakpoints idx })
  else .next s

end Sys2Proof.Machine
end

