-- ==== Sys2Proof/Machine/Fabric.lean ====
section
/-! DEFINITION. The fabric: flits and replay (R357-R359), transactions (R360, R361), exactly-once requests at their home
and at their source (R362, R363, R366, R368). -/

namespace Sys2Proof.Machine

/-! ## Transactions as bytes (R360, R361) -/

/-- CLASS of an operation; none for an operation R361 does not name. -/
def opClass (op : Nat) : Option Nat :=
  if 1 ≤ op ∧ op ≤ 11 then some 0
  else if op = 16 then some 1
  else if 20 ≤ op ∧ op ≤ 22 then some 2
  else if 24 ≤ op ∧ op ≤ 30 then some 3
  else none

/-- The words of a transaction: its header and its payload (R360). -/
def txWords (t : FabTx) : List Word :=
  [ofN ((opClass t.op.toNat).getD 0 + t.op.toNat * 2 ^ 2 + t.payload.length % 256 * 2 ^ 8 + t.src.toNat * 2 ^ 16
      + t.ctx.toNat * 2 ^ 32 + t.operand.toNat * 2 ^ 44),
   ofN (t.tag.toNat + t.stream.toNat * 2 ^ 40), t.addr] ++ t.payload

/-- Its bytes. -/
def txBytes (t : FabTx) : List Byte := (txWords t).flatMap fun w => leBytes 8 w.toNat

/-- The transaction whose words these are (R360): its three header words and its LEN payload words. What the header has no
field for is a free value (DESIGN CHOICE, log 42). -/
def readTx (ws : List Word) : Option FabTx :=
  match ws with
  | w0 :: w1 :: w2 :: r =>
    let src := wbits w0 31 16
    let tag := wbits w1 39 0
    let stream := wbits w1 44 40
    if wbits w0 15 8 ≤ r.length then
      some {
        op := BitVec.ofNat 6 (wbits w0 7 2), src := BitVec.ofNat 16 src, ctx := BitVec.ofNat 12 (wbits w0 43 32)
        sctx := BitVec.ofNat 12 (Config.sourceContext src stream tag), operand := BitVec.ofNat 8 (wbits w0 51 44)
        tag := BitVec.ofNat 40 tag, stream := BitVec.ofNat 5 stream, oldest := BitVec.ofNat 40 (Config.oldestTag src stream tag)
        addr := w2, payload := r.take (wbits w0 15 8) }
    else none
  | _ => none

/-- Flits of a transaction with LEN payload words (R360). -/
def flitsOf (len : Nat) : Nat := cdiv (24 + 8 * len) 56

/-- The payloads of a transaction's flits, the last one filled up with zeros. -/
def txFlits (t : FabTx) : List (List Byte) :=
  (List.range (flitsOf t.payload.length)).map fun i =>
    let b := ((txBytes t).drop (56 * i)).take 56
    b ++ List.replicate (56 - b.length) 0

/-! ## Flits (R358) -/

/-- One bit of CRC-32C, reflected. -/
def crcBit (c : Nat) : Nat := if c % 2 = 1 then Nat.xor (c / 2) 0x82F63B78 else c / 2

/-- One byte of CRC-32C. -/
def crcByte (c : Nat) (b : Byte) : Nat :=
  crcBit (crcBit (crcBit (crcBit (crcBit (crcBit (crcBit (crcBit (Nat.xor c b.toNat))))))))

/-- CRC-32C (R358). -/
def crc32c (bs : List Byte) : Nat := Nat.xor (bs.foldl crcByte 0xFFFFFFFF) 0xFFFFFFFF

/-- A flit (R358). -/
def mkFlit (seq kind ack : Nat) (payload : List Byte) : List Byte :=
  let b := leBytes 2 (seq % 4096 + kind * 4096) ++ leBytes 2 (ack % 4096) ++ payload
  b ++ leBytes 4 (crc32c b)

/-- A flit without transaction data. -/
def bareFlit (kind ack : Nat) : List Byte := mkFlit 0 kind ack (List.replicate 56 0)

/-- A flit's CRC is good. -/
def flitGood (f : List Byte) : Bool := decide (f.length = 64) && crc32c (f.take 60) == ofLeBytes (f.drop 60)

/-- SEQ, KIND and ACK of a flit. -/
def flitSeq (f : List Byte) : Nat := ofLeBytes (f.take 2) % 4096
def flitKind (f : List Byte) : Nat := ofLeBytes (f.take 2) / 4096
def flitAck (f : List Byte) : Nat := ofLeBytes ((f.drop 2).take 2) % 4096

/-! ## Links (R357, R359) -/

/-- The link of a port. -/
def State.link (s : State) (p : Nat) : Link := lookupD s.links p Link.blank
/-- A link changed. -/
def State.modLink (s : State) (p : Nat) (f : Link → Link) : State := { s with links := insertKey s.links p (f (s.link p)) }

/-- ACK of an outgoing flit: the last SEQ received in order. -/
def Link.ack (l : Link) : Nat := (l.recvSeq + 4095) % 4096

/-- An ACK covers the data flits up to its SEQ: they leave the replay buffer. -/
def Link.covered (l : Link) (ack beat : Nat) : Link :=
  if l.replay.any fun e => e.1 == ack then
    { l with replay := (l.replay.dropWhile fun e => e.1 != ack).drop 1, progressAt := beat }
  else l

/-- A data flit sent and kept for replay. -/
def Link.sendData (l : Link) (payload : List Byte) (beat : Nat) : Link :=
  let f := mkFlit l.sendSeq 1 l.ack payload
  { l with
    sendSeq := (l.sendSeq + 1) % 4096
    replay := l.replay ++ [(l.sendSeq, f)]
    sent := l.sent ++ [f]
    progressAt := if l.replay.isEmpty then beat else l.progressAt }

/-- The replay after a NAK, from ACK + 1. -/
def Link.resend (l : Link) (ack beat : Nat) : Link :=
  let l1 := l.covered ack beat
  { l1 with sent := l1.sent ++ l1.replay.map Prod.snd }

/-- The transactions handed to a port leave, in order, while the replay buffer of 2,048 flits holds them. -/
def State.pump : Nat → State → Nat → State
  | 0, s, _ => s
  | n + 1, s, p =>
    match s.fabOut.find? fun x => x.1 == p with
    | none => s
    | some x =>
      let l := s.link p
      if l.up && decide (l.replay.length + (txFlits x.2).length ≤ 2048) then
        pump n { s.modLink p fun l => (txFlits x.2).foldl (fun a f => a.sendData f s.beat) l with
          fabOut := eraseFirst (fun x => x.1 == p) s.fabOut } p
      else s

/-- Every port sends what it can. -/
def State.pumpAll (s : State) : State := s.links.foldl (fun a p => a.pump (a.fabOut.length + 1) p.1) s

/-- LINK_INIT (R357): a port's link comes up, and the peers have exchanged their fabric identities. The words received
before stay, those of a transaction received in part among them (DESIGN CHOICE, log 75). -/
def execLinkInit (port : Nat) (peer : BitVec 16) (s : State) : Host.Outcome State Fault Refusal :=
  if port < 32 ∧ s.powered ∧ !(s.link port).up then
    .next (s.modLink port fun l => { Link.blank with
      ethernet := l.ethernet, eth := l.eth, up := true, peer := peer, sent := l.sent, received := l.received, progressAt := s.beat })
  else .next s

/-- LEN of the transaction whose first flit's payload this is. -/
def headLen (f : List Byte) : Nat := (f.getD 1 0).toNat
/-- OP of that transaction. -/
def headOp (f : List Byte) : Nat := (f.getD 0 0).toNat / 4

/-- Transactions received whole whose operation R361 does not name are dropped; how many were (R361). -/
def sift : Nat → List (List Byte) → List (List Byte) × Nat
  | 0, r => (r, 0)
  | n + 1, r =>
    match r with
    | [] => ([], 0)
    | f :: _ =>
      if (opClass (headOp f)).isNone && decide (flitsOf (headLen f) ≤ r.length) then
        let x := sift n (r.drop (flitsOf (headLen f)))
        (x.1, x.2 + 1)
      else (r, 0)

/-- The head of a port's received data is looked at: what R361 does not name is dropped and logged. -/
def State.siftPort (s : State) (p : Nat) : State :=
  let x := sift ((s.link p).received.length + 1) (s.link p).received
  if x.2 = 0 then s
  else (List.range x.2).foldl (fun a _ => a.logAdmin [ofN 361, ofN p]) (s.modLink p fun l => { l with received := x.1 })

/-- FLIT_RECEIVE (R358, R359): an ACK is noted; a data flit that is good and in order is accepted and acknowledged, any
other is dropped with a NAK, one for the flits dropped in a row; a NAK brings a replay; KIND 4-15 is discarded. DEDUCED: log 55. -/
def execFlitReceive (port : Nat) (flit : List Byte) (s : State) : Host.Outcome State Fault Refusal :=
  let l := s.link port
  if !l.up then .next s
  else
    let drop (s : State) : State :=
      if l.nakSent then s
      else s.modLink port fun l => { l with nakSent := true, sent := l.sent ++ [bareFlit 2 l.ack] }
    if !flitGood flit then .next (drop s)
    else if 4 ≤ flitKind flit then .next s
    else
      let s1 := s.modLink port fun l => l.covered (flitAck flit) s.beat
      match flitKind flit with
      | 1 =>
        if flitSeq flit = l.recvSeq then
          let s2 := s1.modLink port fun l =>
            let l1 := { l with
              recvSeq := (l.recvSeq + 1) % 4096
              received := l.received ++ [(flit.drop 4).take 56]
              nakSent := false }
            { l1 with sent := l1.sent ++ [bareFlit 0 l1.ack] }
          .next ((s2.siftPort port).pump (s2.fabOut.length + 1) port)
        else .next (drop s1)
      | 2 => .next ((s1.modLink port fun l => l.resend (flitAck flit) s.beat).record (24 + port / 8) 3 port [ofN port, 0])
      | _ => .next (s1.pump (s1.fabOut.length + 1) port)

/-- NAK (R359): the sender replays from ACK + 1. -/
def execNak (port : Nat) (ack : BitVec 12) (s : State) : Host.Outcome State Fault Refusal :=
  if (s.link port).up then
    .next ((s.modLink port fun l => l.resend ack.toNat s.beat).record (24 + port / 8) 3 port [ofN port, 0])
  else .next s

/-- A request is sent again with its tag, on the alternate port if its window has one (R363); after a withdraw, the
withdraw is. -/
def State.resendReq (s : State) (r : FabReq) : State :=
  let p := r.alt.getD r.port
  let tx := if r.withdrawSent then { r.tx with op := 11, payload := [] } else r.tx
  { s with
    fabReqs := modFirst (fun x => x.id == r.id && x.tx.tag == r.tx.tag) (fun x => { x with port := p, alt := x.alt.map fun _ => r.port }) s.fabReqs
    fabOut := s.fabOut ++ [(p, tx)] }

/-- LINK_FAIL (R359, R363): a link without progress for 2^20 rotations is declared failed, with a flight-recorder entry;
every request outstanding on it is sent again. Progress is asked for only while flits wait for an acknowledgement (DESIGN CHOICE, log
75). -/
def execLinkFail (port : Nat) (s : State) : Host.Outcome State Fault Refusal :=
  let l := s.link port
  if l.up ∧ !l.replay.isEmpty ∧ l.progressAt + 2 ^ 20 ≤ s.beat then
    let s1 := (s.modLink port fun l => { l with up := false, failed := true, replay := [] }).record (24 + port / 8) 3 port [ofN port, 1]
    .next ((s1.fabReqs.filter fun r => r.port == port).foldl State.resendReq s1)
  else .next s

/-! ## Taking a transaction from a link -/

/-- The port at the head of whose received data a transaction stands. -/
def State.headOf (s : State) (tx : FabTx) : Option Nat :=
  (s.links.find? fun p => (txBytes tx).isPrefixOf p.2.received.flatten).map Prod.fst

/-- The transaction at the head of a port's received data, once all its flits have come. -/
def Link.head? (l : Link) : Option FabTx := readTx (l.received.flatMap fun f => (List.range 7).map fun i => ofN (ofLeBytes ((f.drop (8 * i)).take 8)))

/-- A transaction at the head of a port's received data is taken. -/
def State.consume (s : State) (p : Nat) (tx : FabTx) : State :=
  (s.modLink p fun l => { l with received := l.received.drop (flitsOf tx.payload.length) }).siftPort p

/-! ## The home's side (R362, R366, R368) -/

/-- The completion window's reply to a request (R362). -/
def State.doneReply? (s : State) (tx : FabTx) : Option FabTx :=
  (s.fabDone.find? fun d => d.1 == tx.src.toNat && d.2.1 == tx.stream.toNat && d.2.2.1 == tx.tag.toNat).map fun d => d.2.2.2

/-- a is an older tag than b, the count of 40 bits wrapping (R362). -/
def tagOlder (a b : Nat) : Bool := let d := (b + 2 ^ 40 - a) % 2 ^ 40; d != 0 && decide (d < 2 ^ 39)

/-- Replies older than the source's oldest outstanding tag are freed (R362). -/
def State.freeReplies (s : State) (tx : FabTx) : State :=
  { s with fabDone := s.fabDone.filter fun d =>
      !(d.1 == tx.src.toNat && d.2.1 == tx.stream.toNat && tagOlder d.2.2.1 tx.oldest.toNat) }

/-- The reply with the oldest tag. -/
def oldestReply : List (Nat × Nat × Nat × FabTx) → Option (Nat × Nat × Nat × FabTx)
  | [] => none
  | d :: r => match oldestReply r with
    | some x => if tagOlder x.2.2.1 d.2.2.1 then some x else some d
    | none => some d

/-- A reply goes back by the port its request came from, and stays in the completion window, which holds those of the 4,096
most recent tags of its stream (R362). -/
def State.answer (s : State) (port : Nat) (tx : FabTx) (op status : Nat) (payload : List Word) : State :=
  let r : FabTx := { tx with
    op := BitVec.ofNat 6 op, src := s.fabricId, ctx := tx.sctx, sctx := tx.ctx, operand := BitVec.ofNat 8 status, oldest := 0
    payload := payload }
  let same (d : Nat × Nat × Nat × FabTx) : Bool := d.1 == tx.src.toNat && d.2.1 == tx.stream.toNat
  let all := s.fabDone ++ [(tx.src.toNat, tx.stream.toNat, tx.tag.toNat, r)]
  { s with
    fabDone := if (all.filter same).length ≤ 4096 then all else match oldestReply (all.filter same) with
      | some x => all.erase x
      | none => all
    fabOut := s.fabOut ++ [(port, r)] }

/-- Requests of remote packages that have been performed are answered. -/
def State.answerHome (s : State) : State :=
  s.homeReqs.foldl (fun a h =>
    if (a.flight? h.flight).isSome then a
    else
      let r := h.reply.getD (0, 0)
      { a.answer h.port h.tx 16 r.1 [r.2] with homeReqs := eraseFirst (fun x => x.flight == h.flight) a.homeReqs }) s

/-- A valid inbound grant of the target context names the source package and context with a permission (R365, R366);
the bit is RD 28, WR 29, FE 30 or XF 31. -/
def State.inbound (s : State) (tx : FabTx) (bit : Nat) : Bool :=
  match s.context? tx.ctx.toNat with
  | none => false
  | some c =>
    let nwin := wbits (s.fwinWord c 0) 6 0
    let nin := wbits (s.fwinWord c 0) 14 8
    (List.range nin).any fun j =>
      let w := s.fwinWord c (64 + 32 * nwin + 16 * j)
      wbit w 32 && wbits w 15 0 == tx.src.toNat && wbits w 27 16 == tx.sctx.toNat && wbit w bit

/-- What stands for a remote request in the checks of R192: the I/O die's translation unit (R376), and a thread of the
target context. -/
def homeSeat (port : Nat) : ThreadRef := ⟨mastBase + 16 * (port / 8), 0⟩
def homeThread (tx : FabTx) : Thread := { Thread.blank with ctx := tx.ctx.toNat }
def homeWaiter (port : Nat) : Nat := 2 ^ 64 + port

/-- An address of a remote request, translated in its target context as a GLOBAL access (R366). -/
def State.homeResolve (s : State) (port : Nat) (va : Word) (tx : FabTx) (bit : Nat) (a : Acc) : EngineXl :=
  if !s.inbound tx bit ∨ windowOf va ≠ .global then .bad .access
  else s.engineResolve (homeSeat port) (homeThread tx) va a false (homeWaiter port)

/-- A request refused at its home (R366); an uncorrectable error names its tier (R77) and is reported on the word's die (R335). -/
def State.answerBad (s : State) (port : Nat) (tx : FabTx) (reply : Nat) (c : Cause) (info : Word) : State :=
  match c, s.findEntry (homeSeat port).core tx.ctx.toNat tx.addr.toNat with
  | .eccUncorrectable, some e =>
    let k := e.keyOf tx.addr.toNat
    (s.eccOn (errDie k) 0).answer port tx reply c.code [s.eccTier k]
  | _, _ => s.answer port tx reply c.code [info]

/-- A request at its home: answered from the completion window, ignored while it is parked here, refused, waiting for a
translation, or carried out by act (none: not yet) (R362, R366). op says which operation the event is of, and reply with
which one a refusal is answered. -/
def State.homeRequest (s : State) (tx : FabTx) (op reply bit : Nat) (a : Acc)
    (act : State → Nat → Nat → Keying → Option State) : State :=
  if tx.op.toNat ≠ op then s
  else match s.headOf tx with
  | none => s
  | some port =>
    let s1 := (s.consume port tx).freeReplies tx
    match s1.doneReply? tx with
    | some r => { s1 with fabOut := s1.fabOut ++ [(port, r)] }
    | none =>
      if s1.homeReqs.any fun h => h.tx.src == tx.src && h.tx.stream == tx.stream && h.tx.tag == tx.tag then s1
      else match s.homeResolve port tx.addr tx bit a with
      | .miss => s.joinMiss (384 + port / 8) tx.ctx.toNat tx.addr a.kind (homeSeat port) (.req (homeWaiter port))
      | .bad c =>
        (s1.meetFailure (homeSeat port).core (.req (homeWaiter port))).answerBad port tx reply c a.info
      | .ok key e => ((act s1 port key (s.cipherFor (homeThread tx) e)).map State.answerHome).getD s

/-- A request that stands for a remote one at its holder (R368). -/
def State.parkHome (s : State) (tx : FabTx) (port : Nat) (kind : ReqKind) (key : Nat) (cipher : Keying) : State :=
  let f : Flight := {
    id := s.serial, thread := ⟨coreCount + s.serial, 0⟩, ctx := tx.ctx.toNat, kind := kind, va := tx.addr, key := key
    data := tx.payload.getD 0 0, data2 := tx.payload.getD 1 0, issuedAt := s.beat, budget := BitVec.allOnes 64, pc := 0
    scope := 0, stage := .sent, withdrawal := false, cipher := cipher, orphan := false, detached := none
    page := match s.findEntry (homeSeat port).core tx.ctx.toNat tx.addr.toNat with | some e => pageBytes e.size | none => 65536 }
  ({ s.send f with homeReqs := s.homeReqs ++ [⟨tx, port, f.id, none⟩] } : State).arrive f

/-- A remote request of one kind at its home. -/
def homeForm (tx : FabTx) (op bit : Nat) (a : Acc) (kind : ReqKind) (s : State) : Host.Outcome State Fault Refusal :=
  .next (s.homeRequest tx op 16 bit a fun s1 port key cipher => some (s1.parkHome tx port kind key cipher))

/-- FAB_LOAD (R368). -/
def execFabLoad (tx : FabTx) (s : State) :=
  homeForm tx 1 28 (accLoad (2 ^ (tx.operand.toNat % 4))) (.load (2 ^ (tx.operand.toNat % 4)) false) s

/-- FAB_STORE (R368): performed at once; it waits while an atomic holds its word (R196). -/
def execFabStore (tx : FabTx) (s : State) : Host.Outcome State Fault Refusal :=
  let n := 2 ^ (tx.operand.toNat % 4)
  .next (s.homeRequest tx 2 16 29 (accStore n) fun s1 port key cipher =>
    if s1.held key then none
    else some ((s1.writeAs cipher key n (tx.payload.getD 0 0).toNat).answer port tx 16 0 [0]))

/-- FAB_LD_W (R368). -/
def execFabLdW (tx : FabTx) (s : State) := homeForm tx 3 30 accFeRead .ldW s
/-- FAB_LD_T (R368). -/
def execFabLdT (tx : FabTx) (s : State) := homeForm tx 4 30 accFeTake .ldT s
/-- FAB_ST_F (R368). -/
def execFabStF (tx : FabTx) (s : State) := homeForm tx 5 30 accFeWrite .stF s
/-- FAB_ST_S (R368). -/
def execFabStS (tx : FabTx) (s : State) := homeForm tx 6 30 accFeWrite .stS s
/-- FAB_FE_CLR (R368). -/
def execFabFeClr (tx : FabTx) (s : State) := homeForm tx 7 30 accFeTake .feClr s
/-- FAB_FE_PROBE (R368). -/
def execFabFeProbe (tx : FabTx) (s : State) := homeForm tx 8 30 accFeRead .feProbe s
/-- FAB_AMO (R368): taken, computed and filled by the home as one request. -/
def execFabAmo (tx : FabTx) (s : State) := homeForm tx 9 30 accFeWrite (.amo tx.operand.toNat) s
/-- FAB_RED (R368). -/
def execFabRed (tx : FabTx) (s : State) := homeForm tx 10 30 accFeWrite (.red (redOp tx.operand.toNat)) s

/-- Status of a reply that confirms a withdrawal (R368; log 42). -/
def withdrawnStatus : Nat := 255

/-- A parked remote request taken out of its queue. -/
def State.unparkHome (s : State) (f : Flight) : State :=
  let s1 : State := match f.stage with
    | .queued _ => s.unjoin f
    | _ => { s with holds := s.holds.map fun (h : Hold) => { h with deferred := h.deferred.erase f.id } }
  ((s1.dropFlight f.id).unspill (holderOf f.key)).kickClaims

/-- FAB_WITHDRAW (R368): a withdraw removes the parked request with its tag, or is answered with the request's original
reply; the tag is answered so from then on, so that the request is not applied later (R362). -/
def execFabWithdraw (tx : FabTx) (s : State) : Host.Outcome State Fault Refusal :=
  if tx.op.toNat ≠ 11 then .next s
  else match s.headOf tx with
  | none => .next s
  | some port =>
    let s1 := (s.consume port tx).answerHome
    match s1.doneReply? tx with
    | some r => .next { s1 with fabOut := s1.fabOut ++ [(port, r)] }
    | none =>
      let s2 := match s1.homeReqs.find? fun h => h.tx.src == tx.src && h.tx.stream == tx.stream && h.tx.tag == tx.tag with
        | some h =>
          let s3 := match s1.flight? h.flight with | some f => s1.unparkHome f | none => s1
          { s3 with homeReqs := eraseFirst (fun x => x.flight == h.flight) s3.homeReqs }
        | none => s1
      .next (s2.answer port tx 16 withdrawnStatus [0])

/-! ## The source's side (R362, R363, R366, R368) -/

/-- trap.info of a form (R77). -/
def ReqKind.info : ReqKind → Word
  | .load .. | .vload .. => 0
  | .ldW | .feProbe => 2
  | _ => 3

/-- The cause a reply's status names (R366). -/
def causeOf (status : Nat) : Cause :=
  match status with
  | 4 => .unmapped | 7 => .feUnsupported | 16 => .eccUncorrectable | _ => .access

/-- A remote request has been performed at its home: its thread takes the result (R195, R200, R202). -/
def State.remoteDone (s : State) (f : Flight) (data : Word) : State :=
  let s1 := s.dropFlight f.id
  match f.kind with
  | .load n sg => s1.deliver f (.word (extend n sg data.toNat))
  | .ldT =>
    let s2 := s1.deliver f (.word data)
    if f.orphan || f.detached.isSome then s2 else s2.modThread f.thread fun th => th.noteTake f.va f.key
  | .stF =>
    if f.detached.isSome then s1.deliver f (.word 0)
    else if f.orphan then s1
    else (s1.noteFill f.thread f.va f.key).resume f.thread f.id
  | .amo _ => if f.detached.isSome || f.orphan then s1.deliver f (.word data) else (s1.deliver f (.word data)).resume f.thread f.id
  | .red _ => s1.modThread f.thread fun th => { th with pending := th.pending - 1 }
  | .stS | .feClr => s1
  | _ => s1.deliver f (.word data)

/-- A remote request has failed: reported as R366 gives for its form. None while a record finds no place, or its thread is
saved. -/
def State.remoteFailed (s : State) (f : Flight) (c : Cause) (info : Word) : Option State :=
  if f.orphan then some (s.dropFlight f.id)
  else if f.detached.isSome then none
  else match f.kind with
  | .stF | .amo _ =>
    let s1 := (s.dropFlight f.id).modThread f.thread fun th => { th with outs := th.outs.filter fun o => o.id != f.id }
    some (s1.raise f.thread c f.va info f.pc)
  | .stS | .feClr =>
    (s.recordFault f.thread c.code 0 f.pc f.va (if f.kind = .stS then f.data else 0)).map fun s1 => s1.dropFlight f.id
  | .red _ => s.reductionFault f c
  | _ => some ((s.deliver f (.fault c f.va info)).dropFlight f.id)

/-- An XFER changed. -/
def State.modXfer (s : State) (id : Nat) (f : Xfer → Xfer) : State := { s with xfers := modFirst (fun x => x.id == id) f s.xfers }

/-- Word i of an XFER's descriptor (R370). -/
def Xfer.word (x : Xfer) (i : Nat) : Word := x.desc.getD i 0

/-- The product of the counts (R370). -/
def Xfer.total (x : Xfer) : Nat := (List.range 5).foldl (fun a d => a * wbits (x.word (5 + d)) 31 0) 1

/-- The element an XFER has reached: every one before it has been written (R374). -/
def Xfer.at_ (x : Xfer) : Nat := x.next - x.got.length

/-- An XFER fails at the element it has reached (R374). -/
def Xfer.fail (x : Xfer) (cause : Nat) (a : Word) : Xfer :=
  { x with failed := some (x.at_, cause, a), waiting := none, filling := false, writes := [], got := [] }

/-- The first write of an XFER is over. -/
def Xfer.wrote (x : Xfer) : Xfer :=
  { x with
    waiting := none
    writes := x.writes.tail
    got := (if x.writes.length ≤ 1 then [] else x.got) }

/-- A remote write, fill or read of an XFER has its reply (R372, R374); read data arrive as elements read. -/
def State.xferReply (s : State) (id status : Nat) (unreachable : Bool) (va : Word) (payload : List Word) : State :=
  match s.xfers.find? fun x => x.id == id with
  | none => s
  | some x =>
    if status ≠ 0 then s.modXfer id fun x => x.fail (if unreachable then 0xFD else status) va
    else if x.filling then { s with xfers := eraseFirst (fun y => y.id == id) s.xfers }
    else if x.writes.isEmpty then
      s.modXfer id fun x => { x with waiting := none, next := x.next + 1, got := x.got ++ [(payload.dropLast, payload.getLastD 0 != 0)] }
    else s.modXfer id Xfer.wrote

/-- A request is over: with its reply, or given up as unreachable (R363, R366). None while its record finds no place. -/
def State.finishReq (s : State) (r : FabReq) (status : Nat) (unreachable : Bool) (payload : List Word) : Option State :=
  let s1 := { s with fabReqs := eraseFirst (fun x => x.id == r.id && x.tx.tag == r.tx.tag) s.fabReqs }
  let data := payload.getD 0 0
  let c := causeOf status
  match r.xfer, r.flight, r.store with
  | some id, _, _ => some (s1.xferReply id status unreachable r.va payload)
  | none, some id, _ =>
    match s1.flight? id with
    | none => some s1
    | some f =>
      if status = 0 then some (s1.remoteDone f data)
      else if status = withdrawnStatus then some (s1.modFlight id fun x => { x with stage := .withdrawn })
      else s1.remoteFailed f c (if c = .eccUncorrectable then data else f.kind.info ||| (if unreachable then 8 else 0))
  | none, none, some t =>
    if status = 0 then some s1
    else (s1.writeRecord t.core t.slot c.code 0 false (r.tx.operand.toNat % 4) r.pc r.va (r.tx.payload.getD 0 0)).map fun s2 =>
      match s2.thread? t with
      | some th => if th.halted then s2.moveRecords t th.ctx else s2
      | none => s2
  | none, none, none => some s1

/-- The outstanding request a reply is for (R362). -/
def State.reqOf (s : State) (tx : FabTx) : Option FabReq :=
  s.fabReqs.find? fun r => r.tx.tag == tx.tag && r.tx.stream == tx.stream

/-- A reply reaches its source; one that no request waits for is dropped. -/
def State.takeReply (s : State) (tx : FabTx) (op : Nat) : State :=
  if tx.op.toNat ≠ op then s
  else match s.headOf tx with
  | none => s
  | some port =>
    let s1 := s.consume port tx
    match s1.reqOf tx with
    | none => s1
    | some r => (s1.finishReq r tx.operand.toNat false tx.payload).getD s

/-- FAB_REPLY (R362, R366, R368). -/
def execFabReply (tx : FabTx) (s : State) : Host.Outcome State Fault Refusal := .next (s.takeReply tx 16)

/-- FAB_TMO (R363): after TMO without a reply the request is sent again with its tag; after TMO once more it is abandoned
with ACCESS, the home unreachable. DEDUCED: log 56. -/
def execFabTmo (id : Nat) (s : State) : Host.Outcome State Fault Refusal :=
  match s.fabReqs.find? fun r => r.id == id && decide (r.sentAt + r.tmo < s.beat) with
  | none => .next s
  | some r =>
    if r.expired = 0 then
      let s1 := s.resendReq r
      .next { s1 with fabReqs := modFirst (fun x => x.id == r.id && x.tx.tag == r.tx.tag) (fun x => { x with sentAt := s.beat, expired := 1 }) s1.fabReqs }
    else .next ((s.finishReq r 3 true [0]).getD s)

end Sys2Proof.Machine
end

