-- ==== Sys2Proof/Machine/Gangs.lean ====
section
/-! DEFINITION. The masthead dispatcher (R377) and the gang unit (R379-R382). -/

namespace Sys2Proof.Machine

/-! ## Masthead work (R377) -/

/-- A record masthead cores cannot run: not a single band, with barriers, or with more cores than are granted (R375,
R377). DEDUCED: log 38. -/
def State.mastheadBad (s : State) (ctx : Nat) (r : LaunchRec) : Bool :=
  r.bands != 1 || r.nbar != 0 || decide ((s.mastheadCores ctx).length < r.cores)

/-- MASTHEAD_POST (R377, R296): the masthead dispatcher takes the word in MHPOST and checks the record it names; it waits
while the context may accept no more, and for the record's pages. A word that names no record is dropped. -/
def execMastheadPost (ctx : Nat) (s : State) : Host.Outcome State Fault Refusal :=
  match s.context? ctx with
  | none => .next s
  | some c =>
    let k := c.fwin + 24
    if c.fwin == 0 || !s.full k || s.held k || s.bootStage != 4 then .next s
    else
      let taken (s : State) : State := (s.setFull k false).changed k
      let a := s.readWord k
      let s1 := taken (s.recordRead ctx a)
      match s.postCheck ctx a with
      | .wait => .next (s.askRecord ctx a)
      | .bad 5 => .next s
      | .bad _ => .next s1
      | .refused key reason => .next ((s1.setCtxField ctx key).fillWord .plain (key + 56) (refusal reason))
      | .ok key r =>
        if s.mastheadBad ctx r then .next ((s1.setCtxField ctx key).fillWord .plain (key + 56) (refusal 2))
        else .next (((s1.setCtxField ctx key).fillHeader key).accept ctx r true)

/-! ## Messages of gangs (R360, R361, R380) -/

/-- The gang tag: leader package and gang number (R380). -/
def gangTag (leader : BitVec 16) (num : Nat) : Word := ofN (num % 2 ^ 32 + leader.toNat * 2 ^ 32)

/-- The window of a member, valid and with WR (R381). -/
def State.gangWindow? (s : State) (ctx win : Nat) : Option FabWin :=
  s.fabWindow? ctx (0xFF80000000000000 + ofN (win * 2 ^ 48)) 2

/-- A control transaction handed to a port. DESIGN CHOICE: log 58. -/
def State.control (s : State) (port op target ctx operand : Nat) (tag : Word) (payload : List Word) : State :=
  let tx : FabTx := {
    op := BitVec.ofNat 6 op, src := s.fabricId, ctx := BitVec.ofNat 12 target, sctx := BitVec.ofNat 12 ctx
    operand := BitVec.ofNat 8 operand, tag := 0, stream := BitVec.ofNat 5 port, oldest := 0, addr := tag, payload := payload }
  { s with fabOut := s.fabOut ++ [(port, tx)] }

/-- A control transaction of one operation taken from its link. -/
def State.takeControl (s : State) (tx : FabTx) (op : Nat) : Option (Nat × State) :=
  if tx.op.toNat ≠ op then none else (s.headOf tx).map fun p => (p, s.consume p tx)

/-- The gang of this package a tag names. -/
def State.gangOf (s : State) (tag : Word) : Option Gang := s.gangs.find? fun g => gangTag s.fabricId g.num == tag

/-- A gang changed. -/
def State.modGang (s : State) (num : Nat) (f : Gang → Gang) : State := { s with gangs := modFirst (fun g => g.num == num) f s.gangs }

/-- A prepared record, by leader, gang and member. -/
def Prepared.is (p : Prepared) (leader : BitVec 16) (gang member : Nat) : Bool :=
  p.leader == leader && p.gang == gang && p.member == member

/-- A prepared record changed. -/
def State.modPrepared (s : State) (p : Prepared) (f : Prepared → Prepared) : State :=
  { s with prepared := modFirst (fun x => x.is p.leader p.gang p.member) f s.prepared }

/-! ## The member's side (R380, R382) -/

/-- Why a record that cannot even be addressed is refused: the manual gives no reason; a free value that is not 0 (DESIGN CHOICE, log 44). -/
def State.freeReason (s : State) : Nat := 1 + (Config.freeWord (coreCount + s.fresh)).toNat % 255

/-- What a member finds of its record (R380): 0, or the reason it answers with. -/
def State.memberAnswer (s : State) (ctx : Nat) (a : Word) : Nat :=
  match s.postCheck ctx a with
  | .ok _ _ => 0
  | .refused _ r => r
  | .bad 3 => 9
  | .bad 5 => 11
  | .bad _ | .wait => s.freeReason

/-- The STATUS word of a member's record filled with CODE 2 and a reason. -/
def State.memberStatus (s : State) (ctx : Nat) (a : Word) (reason : Nat) : State :=
  if a.toNat % 64 ≠ 0 then s
  else match s.deviceKey? ctx a .wr with
  | some key => s.fillWord .plain (key + 56) (refusal reason)
  | none => s

/-- The record of a member waits for a page or an atomic. -/
def State.memberWaits (s : State) (ctx : Nat) (a : Word) : Bool := s.postCheck ctx a == .wait

/-- The page of a record, when it is to be posted or discarded, is at hand and no atomic holds a word of it. -/
def State.memberReady (s : State) (ctx : Nat) (a : Word) : Bool := !(s.recordMiss? ctx a).isSome && !s.recordHeld ctx a

/-- A member checks a record, keeps it, and knows its answer (R380). -/
def State.prepare (s0 : State) (leader : BitVec 16) (gang member port ctx : Nat) (a : Word) (timeout : Nat) : State :=
  let r := s0.memberAnswer ctx a
  let s := s0.recordRead ctx a
  let s1 := if r = 0 then s else { s.memberStatus ctx a r with fresh := s.fresh + 1 }
  { s1 with prepared := s1.prepared ++ [{
      leader := leader, gang := gang, member := member, port := port, ctx := ctx, rec_ := a, timeout := timeout, since := s.beat
      answer := r, decided := none }] }

/-- A prepared record is posted as LAUNCH posts (R380). One whose page has gone since is dropped (DESIGN CHOICE, log 44). -/
def State.postPrepared (s : State) (p : Prepared) : State :=
  match s.deviceKey? p.ctx p.rec_ .wr with
  | none => s.deviceMet p.ctx
  | some key =>
    let ws := s.postWords p.ctx key
    let divs := (division (ws.getD 5 0) (s.deviceWord p.ctx)).getD []
    (((s.recordRead p.ctx p.rec_).setCtxField p.ctx key).fillHeader key).accept p.ctx (LaunchRec.parse ws (key + 56) divs) false

/-- A member learns the decision (R380): the prepared record is posted or discarded, once. None while a page of the record is
missing or an atomic holds a word of it. -/
def State.decide_ (s : State) (p : Prepared) (code : Nat) : Option State :=
  if p.decided.isSome then some s
  else if p.answer ≠ 0 then some (s.modPrepared p fun x => { x with decided := some code })
  else if !s.memberReady p.ctx p.rec_ then none
  else
    let s1 := s.modPrepared p fun x => { x with decided := some code }
    some (if code = 1 then s1.postPrepared p else s1.memberStatus p.ctx p.rec_ 10)

/-- What a decision still waits for at a member is asked for. -/
def State.askPrepared (s : State) (p : Option Prepared) : State :=
  match p with
  | some p => s.askRecord p.ctx p.rec_
  | none => s

/-- The prepared record a message of a leader is about. -/
def State.preparedOf (s : State) (tx : FabTx) (member : Nat) : Option Prepared :=
  s.prepared.find? fun p => p.is tx.src (wbits tx.addr 31 0) member

/-- PREPARE (R380): a member checks and keeps the record and acknowledges; a repeated prepare gets the same answer. A
prepare that no inbound grant with WR covers is dropped. -/
def execPrepare (tx : FabTx) (s : State) : Host.Outcome State Fault Refusal :=
  match s.takeControl tx 24 with
  | none => .next s
  | some (port, s1) =>
    if !s1.inbound tx 29 then .next s1
    else
      let m := (tx.payload.getD 2 0).toNat
      if (s1.preparedOf tx m).isNone && s1.memberWaits tx.ctx.toNat (tx.payload.getD 0 0) then
        .next (s.askRecord tx.ctx.toNat (tx.payload.getD 0 0))
      else
      let s2 := match s1.preparedOf tx m with
        | some _ => s1
        | none => s1.prepare tx.src (wbits tx.addr 31 0) m port tx.ctx.toNat (tx.payload.getD 0 0) (wbits (tx.payload.getD 1 0) 31 0)
      let r := match s2.preparedOf tx m with | some p => p.answer | none => 0
      .next (s2.control port 25 tx.sctx.toNat tx.ctx.toNat r tx.addr [ofN m, 0])

/-- A commit or abort reaches a member, which acts on it once and acknowledges it each time (R380). -/
def State.takeDecision (s : State) (tx : FabTx) (op code : Nat) : State :=
  match s.takeControl tx op with
  | none => s
  | some (port, s1) =>
    let m := (tx.payload.getD 0 0).toNat
    let acted := match s1.preparedOf tx m with | some p => s1.decide_ p code | none => some s1
    match acted with
    | some s2 => s2.control port 25 tx.sctx.toNat tx.ctx.toNat 0 tx.addr [ofN m, 1]
    | none => s.askPrepared (s1.preparedOf tx m)

/-- COMMIT (R380). -/
def execCommit (tx : FabTx) (s : State) : Host.Outcome State Fault Refusal := .next (s.takeDecision tx 26 1)
/-- ABORT (R380). -/
def execAbort (tx : FabTx) (s : State) : Host.Outcome State Fault Refusal := .next (s.takeDecision tx 27 2)

/-- DECISION (R382): the leader's answer to a query; "pending" changes nothing. -/
def execDecision (tx : FabTx) (s : State) : Host.Outcome State Fault Refusal :=
  match s.takeControl tx 29 with
  | none => .next s
  | some (_, s1) =>
    let code := wbits (tx.payload.getD 1 0) 7 0
    match s1.preparedOf tx (tx.payload.getD 0 0).toNat with
    | none => .next s1
    | some p =>
      if code ≠ 1 ∧ code ≠ 2 then .next s1
      else match s1.decide_ p code with
      | some s2 => .next s2
      | none => .next (s.askPrepared (some p))

/-- GANG_QUERY_TIMER (R382): a member that acknowledged OK and has had no decision for TIMEOUT rotations sends a query to
the leader, and again every TIMEOUT rotations. -/
def execGangQueryTimer (idx : Nat) (s : State) : Host.Outcome State Fault Refusal :=
  match s.prepared[idx]? with
  | none => .next s
  | some p =>
    if p.answer = 0 ∧ p.decided = none ∧ p.leader ≠ s.fabricId ∧ p.since + p.timeout < s.beat then
      .next ((s.modPrepared p fun x => { x with since := s.beat }).control p.port 28 0 p.ctx 0 (gangTag p.leader p.gang) [ofN p.member])
    else .next s

/-! ## The leader's side (R379-R382) -/

/-- Word i of the gang record at an address of a context, each by its own page (R379). -/
def State.gangWord (s : State) (ctx : Nat) (a : Word) (i : Nat) : Word := (s.deviceWord ctx (a + ofN (8 * i))).getD 0

/-- The number of words of a gang record (R379). -/
def State.gangSize (s : State) (ctx : Nat) (a : Word) : Nat := 8 + 2 * wbits (s.gangWord ctx a 0) 15 8

/-- The keys of a gang record's words. -/
def State.gangKeys (s : State) (ctx : Nat) (a : Word) : List Nat :=
  (range 0 (s.gangSize ctx a)).filterMap fun i => s.deviceKey? ctx (a + ofN (8 * i)) .rd

/-- A word of a gang record whose page is missing. -/
def State.gangMiss? (s : State) (ctx : Nat) (a : Word) : Option Word :=
  ((range 0 (s.gangSize ctx a)).map fun i => a + ofN (8 * i)).find? (s.deviceMiss ctx)

/-- A word of a gang record cannot be read: its page does not exist, or it has an uncorrectable error (R379, R349). -/
def State.gangGone (s : State) (ctx : Nat) (a : Word) : Bool :=
  (range 0 (s.gangSize ctx a)).any fun i => (s.deviceWord ctx (a + ofN (8 * i))).isNone

/-- The gang record at an address is malformed (R379). -/
def State.gangBad (s : State) (ctx : Nat) (a : Word) : Bool :=
  let w (i : Nat) : Word := s.gangWord ctx a i
  wbits (w 0) 7 0 != 1 || wbits (w 0) 15 8 == 0 || wbits (w 0) 63 16 != 0 || wbits (w 1) 31 0 == 0 || wbits (w 1) 63 32 != 0
    || (List.range 4).any fun i => w (4 + i) != 0

/-- The members a gang record names (R379); one whose window is invalid or without WR has failed at once (R381). -/
def State.gangMembers (s : State) (ctx : Nat) (a : Word) : List GangMember :=
  (List.range (wbits (s.gangWord ctx a 0) 15 8)).map fun m =>
    let w := s.gangWord ctx a (8 + 2 * m)
    let bad := wbits w 63 6 != 0 || (s.gangWindow? ctx (wbits w 5 0)).isNone
    { win := wbits w 5 0, rec_ := s.gangWord ctx a (9 + 2 * m), ack := if bad then some 256 else none, told := bad, sentAt := s.beat }

/-- A message of the leader to a member of a gang, through its window. -/
def State.gangSend (s : State) (g : Gang) (m op : Nat) (payload : List Word) : State :=
  match g.members[m]? with
  | none => s
  | some x =>
    match s.gangWindow? g.ctx x.win with
    | some w => s.control w.port op w.rctx g.ctx 0 (gangTag s.fabricId g.num) payload
    | none => s

/-- The first failure of a gang: member, kind and reason (R381); the leader's own record counts after the members. -/
def Gang.failure? (g : Gang) : Option (Nat × Nat × Nat) :=
  match g.members.zipIdx.find? fun p => match p.1.ack with | some a => a != 0 | none => false with
  | some p => (match p.1.ack with | some 256 => some (p.2, 3, 0) | some r => some (p.2, 1, r) | none => none)
  | none => match g.ownAck with
    | some 0 | none => none
    | some r => some (g.members.length, 1, r)

/-- Every member, and the leader's own record, has acknowledged OK. -/
def Gang.allOk (g : Gang) : Bool := g.members.all (fun m => m.ack == some 0) && g.ownAck == some 0

/-- DECISION of a gang that aborts (R381). -/
def abortWord (num : Nat) (f : Nat × Nat × Nat) : Word :=
  ofN (2 + f.1 % 256 * 2 ^ 8 + f.2.1 * 2 ^ 16 + f.2.2 % 256 * 2 ^ 24 + num % 2 ^ 32 * 2 ^ 32)
/-- DECISION of a gang that commits (R381). -/
def commitWord (num : Nat) : Word := ofN (1 + num % 2 ^ 32 * 2 ^ 32)

/-- The decision is sent to a member (R380). -/
def State.tell (s : State) (g : Gang) (d : Word) (m : Nat) : State :=
  if (g.members[m]?).all fun x => x.told then s else s.gangSend g m (if wbits d 7 0 = 1 then 26 else 27) [ofN m]

/-- DECISION is filled: none while its page is missing or an atomic holds it. One whose page is gone is left (DESIGN CHOICE,
log 44). -/
def State.fillDecision (s : State) (g : Gang) (d : Word) : Option State :=
  match s.deviceKey? g.ctx (g.addr + 16) .wr with
  | some key => if s.held key then none else some (s.fillWord .plain key d)
  | none => if s.deviceMiss g.ctx (g.addr + 16) then none else some (s.deviceMet g.ctx)

/-- DECISION is filled, and then the members are told, and the leader's own record posted or discarded (R380). None while
the word cannot be filled yet, or the leader's own record must wait. -/
def State.decideGang (s : State) (g : Gang) (d : Word) : Option State :=
  match s.fillDecision g d with
  | none => none
  | some s0 =>
    let s1 := s0.modGang g.num fun x =>
      { x with decision := some d, members := x.members.map fun m => { m with sentAt := s.beat } }
    let s2 := (List.range g.members.length).foldl (fun a m => a.tell g d m) s1
    match s2.prepared.find? fun p => p.is s.fabricId g.num g.members.length with
    | some p => s2.decide_ p (wbits d 7 0)
    | none => some s2

/-- What a gang's decision waits for is asked for: the page of DECISION, or of the leader's own record. -/
def State.askGang (s : State) (g : Gang) : State :=
  (s.deviceAsk g.ctx (g.addr + 16)).askPrepared (s.prepared.find? fun p => p.is s.fabricId g.num g.members.length)

/-- A gang that can be decided is: commit when all have acknowledged OK, abort at the first failure (R380). -/
def State.settleGang (s : State) (num : Nat) : State :=
  match s.gangs.find? fun g => g.num == num && g.decision.isNone with
  | none => s
  | some g =>
    match g.failure? with
    | some f => (s.decideGang g (abortWord num f)).getD (s.askGang g)
    | none => if g.allOk then (s.decideGang g (commitWord num)).getD (s.askGang g) else s

/-- A gang begins (R380 step 1): every member is sent a prepare, and the leader's own record is checked as a member's. -/
def State.startGang (s : State) (ctx : Nat) (a : Word) : State :=
  let num := s.gangCount % 2 ^ 32
  let ms := s.gangMembers ctx a
  let own := s.gangWord ctx a 3
  let timeout := wbits (s.gangWord ctx a 1) 31 0
  let s1 := { s with gangCount := s.gangCount + 1 }
  let s2 := if own = 0 then s1 else s1.prepare s.fabricId num ms.length 0 ctx own timeout
  let ownAck := if own = 0 then 0 else s1.memberAnswer ctx own
  let g : Gang := {
    num := num, ctx := ctx, addr := a, timeout := timeout, startedAt := s.beat, members := ms, own := own
    ownAck := some ownAck, decision := none }
  let s3 : State := { s2 with gangs := s2.gangs ++ [g] }
  ((List.range ms.length).foldl (fun x m =>
    x.gangSend g m 24 [(ms[m]?.map GangMember.rec_).getD 0, ofN timeout, ofN m]) s3).settleGang num

/-- GANG_POST (R379, R380): the gang unit takes the word in GPOST. A malformed record is answered with an abort in DECISION
that names no member (DESIGN CHOICE, log 44); a word that names no record is dropped. -/
def execGangPost (ctx : Nat) (s : State) : Host.Outcome State Fault Refusal :=
  match s.context? ctx with
  | none => .next s
  | some c =>
    let k := c.fwin + 8
    if c.fwin == 0 || !s.full k || s.held k || s.bootStage != 4 then .next s
    else
      let a := s.readWord k
      let own := s.gangWord ctx a 3
      if a.toNat % 64 ≠ 0 then .next ((s.setFull k false).changed k)
      else match s.gangMiss? ctx a with
      | some x => .next (s.deviceAsk ctx x)
      | none =>
        let s1 := (((s.readErrors (s.gangKeys ctx a)).deviceMet ctx).setFull k false).changed k
        if (s.gangKeys ctx a).any s.held then .next s
        else if s.gangGone ctx a then .next s1
        else match s.deviceKey? ctx a .wr with
        | none => .next s1
        | some key =>
          if s.gangBad ctx a then
            .next ({ s1.fillWord .plain (key + 16) (abortWord s.gangCount (0, 1, 1)) with gangCount := s.gangCount + 1 })
          else if own ≠ 0 ∧ s.memberWaits ctx own then .next (s.askRecord ctx own)
          else .next (s1.startGang ctx a)

/-- ACKNOWLEDGE (R380): the leader notes a member's answer to its prepare, and decides if it can; or that a member has the
decision. An answer that comes later than TIMEOUT rotations after the prepare does not count. -/
def execAcknowledge (tx : FabTx) (s : State) : Host.Outcome State Fault Refusal :=
  match s.takeControl tx 25 with
  | none => .next s
  | some (_, s1) =>
    match s1.gangOf tx.addr with
    | none => .next s1
    | some g =>
      let m := (tx.payload.getD 0 0).toNat
      let note (f : GangMember → GangMember) (g : Gang) : Gang :=
        { g with members := g.members.zipIdx.map fun p => if p.2 = m then f p.1 else p.1 }
      if tx.payload.getD 1 0 = 0 then
        let r := tx.operand.toNat
        if g.startedAt + g.timeout < s.beat then .next s1
        else .next ((s1.modGang g.num (note fun x => { x with ack := x.ack.or (some r) })).settleGang g.num)
      else .next (s1.modGang g.num (note fun x => { x with told := true }))

/-- GANG_TIMEOUT (R380, R381): without an acknowledgement of every member within TIMEOUT rotations the gang aborts. -/
def execGangTimeout (gang : Nat) (s : State) : Host.Outcome State Fault Refusal :=
  match s.gangs.find? fun g => g.num == gang && g.decision.isNone with
  | none => .next s
  | some g =>
    if s.beat ≤ g.startedAt + g.timeout then .next s
    else
      let f := (g.failure?).getD ((g.members.findIdx fun m => m.ack.isNone), 2, 0)
      .next ((s.decideGang g (if g.allOk then commitWord g.num else abortWord g.num f)).getD (s.askGang g))

/-- QUERY (R382): the leader answers a member with DECISION, or with "pending" until it is filled. -/
def execQuery (tx : FabTx) (s : State) : Host.Outcome State Fault Refusal :=
  match s.takeControl tx 28 with
  | none => .next s
  | some (port, s1) =>
    match s1.gangOf tx.addr with
    | none => .next s1
    | some g => .next (s1.control port 29 tx.sctx.toNat g.ctx 0 tx.addr [tx.payload.getD 0 0, g.decision.getD 0])

/-- DECISION_REPEAT (R380): the decision is sent again to a member that has not acknowledged it, TIMEOUT rotations after the
last time. DESIGN CHOICE: log 58. -/
def execDecisionRepeat (gang member : Nat) (s : State) : Host.Outcome State Fault Refusal :=
  match s.gangs.find? fun g => g.num == gang with
  | none => .next s
  | some g =>
    match g.decision, g.members[member]? with
    | some d, some x =>
      if x.told || decide (s.beat ≤ x.sentAt + g.timeout) then .next s
      else .next ((s.tell g d member).modGang gang fun y =>
        { y with members := y.members.zipIdx.map fun p => if p.2 = member then { p.1 with sentAt := s.beat } else p.1 })
    | _, _ => .next s

/-- RETIRE (R361): the transaction is received; the manual gives it no effect beyond that. -/
def execRetire (tx : FabTx) (s : State) : Host.Outcome State Fault Refusal :=
  match s.takeControl tx 30 with
  | none => .next s
  | some (_, s1) => .next s1

end Sys2Proof.Machine
end

