-- ==== Sys2Proof/Machine/Host.lean ====
section
/-! DEFINITION. The host's accesses: the firmware doorbell (R323), the aliases of the far-memory aperture (R326), and
BAR2 (R322). -/

namespace Sys2Proof.Machine

/-- DOORBELL (R323): a write to the doorbell word of the firmware mailbox posts HOST to masthead core 0 of I/O die 0. -/
def execDoorbell (s : State) : Host.Outcome State Fault Refusal :=
  if s.powered then .next (s.postCore chiefCore 5) else .next s

/-- The key of an aperture byte: firmware maps the aperture in frames of 64 KiB (R326). -/
def State.apertureKey? (s : State) (o : Nat) : Option Nat :=
  if o < s.apertureSize then (lookup? s.aperture (o / 2 ^ 16)).map fun f => f * 2 ^ 16 + o % 2 ^ 16 else none

/-- The confidential key slot of the frame that holds a byte, by the translation entries that map it (R281, R338). -/
def State.confSlot? (s : State) (key : Nat) : Option Nat :=
  s.xlat.findSome? fun p => p.2.tlb.findSome? fun e =>
    let base := e.tier * 2 ^ 52 + e.frame * 2 ^ 16
    if base ≤ key ∧ key < base + pageBytes e.size ∧ s.keyConf e.key then some e.key else none

/-- How a host access passes a byte's encryption (R326, R336, R338): a frame of a confidential slot, as a translation entry maps
it or as it was written, is not decrypted; any other is, under the slot it was written under. DESIGN CHOICE: log 37. -/
def State.hostKeying (s : State) (key : Nat) : Keying :=
  match s.confSlot? key, lookup? s.unitKeys (key / 64) with
  | some k, _ => .sealed k
  | none, some k => if s.keyConf k.1 then .sealed k.1 else .under k.1
  | none, none => .plain

/-- A byte of the aperture as the host reads it: ciphertext in a confidential frame (R338); where no frame is mapped, a
free value (DESIGN CHOICE, log 43). -/
def State.hostByte (s : State) (o i : Nat) : Byte :=
  match s.apertureKey? o with
  | some key => BitVec.ofNat 8 (s.readAs (s.hostKeying key) key 1)
  | none => Config.randomByte (s.fresh + i)

/-- The words that n aperture bytes lie in. -/
def State.apertureKeys (s : State) (o n : Nat) : List Nat := (List.range n).filterMap fun i => s.apertureKey? (o + i)

/-- A host read of n bytes (R326): data, the bits ignored; a single-bit error is corrected (R349). -/
def State.hostReadAt (s : State) (o n : Nat) : State :=
  (s.apertureKeys o n).foldl State.correct { s with hostRead := (List.range n).map fun i => s.hostByte (o + i) i, fresh := s.fresh + n }

/-- Bytes written by the host, one by one: unmapped ones are discarded, those of a confidential frame discarded and
logged (R338). -/
def State.hostWriteAt (s : State) (o : Nat) : List Byte → State
  | [] => s
  | b :: bs =>
    (match s.apertureKey? o with
    | some key => s.writeAs (s.hostKeying key) key 1 b.toNat
    | none => s).hostWriteAt (o + 1) bs

/-- No word of a host access is held by an atomic (R196). DEDUCED: log 59. -/
def State.hostFree (s : State) (o n : Nat) : Bool := !((s.apertureKeys o n).any fun k => s.held k)

/-- HDM_PLAIN_WRITE (R326): data, the bits unchanged. -/
def execHdmPlainWrite (_port o : Nat) (data : List Byte) (s : State) : Host.Outcome State Fault Refusal :=
  if s.powered ∧ s.hostFree o data.length then .next (s.hostWriteAt o data) else .next s

/-- A write to the fill or empty alias (R326): 8 aligned bytes, anything else is discarded and logged; then the bit, the
word's queue served. -/
def State.aliasWrite (s : State) (o : Nat) (data : List Byte) (full : Bool) : State :=
  if data.length ≠ 8 ∨ o % 8 ≠ 0 then s.logAdmin [ofN 326, ofN o]
  else match s.apertureKey? o with
  | none => s
  | some key =>
    if s.held key then s
    else match s.hostKeying key with
    | .sealed k => s.writeAs (.sealed k) key 8 (ofLeBytes data)
    | k => ((s.writeAs k key 8 (ofLeBytes data)).setFull key full).changed key

/-- HDM_FILL_WRITE (R326). -/
def execHdmFillWrite (_port o : Nat) (data : List Byte) (s : State) : Host.Outcome State Fault Refusal :=
  if s.powered then .next (s.aliasWrite o data true) else .next s

/-- HDM_EMPTY_WRITE (R326). -/
def execHdmEmptyWrite (_port o : Nat) (data : List Byte) (s : State) : Host.Outcome State Fault Refusal :=
  if s.powered then .next (s.aliasWrite o data false) else .next s

/-- The offset in the plain aperture of one in an alias of it (R326). -/
def State.aliasOffset (s : State) (o : Nat) : Nat := if s.apertureSize = 0 then o else o % s.apertureSize

/-- HDM_READ (R326): every alias reads as the plain one. -/
def execHdmRead (_port o size : Nat) (s : State) : Host.Outcome State Fault Refusal :=
  if s.powered ∧ s.hostFree (s.aliasOffset o) size then .next (s.hostReadAt (s.aliasOffset o) size) else .next s

/-- BAR2_ACCESS (R322, R326): the aperture, plain only. -/
def execBar2Access (_port o size : Nat) (wr : Option (List Byte)) (s : State) : Host.Outcome State Fault Refusal :=
  if !s.powered then .next s
  else match wr with
  | none => if s.hostFree o size then .next (s.hostReadAt o size) else .next s
  | some data => if s.hostFree o data.length then .next (s.hostWriteAt o data) else .next s

end Sys2Proof.Machine
end

