-- ==== Sys2Proof/Machine/Migration.lean ====
section
/-! DEFINITION. Migration: GO (R293), departure, the packet, arrival queues and the overflow ring (R287-R292), and
idempotent regions (R307). -/

namespace Sys2Proof.Machine

/-! ## GO (R293) -/

/-- The core GO migrates to, if R287 and R288 let it. DEDUCED: log 48. -/
def State.goTarget? (s : State) (t : ThreadRef) (th : Thread) (a : Word) (key : Nat) : Option Nat := s.arrival? t th a key

/-- GO (R293, R308). In the FABRIC window it has no effect, if its window is valid (R367). -/
def execGo (p : Pred) (a : Reg) (s : State) : Host.Outcome State Fault Refusal :=
  issue { Meta.scalar [a.toNat] [] with notMast := true, leaveOff := true } p s fun s1 th =>
    let t := s1.cur
    let va := th.readS a.toNat
    if th.handler.isSome then .trap .mxRange 0 (ofN s1.ir.toNat)
    else if windowOf va = .fabric then
      (if (s1.fabWindow? th.ctx va 0).isSome then .done (s1.effectOut th) else .trap .access va 0)
    else match s1.resolve t th va accGo (.thread t) with
    | .fault c info => .trap c va info
    | .miss => .miss va 0
    | .ok key e =>
      match s1.goTarget? t th va key with
      | some n => departRes (s1.refill t.core e) th n (nextPc th.pc) 0
      | none => .done ((s1.effectOut th).refill t.core e)
    | _ => .done (s1.effectOut th)

/-! ## The packet (R290) -/

/-- The special registers of the carry set, in the packet's order (R65, R290). -/
def Thread.carried (th : Thread) : List Word :=
  [th.scopeD, th.feBudget, th.chBudget, th.barBudget, th.fpCtl, th.fpFlags, th.rng, th.lmask.setWidth 64, th.trapVec]

/-- The packet of a departing thread (R290). -/
def packetFrom (s : State) (t : ThreadRef) (th : Thread) (dest : Nat) (pc : Word) (reason : Nat) : Packet :=
  { id := s.serial, reason := reason, pc := pc, launch := th.launch, band := th.band, tib := th.tib, ctx := th.ctx
    fromCore := t.core, fromSlot := t.slot
    s := (range 1 15).map fun i => (th.s[i]?).getD 0
    f := (List.range 12).map th.readF
    sregs := th.carried, tileOrg := th.tileOrg, tileExt := th.tileExt, dest := dest }

/-- The 40 words of a packet (R290). -/
def Packet.words (k : Packet) (logical : Nat) : List Word :=
  [ofN (1 + k.reason * 2 ^ 16), k.pc, ofN k.launch, ofN k.band, ofN (k.tib + k.ctx * 2 ^ 16), ofN (logical + k.fromSlot * 2 ^ 15)]
    ++ k.s
    ++ (List.range 6).map (fun i => ofN ((k.f.getD (2 * i) 0).toNat + (k.f.getD (2 * i + 1) 0).toNat * 2 ^ 32))
    ++ k.sregs ++ [0, 0, 0, 0]

/-- A thread as it arrives (R65): the carry set, the registers that travel, and everything else at its reset value. -/
def Packet.thread (k : Packet) (beat : Nat) : Thread :=
  let w (i : Nat) : Word := k.sregs.getD i 0
  { Thread.blank with
    pc := k.pc
    s := k.s.zipIdx.foldl (fun v p => v.setIfInBounds (p.2 + 1) p.1) Thread.blank.s
    f := k.f.zipIdx.foldl (fun v p => v.setIfInBounds p.2 p.1) Thread.blank.f
    launch := k.launch
    band := k.band
    tib := k.tib
    ctx := k.ctx
    tileOrg := k.tileOrg
    tileExt := k.tileExt
    scopeD := w 0
    feBudget := w 1
    chBudget := w 2
    barBudget := w 3
    fpCtl := w 4
    fpFlags := w 5
    rng := w 6
    lmask := (w 7).setWidth 32
    trapVec := w 8
    notBefore := beat + 1
    bornAt := some beat }

/-! ## Departure (R289) -/

/-- The engine commands of a thread have completed (R289, R210, R221). -/
def State.commandsOver (s : State) (t : ThreadRef) : Bool :=
  !((s.core t.core).copies.any (Copy.of t.slot)) && (s.cmdsOf t).isEmpty

/-- Step 2 of a departure is over (R289, R256): windows, stores, reductions, requests and commands. -/
def State.departReady (s : State) (t : ThreadRef) (th : Thread) : Bool :=
  th.settled && th.storeQ.isEmpty && th.pending == 0 && s.allPerformed t s.serial true && s.commandsOver t
    && !(s.barMsgs.any fun m => m.thread == t)

/-- The packets in a die's overflow ring for a core. -/
def State.ringFor (s : State) (n : Nat) : List Packet := (s.die (dieOf n)).ring.filter fun k => k.dest == n

/-- A core's arrival queue has room for one more packet, ahead of which none is in the ring or on its way (R292). -/
def State.queueRoom (s : State) (n : Nat) : Bool :=
  decide ((s.core n).arrivals.length + (s.packets.filter fun k => k.dest == n).length < 16) && (s.ringFor n).isEmpty

/-- The overflow ring of a die has room for what is on its way there, and one more (R292). -/
def State.ringRoom (s : State) (die : Nat) : Bool :=
  decide ((s.die die).ring.length + (s.packets.filter fun k => dieOf k.dest == die).length < (s.die die).ringN)

/-- The region of a departing thread is left, and its band has effects outside (R307). -/
def State.leaveRegion (s : State) (th : Thread) : State :=
  if th.region.isSome then s.modBand th.bandRef fun b => { b with out := true } else s

/-- MIGRATION_DEPARTURE (R289, R290, R292): a store fault is taken instead; otherwise, once everything older is over and
the destination can hold the packet, the carry set leaves and the slot is vacant. A thread whose band is being saved goes
on without migrating (R287). -/
def execMigrationDeparture (t : ThreadRef) (s : State) : Host.Outcome State Fault Refusal :=
  match s.thread? t with
  | none => .next s
  | some th =>
    match th.wait with
    | some ⟨.depart n pc reason, _, _⟩ =>
      if th.mode != .trap && s.undelivered t then
        if s.storeFaultPending t then .next (s.deliverStoreFault t th.pc) else .next s
      else if s.savingBand th then .next (s.setThread t { th with wait := none, pc := pc })
      else if !s.departReady t th ∨ !(s.queueRoom n || s.ringRoom (dieOf n)) then .next s
      else
        let s1 := (s.uncount th).leaveRegion th
        let s2 := { s1.tick with packets := s1.packets ++ [packetFrom s t th n pc reason] }
        .next ((s2.traceEvent 4 th.ctx t.core t.slot pc (ofN reason)).dropThread t)
    | _ => .next s

/-! ## Arrival (R292) -/

/-- The bytes of a ring's entry lie in mapped pages (R292). -/
def Die.entryMapped (d : Die) (i : Nat) : Bool :=
  [d.ringBase + 320 * i, d.ringBase + 320 * i + 319].all fun a => d.ringPages.contains (a / 65536 - d.ringBase / 65536)

/-- The entry the next packet takes: from the ring's next entry on, the first that holds none (R292). DESIGN CHOICE: log 48. -/
def Die.nextEntry? (d : Die) : Option Nat :=
  ((List.range d.ringN).map fun i => (d.ringNext + i) % d.ringN).find? fun i => !(d.ring.any fun k => k.entry == i)

/-- A packet enters the overflow ring at an entry, its bytes in the ring's memory (R290, R292). -/
def State.enterRing (s : State) (k : Packet) (i : Nat) : State :=
  let d := s.die (dieOf k.dest)
  let key := d.ringBase + 320 * i
  let s1 := (k.words (s.idCore k.ctx k.fromCore % 2 ^ 15)).zipIdx.foldl (fun a p => a.writeWord (key + 8 * p.2) p.1) s
  s1.modDie (dieOf k.dest) fun d => { d with ring := d.ring ++ [{ k with entry := i }], ringNext := (i + 1) % d.ringN }

/-- MIGRATION_ARRIVAL (R292): a packet reaches its core's arrival queue, or the die's overflow ring behind packets for the
same core; with the ring's next entry unmapped it waits, and the die control core is told. -/
def execMigrationArrival (id : Nat) (s : State) : Host.Outcome State Fault Refusal :=
  match s.packets.find? fun k => k.id == id with
  | none => .next s
  | some k =>
    if s.packets.any fun x => x.dest == k.dest && decide (x.id < k.id) then .next s
    else
      let s1 := { s with packets := eraseFirst (fun x => x.id == id) s.packets }
      if (s.core k.dest).arrivals.length < 16 ∧ (s.ringFor k.dest).isEmpty then
        .next (s1.modCore k.dest fun c => { c with arrivals := c.arrivals ++ [k] })
      else
        match (s.die (dieOf k.dest)).nextEntry? with
        | none => .next s
        | some i => if (s.die (dieOf k.dest)).entryMapped i then .next (s1.enterRing k i) else .next (s.postDie (dieOf k.dest) 4)

/-- The ring of a die without its first packet for a core. -/
def Die.unring (d : Die) (n : Nat) : Die := { d with ring := eraseFirst (fun k => k.dest == n) d.ring }

/-- OVERFLOW_REFILL (R292): the ring's first packet whose core has room in its queue moves there. -/
def execOverflowRefill (die : Nat) (s : State) : Host.Outcome State Fault Refusal :=
  match (s.die die).ring.find? fun k => decide ((s.core k.dest).arrivals.length < 16) with
  | none => .next s
  | some k => .next ((s.modDie die fun d => d.unring k.dest).modCore k.dest fun c => { c with arrivals := c.arrivals ++ [k] })

/-- A slot is free for an arrival of a context (R292). -/
def State.arrivalSlot (s : State) (n ctx i : Nat) : Bool :=
  let sl := s.slot ⟨n, i⟩
  sl.ctx == some ctx && sl.thread.isNone && (s.core n).reservation != some i
    && (match sl.grant with
        | some b => (match s.band? b with | some x => x.state != .placed | none => true)
        | none => true)

/-- The band knows its thread's new slot. -/
def Band.moved (b : Band) (tib : Nat) (t : ThreadRef) : Band := { b with slots := b.slots.set tib t }

/-- MIGRATION_INSTALL (R292, R65): once in a rotation, a core's head packet is installed in its lowest free slot; its
thread issues from the next rotation. -/
def execMigrationInstall (core : Nat) (s : State) : Host.Outcome State Fault Refusal :=
  let c := s.core core
  match c.arrivals with
  | [] => .next s
  | k :: rest =>
    if c.installAt = some s.beat then .next s
    else match (List.range 8).find? fun i => s.arrivalSlot core k.ctx i with
    | none => .next s
    | some i =>
      let t : ThreadRef := ⟨core, i⟩
      let s1 := (s.modCore core fun c => { c with arrivals := rest, installAt := some s.beat }).setThread t (k.thread s.beat)
      .next ((s1.modBand ⟨k.ctx, k.launch, k.band⟩ fun b => b.moved k.tib t).traceEvent 5 k.ctx core i k.pc (ofN k.reason))

/-! ## Idempotent regions (R307) -/

/-- A region's output window is not canonical, wraps, or leaves GLOBAL (R307). -/
def windowBad (base size : Word) : Bool := size != 0 && decide (2 ^ 55 < base.toNat + size.toNat)

/-- The launch of a thread allows idempotent regions (R295). -/
def State.idemLaunch (s : State) (th : Thread) : Bool :=
  match s.launch? th.ctx th.launch with | some l => l.rec_.idem | none => false

/-- Another thread of the band is in its region (R307). -/
def State.othersInRegion (s : State) (t : ThreadRef) (th : Thread) : Bool :=
  s.allThreads.any fun p => p.1 != t && p.2.bandRef == th.bandRef && p.2.region.isSome

/-- The snapshot and window of a region entered at the thread's instruction (R307): its carry set, with the next PC. -/
def Thread.snapshot (th : Thread) (base size : Word) : Region :=
  ⟨nextPc th.pc, (range 1 15).map (fun i => (th.s[i]?).getD 0), (List.range 12).map th.readF, base, size⟩

/-- IDEM.BEGIN (R307). It reads s1-s15 for its snapshot, so a window on one of them meets it (R22). DEDUCED: log 48. -/
def execIdemBegin (p : Pred) (a : Reg) (s : State) : Host.Outcome State Fault Refusal :=
  issue (Meta.scalar (a.toNat :: range 1 15) []) p s fun s1 th =>
    let t := s1.cur
    let d := th.readS a.toNat
    if d.toNat % 8 ≠ 0 then .trap .align d 0
    else match s1.sendWords t th d 2 with
    | .error r => r
    | .ok ws =>
      let base := ws.getD 0 0
      let size := ws.getD 1 0
      let s0 := s1.correctWords t th d 2
      if windowBad base size then .trap .access base 0
      else if !s1.idemLaunch th then .done s0
      else
        let s2 := if th.region.isNone ∧ !s0.othersInRegion t th then s0.modBand th.bandRef fun b => { b with out := false } else s0
        .done (s2.modThread t fun x => { x with region := some (th.snapshot base size) })

/-- IDEM.END (R307). -/
def execIdemEnd (p : Pred) (s : State) : Host.Outcome State Fault Refusal :=
  issue Meta.plain p s fun s1 _ => .done (s1.modThread s1.cur fun x => { x with region := none })

end Sys2Proof.Machine
end

