-- ==== Sys2Proof/Machine/Waits.lean ====
section
/-! DEFINITION. How an instruction that has issued and waits for older work of its thread ends (R126, R127, R179, R203, R210,
R211, R238, R257). -/

namespace Sys2Proof.Machine

/-- What the thread waits for is over. -/
def State.workOver (s : State) (t : ThreadRef) (th : Thread) : Work → Bool
  | .drain | .fenceI => s.drained t th
  | .fenceS sys fab => s.fenceReady t th sys fab
  | .reductions => th.pending == 0
  | .accesses => s.allPerformed t s.serial true
  | .copies lim => !s.copiesRun t lim
  | .portCfg _ => th.outq.isEmpty

/-- What the instruction does once it is over: FENCE.I empties the instruction cache (R127), port.cfg takes its value (R179). -/
def State.workDone (s : State) (t : ThreadRef) : Work → State
  | .fenceI => s.emptyCache t.core
  | .portCfg v => s.modThread t fun x => { x with portCfg := v }
  | _ => s

/-- A thread that waits for older work as a rotation begins goes on in it when that is over: what was over in the rotation
before lets the next instruction issue in the one after it (R275). -/
def State.endWork (s : State) (t : ThreadRef) : State :=
  match s.thread? t with
  | none => s
  | some th =>
    match th.wait with
    | some ⟨.work w, _, _⟩ =>
      if s.workOver t th w then (s.workDone t w).modThread t fun x => { x with wait := none, pc := nextPc x.pc } else s
    | _ => s

/-- Every thread that waits for older work is looked at. -/
def State.endWorks (s : State) : State := s.allThreads.foldl (fun a p => a.endWork p.1) s

end Sys2Proof.Machine
end

