-- ==== Sys2Proof/Machine/Rotation.lean ====
section
/-! DEFINITION. The end of a rotation (R155-R158, R174): every slot is placed in one class and counted, holds are noted,
and the beat goes on. -/

namespace Sys2Proof.Machine

/-- The classes of R157. -/
inductive Class where
  | issued | memory | message | vacant
  deriving DecidableEq, Repr

/-- Waits that count as not ready on message (R157). -/
def WaitKind.onMessage : WaitKind → Bool
  | .port | .pub _ | .sub _ | .join _ | .rdv _ | .chSync | .sqkill .. | .send .. | .bar .. | .barSync _ | .launch ..
  | .sleep | .work (.portCfg _) => true
  | _ => false

/-- A migrating thread waits only for the overflow ring (R292). -/
def State.pressed (s : State) (t : ThreadRef) (th : Thread) (w : WaitKind) : Bool :=
  match w with
  | .depart n _ _ => s.departReady t th && !(s.queueRoom n || s.ringRoom (dieOf n))
  | _ => false

/-- A member has not begun an instruction that was due by the rotation that ends (R174). -/
def Thread.holds (th : Thread) (beat : Nat) : Bool :=
  th.member && th.subBuf.any fun e => decide (e.rot + th.sqDepth ≤ beat)

/-- The class of a slot's thread in the rotation that ends (R157): the earliest that applies; a
member to which nothing is due still waits on memory while a window that is over has no result (DEDUCED, log 65). -/
def State.classOf (s : State) (t : ThreadRef) (th : Thread) : Class :=
  if th.issued then .issued
  else if !th.live then .vacant
  else if th.busy != 0 then .issued
  else match th.wait with
  | some w =>
    if w.kind.onMessage || s.pressed t th w.kind || (w.kind == .result && !th.expired && decide (th.outstanding < 4) && s.heldBack t th) then .message
    else .memory
  | none =>
    if th.expired then .memory
    else if s.heldBack t th || (th.member && !th.holds s.beat) then .message
    else if (match th.handler with | some h => !h.busy | none => false) then .message
    else if s.beat < th.notBefore then .message
    else .memory

/-- A thread counts a rotation; one that came into its slot in this rotation does not (R65, R157). -/
def Thread.count (th : Thread) (beat : Nat) (c : Class) : Thread :=
  if th.bornAt = some beat then th
  else match c with
  | .issued => { th with rotIssued := th.rotIssued + 1 }
  | .memory => { th with rotMem := th.rotMem + 1 }
  | .message => { th with rotMsg := th.rotMsg + 1 }
  | .vacant => { th with rotVacant := th.rotVacant + 1 }

/-- A thread at the end of a rotation: the slot's instruction has used it, a member's state says whether it holds its
channel (R74, R174). -/
def Thread.turn (th : Thread) (beat : Nat) : Thread :=
  { th with
    issued := false
    busy := if th.issued then th.busy else th.busy - 1
    sq := if th.member then (if th.holds beat then .held else .subscribed) else th.sq }

/-- A slot at the end of a rotation (R157). -/
def State.turnSlot (s : State) (n : Nat) (p : Slot × Nat) : Slot :=
  match p.1.thread with
  | none => { p.1 with vacantCount := p.1.vacantCount + (if p.1.used then 0 else 1), used := false }
  | some th => { p.1 with used := false, thread := some ((th.count s.beat (s.classOf ⟨n, p.2⟩ th)).turn s.beat) }

/-- Slots of a core in class issued (R158). -/
def State.issuedSlots (s : State) (n : Nat) : Nat :=
  ((List.range 8).filter fun i => match s.thread? ⟨n, i⟩ with
    | some th => (s.slot ⟨n, i⟩).used || s.classOf ⟨n, i⟩ th == .issued
    | none => (s.slot ⟨n, i⟩).used).length

/-- A member of the publication holds it (R174). -/
def State.anyHolds (s : State) (b : Publication) : Bool :=
  b.members.any fun m => match s.thread? m with | some th => th.holds s.beat | none => false

/-- A core at the end of a rotation (R157, R158, R174, R212). -/
def State.turnCore (s : State) (n : Nat) (c : Core) : Core :=
  let k := s.issuedSlots n
  { c with
    slots := Vector.ofFn fun i => s.turnSlot n ((c.slots[i.val]?).getD Slot.blank, i.val)
    rotHist := c.rotHist.setIfInBounds k ((c.rotHist[k]?).getD 0 + 1)
    recNew := []
    recFreed := []
    pub := c.pub.map fun b => { b with heldPrev := s.anyHolds b } }

/-- Records that wait for a free fault-queue entry are tried again, in order (R333). -/
def State.retryFaults (s : State) : State := s.faultWait.foldl State.faultQueue { s with faultWait := [] }

/-- Trace records that wait for an entry an atomic holds are tried again, in order (R196, R345). -/
def State.retryTraces (s : State) : State := s.traceWait.foldl (fun a p => a.traceWrite p.1 p.2) { s with traceWait := [] }

/-- Queues are served whose word a core or the dispatcher has changed itself: a fault record, an entry of a fault queue, a
park list or a trace buffer (R195). DEDUCED: log 60. -/
def State.serveQueues (s : State) : State := s.queues.foldl (fun a q => a.changed (q.1 / 8 * 8)) s

/-- What takes place as a rotation begins: SQKILLs reach their cut-off (R173), drain handlers that have ended leave
(R236), instructions that waited for older work are over (R275), barrier arrivals are held back and remote accesses that may leave do (R247), requests of remote packages that
have been performed are answered (R368), ports send (R359), and records wait no longer than they must (R333). -/
def State.beginRotation (s : State) : State :=
  let s1 := s.allThreads.foldl (fun a p => (a.killerMark p.1).killerCheck p.1) s
  let s2 := s1.allThreads.foldl (fun a p => if p.2.handler.isSome then a.clearHandler p.1 else a) s1
  s2.beginTogether.endWorks.holdBars.trySendAll.answerHome.pumpAll.retryFaults.retryTraces.serveQueues

/-- A wait with a budget of its thread is exhausted (R387): pub, sub, join, rdv, chSync by ch.budget, bar by bar.budget. -/
def Thread.spent (th : Thread) (beat : Nat) : Bool :=
  match th.wait with
  | some ⟨k, r, b⟩ => (match k with | .pub _ | .sub _ | .join _ | .rdv _ | .chSync | .bar .. | .barSync _ => true | _ => false)
      && exhausted r b beat
  | none => false

/-- A wait for a channel that is met in this rotation: a PUB's channel is free, a rendezvous is complete (R165, R168, R171). -/
def State.channelMet (s : State) (t : ThreadRef) (th : Thread) : Bool :=
  match th.wait with
  | some ⟨.pub _, r, b⟩ => (s.core t.core).pub.isNone && !exhausted r b s.beat
  | some ⟨.rdv id, r, b⟩ => s.rdvMet t id r b
  | some ⟨.chSync, r, b⟩ => s.rdvMet t 0 r b
  | _ => false

/-- A store has its turn to leave, or the checks of one that has left finish and come to something (R204, R275). -/
def State.storeDue (s : State) (t : ThreadRef) (th : Thread) : Bool :=
  (th.leaving? s.beat).isSome
    || ((match th.storeQ.head?.bind StoreEntry.leftAt with | some r => decide (r + 10 ≤ s.beat) | none => false)
      && (match execStoreCheck t s with | .next s' => s' != s | _ => false))

/-- What belongs to the present rotation and has not happened: a slot's cycle (R155) or what comes before it (R162, R194), a
budget's end (R387), a channel's wait that is met (R165, R168, R171), a store's checks (R204), a message at its barrier unit (R264),
the end of an array's hold (R353). -/
def State.overdue (s : State) : Bool :=
  (s.allSlots.any fun t => s.ready t || s.owed t)
    || (s.allThreads.any fun p => p.2.spent s.beat || s.channelMet p.1 p.2 || s.storeDue p.1 p.2)
    || (s.flights.any fun f => f.spent s.beat)
    || (s.barMsgs.any fun m => s.barDue m)
    || (s.clusters.any fun p => match p.2.hold with | some e => decide (e ≤ s.lastCycle) | none => false)

/-- The beat runs: bring-up has started it (R356), or there is a thread to run. DEDUCED: log 51. -/
def State.beatRuns (s : State) : Bool :=
  (decide (2 ≤ s.bootStage) && decide (s.bootStage < 15)) || (s.bootStage == 15 && decide (3 ≤ s.bootFail)) || !s.allThreads.isEmpty

/-- ROTATION (R7, R155, R157, R158, R174): the rotation ends and the next begins, package-wide, once nothing that belongs to
it is left. A package without power stands still (R342), and so does one whose beat has not started (R356). -/
def execRotation (s : State) : Host.Outcome State Fault Refusal :=
  if !s.powered || !s.beatRuns || s.overdue then .next s else
  let s1 : State := { s with cores := s.cores.map fun p => (p.1, s.turnCore p.1 p.2) }
  .next ({ s1 with beat := s1.beat + 1, cycle := 0, turned := [] } : State).beginRotation

end Sys2Proof.Machine
end

