-- ==== Sys2Proof/Machine/Scalar.lean ====
section
/-! DEFINITION. Scalar integer, address and floating-point instructions, majors 0x01-0x15 (R103-R116). -/

namespace Sys2Proof.Machine

/-! ## Shapes -/

/-- An instruction that writes s(D) from the registers rd (R103). -/
def scalarOp (p : Pred) (d : Reg) (rd : List Nat) (occ : Nat) (s : State) (f : Thread → Word) :
    Host.Outcome State Fault Refusal :=
  issueLocal { Meta.scalar rd [d.toNat] with occ := occ } p s fun th => th.writeS d.toNat (f th) s.beat

/-- s(D) := f(s(A), s(B)). -/
def binOp (p : Pred) (d a b : Reg) (occ : Nat) (s : State) (f : Word → Word → Word) :
    Host.Outcome State Fault Refusal :=
  scalarOp p d [a.toNat, b.toNat] occ s fun th => f (th.readS a.toNat) (th.readS b.toNat)

/-- s(D) := f(s(A)). -/
def unOp (p : Pred) (d a : Reg) (s : State) (f : Word → Word) : Host.Outcome State Fault Refusal :=
  scalarOp p d [a.toNat] 1 s fun th => f (th.readS a.toNat)

/-- A compare into the flag D (R108). -/
def cmpOp (p : Pred) (d : Reg) (rd : List Nat) (s : State) (c : Thread → Bool) : Host.Outcome State Fault Refusal :=
  issueLocal (Meta.scalar rd []) p s fun th => th.writeCmp d (c th)

/-- A floating-point instruction that writes s(D) and ORs flags into fp.flags (R110). -/
def fpOp (p : Pred) (d : Reg) (rd : List Nat) (occ : Nat) (s : State) (f : Thread → Nat × Nat) :
    Host.Outcome State Fault Refusal :=
  issueLocal { Meta.scalar rd [d.toNat] with occ := occ } p s fun th =>
    let r := f th
    (th.orFlags r.2).writeS d.toNat (ofN r.1) s.beat

/-- The operand of a format in an s register: all 64 bits, or bits [31:0] (R110). -/
def Thread.fpS (th : Thread) (f : Fmt) (r : Reg) : Nat := (th.readS r.toNat).toNat % 2 ^ (1 + f.ew + f.fw)

/-- A two-operand floating form (R111). -/
def fpBin (p : Pred) (fm : Fmt) (d a b : Reg) (occ : Nat) (s : State) (f : Fmt → RMode → Bool → Nat → Nat → Nat × Nat) :
    Host.Outcome State Fault Refusal :=
  fpOp p d [a.toNat, b.toNat] occ s fun th => f fm th.rm th.ftz (th.fpS fm a) (th.fpS fm b)

/-- A fused form (R112). -/
def fpFused (p : Pred) (fm : Fmt) (sub : Bool) (d a b : Reg) (s : State) : Host.Outcome State Fault Refusal :=
  fpOp p d [d.toNat, a.toNat, b.toNat] 1 s fun th =>
    fpFma fm th.rm th.ftz sub (th.fpS fm d) (th.fpS fm a) (th.fpS fm b)

/-- A floating compare (R113). -/
def fpCmpOp (p : Pred) (fm : Fmt) (c : FCond) (d a b : Reg) (s : State) : Host.Outcome State Fault Refusal :=
  issueLocal (Meta.scalar [a.toNat, b.toNat] []) p s fun th =>
    let r := fpCmp fm th.ftz c (th.fpS fm a) (th.fpS fm b)
    (th.orFlags r.2).writeCmp d r.1

/-- A conversion with a rounding field (R115, R116). -/
def cvtOp (p : Pred) (d a r : Reg) (s : State) (f : RMode → Bool → Word → Nat × Nat) :
    Host.Outcome State Fault Refusal :=
  issueLocal (Meta.scalar [a.toNat] [d.toNat]) p s fun th =>
    let v := f (th.modeOf r.toNat th.rng) th.ftz (th.readS a.toNat)
    ((th.stepRng r.toNat).orFlags v.2).writeS d.toNat (ofN v.1) s.beat

/-! ## Integer arithmetic and logic (R104) -/

/-- A word's count modulo 64. -/
def sh64 (b : Word) : Nat := b.toNat % 64

/-- ADD (R104). -/
def execAdd (p : Pred) (d a b : Reg) (s : State) := binOp p d a b 1 s fun x y => x + y
/-- SUB (R104). -/
def execSub (p : Pred) (d a b : Reg) (s : State) := binOp p d a b 1 s fun x y => x - y
/-- AND (R104). -/
def execAnd (p : Pred) (d a b : Reg) (s : State) := binOp p d a b 1 s fun x y => x &&& y
/-- OR (R104). -/
def execOr (p : Pred) (d a b : Reg) (s : State) := binOp p d a b 1 s fun x y => x ||| y
/-- XOR (R104). -/
def execXor (p : Pred) (d a b : Reg) (s : State) := binOp p d a b 1 s fun x y => x ^^^ y
/-- ANDN (R104). -/
def execAndn (p : Pred) (d a b : Reg) (s : State) := binOp p d a b 1 s fun x y => x &&& ~~~y
/-- SHL (R104). -/
def execShl (p : Pred) (d a b : Reg) (s : State) := binOp p d a b 1 s fun x y => x <<< sh64 y
/-- SHR (R104). -/
def execShr (p : Pred) (d a b : Reg) (s : State) := binOp p d a b 1 s fun x y => x >>> sh64 y
/-- SAR (R104). -/
def execSar (p : Pred) (d a b : Reg) (s : State) := binOp p d a b 1 s fun x y => x.sshiftRight (sh64 y)
/-- ROR (R104). -/
def execRor (p : Pred) (d a b : Reg) (s : State) := binOp p d a b 1 s fun x y => x.rotateRight (sh64 y)
/-- MIN.S64 (R104). -/
def execMinS64 (p : Pred) (d a b : Reg) (s : State) := binOp p d a b 1 s fun x y => if x.slt y then x else y
/-- MIN.Z64 (R104). -/
def execMinZ64 (p : Pred) (d a b : Reg) (s : State) := binOp p d a b 1 s fun x y => if x.ult y then x else y
/-- MAX.S64 (R104). -/
def execMaxS64 (p : Pred) (d a b : Reg) (s : State) := binOp p d a b 1 s fun x y => if y.slt x then x else y
/-- MAX.Z64 (R104). -/
def execMaxZ64 (p : Pred) (d a b : Reg) (s : State) := binOp p d a b 1 s fun x y => if y.ult x then x else y
/-- ADDS.S64 (R104). -/
def execAddsS64 (p : Pred) (d a b : Reg) (s : State) :=
  binOp p d a b 1 s fun x y => ofI (clamp (x.toInt + y.toInt) (-(2 ^ 63)) (2 ^ 63 - 1))
/-- SUBS.S64 (R104). -/
def execSubsS64 (p : Pred) (d a b : Reg) (s : State) :=
  binOp p d a b 1 s fun x y => ofI (clamp (x.toInt - y.toInt) (-(2 ^ 63)) (2 ^ 63 - 1))

/-! ## Multiply and divide (R105, R83) -/

/-- MUL (R105). -/
def execMul (p : Pred) (d a b : Reg) (s : State) := binOp p d a b 1 s fun x y => x * y
/-- MULH.S64 (R105). -/
def execMulhS64 (p : Pred) (d a b : Reg) (s : State) :=
  binOp p d a b 1 s fun x y => ofI (x.toInt * y.toInt / 2 ^ 64)
/-- MULH.Z64 (R105). -/
def execMulhZ64 (p : Pred) (d a b : Reg) (s : State) :=
  binOp p d a b 1 s fun x y => ofN (x.toNat * y.toNat / 2 ^ 64)
/-- DIV.S64 (R105). -/
def execDivS64 (p : Pred) (d a b : Reg) (s : State) :=
  binOp p d a b 3 s fun x y => if y = 0 then BitVec.allOnes 64 else ofI (x.toInt.tdiv y.toInt)
/-- DIV.Z64 (R105). -/
def execDivZ64 (p : Pred) (d a b : Reg) (s : State) :=
  binOp p d a b 3 s fun x y => if y = 0 then BitVec.allOnes 64 else ofN (x.toNat / y.toNat)
/-- REM.S64 (R105). -/
def execRemS64 (p : Pred) (d a b : Reg) (s : State) :=
  binOp p d a b 3 s fun x y => if y = 0 then x else ofI (x.toInt - y.toInt * x.toInt.tdiv y.toInt)
/-- REM.Z64 (R105). -/
def execRemZ64 (p : Pred) (d a b : Reg) (s : State) :=
  binOp p d a b 3 s fun x y => if y = 0 then x else ofN (x.toNat - y.toNat * (x.toNat / y.toNat))

/-! ## Bit operations (R106, R107) -/

/-- The zero bits above the highest one among the low n bits. -/
def leadingZeros (n x : Nat) : Nat := if x = 0 then n else n - 1 - x.log2

/-- The zero bits below the lowest one, looking at n bits. -/
def trailingZeros : Nat → Nat → Nat
  | 0, _ => 0
  | n + 1, x => if x % 2 = 1 then 0 else 1 + trailingZeros n (x / 2)

/-- The one bits among the low n. -/
def popCount : Nat → Nat → Nat
  | 0, _ => 0
  | n + 1, x => x % 2 + popCount n (x / 2)

/-- The low n bits in reverse order, above acc. -/
def reverseBits : Nat → Nat → Nat → Nat
  | 0, _, acc => acc
  | n + 1, x, acc => reverseBits n (x / 2) (2 * acc + x % 2)

/-- CLZ (R106). -/
def execClz (p : Pred) (d a : Reg) (s : State) := unOp p d a s fun x => ofN (leadingZeros 64 x.toNat)
/-- CTZ (R106). -/
def execCtz (p : Pred) (d a : Reg) (s : State) := unOp p d a s fun x => ofN (trailingZeros 64 x.toNat)
/-- POPC (R106). -/
def execPopc (p : Pred) (d a : Reg) (s : State) := unOp p d a s fun x => ofN (popCount 64 x.toNat)
/-- BREV (R106). -/
def execBrev (p : Pred) (d a : Reg) (s : State) := unOp p d a s fun x => ofN (reverseBits 64 x.toNat 0)
/-- BSWAP (R106). -/
def execBswap (p : Pred) (d a : Reg) (s : State) := unOp p d a s fun x => ofN (ofLeBytes (leBytes 8 x.toNat).reverse)

/-- The position of a field operand (R107). -/
def fieldPos (b : Word) : Nat := wbits b 5 0
/-- The width of a field operand, clipped at bit 63 (R107). -/
def fieldWidth (b : Word) : Nat := min (wbits b 13 8 + 1) (64 - fieldPos b)

/-- BFX.Z (R107). -/
def execBfxZ (p : Pred) (d a b : Reg) (s : State) :=
  binOp p d a b 1 s fun x y => ofN (x.toNat / 2 ^ fieldPos y % 2 ^ fieldWidth y)
/-- BFX.S (R107). -/
def execBfxS (p : Pred) (d a b : Reg) (s : State) :=
  binOp p d a b 1 s fun x y => sext (fieldWidth y) (x.toNat / 2 ^ fieldPos y % 2 ^ fieldWidth y)
/-- BFI (R107): D is read and written. -/
def execBfi (p : Pred) (d a b : Reg) (s : State) :=
  scalarOp p d [d.toNat, a.toNat, b.toNat] 1 s fun th =>
    let y := th.readS b.toNat
    let mask := ofN ((2 ^ fieldWidth y - 1) * 2 ^ fieldPos y)
    (th.readS d.toNat &&& ~~~mask) ||| ((th.readS a.toNat <<< fieldPos y) &&& mask)

/-- EXT.S8 (R106). -/
def execExtS8 (p : Pred) (d a : Reg) (s : State) := unOp p d a s fun x => sext 8 x.toNat
/-- EXT.S16 (R106). -/
def execExtS16 (p : Pred) (d a : Reg) (s : State) := unOp p d a s fun x => sext 16 x.toNat
/-- EXT.S32 (R106). -/
def execExtS32 (p : Pred) (d a : Reg) (s : State) := unOp p d a s fun x => sext 32 x.toNat
/-- EXT.Z8 (R106). -/
def execExtZ8 (p : Pred) (d a : Reg) (s : State) := unOp p d a s fun x => ofN (x.toNat % 2 ^ 8)
/-- EXT.Z16 (R106). -/
def execExtZ16 (p : Pred) (d a : Reg) (s : State) := unOp p d a s fun x => ofN (x.toNat % 2 ^ 16)
/-- EXT.Z32 (R106). -/
def execExtZ32 (p : Pred) (d a : Reg) (s : State) := unOp p d a s fun x => ofN (x.toNat % 2 ^ 32)

/-! ## Compares (R108) -/

/-- A compare of two registers. -/
def cmp2 (p : Pred) (d a b : Reg) (s : State) (c : Word → Word → Bool) : Host.Outcome State Fault Refusal :=
  cmpOp p d [a.toNat, b.toNat] s fun th => c (th.readS a.toNat) (th.readS b.toNat)
/-- A compare with the sign-extended 7-bit immediate. -/
def cmpImm (p : Pred) (d a : Reg) (i : BitVec 7) (s : State) (c : Word → Word → Bool) :
    Host.Outcome State Fault Refusal :=
  cmpOp p d [a.toNat] s fun th => c (th.readS a.toNat) (i.signExtend 64)

/-- CMP.EQ (R108). -/
def execCmpEq (p : Pred) (d a b : Reg) (s : State) := cmp2 p d a b s fun x y => x == y
/-- CMP.NE (R108). -/
def execCmpNe (p : Pred) (d a b : Reg) (s : State) := cmp2 p d a b s fun x y => x != y
/-- CMP.LT.S64 (R108). -/
def execCmpLtS64 (p : Pred) (d a b : Reg) (s : State) := cmp2 p d a b s fun x y => x.slt y
/-- CMP.LT.Z64 (R108). -/
def execCmpLtZ64 (p : Pred) (d a b : Reg) (s : State) := cmp2 p d a b s fun x y => x.ult y
/-- CMP.LE.S64 (R108). -/
def execCmpLeS64 (p : Pred) (d a b : Reg) (s : State) := cmp2 p d a b s fun x y => x.sle y
/-- CMP.LE.Z64 (R108). -/
def execCmpLeZ64 (p : Pred) (d a b : Reg) (s : State) := cmp2 p d a b s fun x y => x.ule y
/-- CMPI.EQ (R108). -/
def execCmpiEq (p : Pred) (d a : Reg) (i : BitVec 7) (s : State) := cmpImm p d a i s fun x y => x == y
/-- CMPI.NE (R108). -/
def execCmpiNe (p : Pred) (d a : Reg) (i : BitVec 7) (s : State) := cmpImm p d a i s fun x y => x != y
/-- CMPI.LT.S64 (R108). -/
def execCmpiLtS64 (p : Pred) (d a : Reg) (i : BitVec 7) (s : State) := cmpImm p d a i s fun x y => x.slt y
/-- CMPI.LT.Z64 (R108). -/
def execCmpiLtZ64 (p : Pred) (d a : Reg) (i : BitVec 7) (s : State) := cmpImm p d a i s fun x y => x.ult y
/-- CMPI.LE.S64 (R108). -/
def execCmpiLeS64 (p : Pred) (d a : Reg) (i : BitVec 7) (s : State) := cmpImm p d a i s fun x y => x.sle y
/-- CMPI.LE.Z64 (R108). -/
def execCmpiLeZ64 (p : Pred) (d a : Reg) (i : BitVec 7) (s : State) := cmpImm p d a i s fun x y => x.ule y
/-- CMPI.GT.S64 (R108). -/
def execCmpiGtS64 (p : Pred) (d a : Reg) (i : BitVec 7) (s : State) := cmpImm p d a i s fun x y => y.slt x
/-- CMPI.GT.Z64 (R108). -/
def execCmpiGtZ64 (p : Pred) (d a : Reg) (i : BitVec 7) (s : State) := cmpImm p d a i s fun x y => y.ult x

/-! ## Immediate and address forms (R109) -/

/-- ADDL (R109). -/
def execAddl (p : Pred) (d : Reg) (i : BitVec 15) (s : State) :=
  scalarOp p d [d.toNat] 1 s fun th => th.readS d.toNat + i.setWidth 64
/-- ADDI (R109). -/
def execAddi (p : Pred) (d a : Reg) (i : BitVec 10) (s : State) := unOp p d a s fun x => x + i.signExtend 64
/-- ANDI (R109). -/
def execAndi (p : Pred) (d a : Reg) (i : BitVec 10) (s : State) := unOp p d a s fun x => x &&& i.signExtend 64
/-- ORI (R109). -/
def execOri (p : Pred) (d a : Reg) (i : BitVec 10) (s : State) := unOp p d a s fun x => x ||| i.signExtend 64
/-- XORI (R109). -/
def execXori (p : Pred) (d a : Reg) (i : BitVec 10) (s : State) := unOp p d a s fun x => x ^^^ i.signExtend 64
/-- SHLI (R109). -/
def execShli (p : Pred) (d a : Reg) (c : BitVec 6) (s : State) := unOp p d a s fun x => x <<< c.toNat
/-- SHRI (R109). -/
def execShri (p : Pred) (d a : Reg) (c : BitVec 6) (s : State) := unOp p d a s fun x => x >>> c.toNat
/-- SARI (R109). -/
def execSari (p : Pred) (d a : Reg) (c : BitVec 6) (s : State) := unOp p d a s fun x => x.sshiftRight c.toNat
/-- RORI (R109). -/
def execRori (p : Pred) (d a : Reg) (c : BitVec 6) (s : State) := unOp p d a s fun x => x.rotateRight c.toNat
/-- LI (R109). -/
def execLi (p : Pred) (d : Reg) (i : BitVec 15) (s : State) := scalarOp p d [] 1 s fun _ => i.signExtend 64
/-- LIS (R109). -/
def execLis (p : Pred) (d : Reg) (i : BitVec 15) (s : State) :=
  scalarOp p d [d.toNat] 1 s fun th => (th.readS d.toNat <<< 15) ||| i.setWidth 64
/-- ADDPC (R109). -/
def execAddpc (p : Pred) (d : Reg) (i : BitVec 15) (s : State) :=
  scalarOp p d [] 1 s fun th => th.pc + (i.signExtend 64 <<< 2)
/-- ADDPCH (R109). -/
def execAddpch (p : Pred) (d : Reg) (i : BitVec 15) (s : State) :=
  scalarOp p d [] 1 s fun th => (th.pc &&& ~~~(0x7FFF : Word)) + (i.signExtend 64 <<< 15)

/-! ## Floating point (R110-R114) -/

/-- FADD.D (R111). -/
def execFaddD (p : Pred) (d a b : Reg) (s : State) := fpBin p fp64 d a b 1 s fpAdd
/-- FSUB.D (R111). -/
def execFsubD (p : Pred) (d a b : Reg) (s : State) := fpBin p fp64 d a b 1 s fpSub
/-- FMUL.D (R111). -/
def execFmulD (p : Pred) (d a b : Reg) (s : State) := fpBin p fp64 d a b 1 s fpMul
/-- FDIV.D (R111). -/
def execFdivD (p : Pred) (d a b : Reg) (s : State) := fpBin p fp64 d a b 4 s fpDiv
/-- FSQRT.D (R111). -/
def execFsqrtD (p : Pred) (d a : Reg) (s : State) :=
  fpOp p d [a.toNat] 4 s fun th => fpSqrt fp64 th.rm th.ftz (th.fpS fp64 a)
/-- FMIN.D (R111). -/
def execFminD (p : Pred) (d a b : Reg) (s : State) := fpBin p fp64 d a b 1 s fun f _ z x y => fpMinMax f z false x y
/-- FMAX.D (R111). -/
def execFmaxD (p : Pred) (d a b : Reg) (s : State) := fpBin p fp64 d a b 1 s fun f _ z x y => fpMinMax f z true x y
/-- FABS.D (R111). -/
def execFabsD (p : Pred) (d a : Reg) (s : State) := unOp p d a s fun x => ofN (x.toNat % 2 ^ 63)
/-- FNEG.D (R111). -/
def execFnegD (p : Pred) (d a : Reg) (s : State) := unOp p d a s fun x => x ^^^ ofN (2 ^ 63)
/-- FADD.F (R111). -/
def execFaddF (p : Pred) (d a b : Reg) (s : State) := fpBin p fp32 d a b 1 s fpAdd
/-- FSUB.F (R111). -/
def execFsubF (p : Pred) (d a b : Reg) (s : State) := fpBin p fp32 d a b 1 s fpSub
/-- FMUL.F (R111). -/
def execFmulF (p : Pred) (d a b : Reg) (s : State) := fpBin p fp32 d a b 1 s fpMul
/-- FDIV.F (R111). -/
def execFdivF (p : Pred) (d a b : Reg) (s : State) := fpBin p fp32 d a b 2 s fpDiv
/-- FSQRT.F (R111). -/
def execFsqrtF (p : Pred) (d a : Reg) (s : State) :=
  fpOp p d [a.toNat] 2 s fun th => fpSqrt fp32 th.rm th.ftz (th.fpS fp32 a)
/-- FMIN.F (R111). -/
def execFminF (p : Pred) (d a b : Reg) (s : State) := fpBin p fp32 d a b 1 s fun f _ z x y => fpMinMax f z false x y
/-- FMAX.F (R111). -/
def execFmaxF (p : Pred) (d a b : Reg) (s : State) := fpBin p fp32 d a b 1 s fun f _ z x y => fpMinMax f z true x y
/-- FABS.F (R111). -/
def execFabsF (p : Pred) (d a : Reg) (s : State) := unOp p d a s fun x => ofN (x.toNat % 2 ^ 31)
/-- FNEG.F (R111). -/
def execFnegF (p : Pred) (d a : Reg) (s : State) := unOp p d a s fun x => ofN (x.toNat % 2 ^ 32) ^^^ ofN (2 ^ 31)
/-- FMA.D (R112). -/
def execFmaD (p : Pred) (d a b : Reg) (s : State) := fpFused p fp64 false d a b s
/-- FMS.D (R112). -/
def execFmsD (p : Pred) (d a b : Reg) (s : State) := fpFused p fp64 true d a b s
/-- FMA.F (R112). -/
def execFmaF (p : Pred) (d a b : Reg) (s : State) := fpFused p fp32 false d a b s
/-- FMS.F (R112). -/
def execFmsF (p : Pred) (d a b : Reg) (s : State) := fpFused p fp32 true d a b s
/-- FCMP.EQ.D (R113). -/
def execFcmpEqD (p : Pred) (d a b : Reg) (s : State) := fpCmpOp p fp64 .eq d a b s
/-- FCMP.LT.D (R113). -/
def execFcmpLtD (p : Pred) (d a b : Reg) (s : State) := fpCmpOp p fp64 .lt d a b s
/-- FCMP.LE.D (R113). -/
def execFcmpLeD (p : Pred) (d a b : Reg) (s : State) := fpCmpOp p fp64 .le d a b s
/-- FCMP.UN.D (R113). -/
def execFcmpUnD (p : Pred) (d a b : Reg) (s : State) := fpCmpOp p fp64 .un d a b s
/-- FCMP.EQ.F (R113). -/
def execFcmpEqF (p : Pred) (d a b : Reg) (s : State) := fpCmpOp p fp32 .eq d a b s
/-- FCMP.LT.F (R113). -/
def execFcmpLtF (p : Pred) (d a b : Reg) (s : State) := fpCmpOp p fp32 .lt d a b s
/-- FCMP.LE.F (R113). -/
def execFcmpLeF (p : Pred) (d a b : Reg) (s : State) := fpCmpOp p fp32 .le d a b s
/-- FCMP.UN.F (R113). -/
def execFcmpUnF (p : Pred) (d a b : Reg) (s : State) := fpCmpOp p fp32 .un d a b s

/-! ## Conversions and classes (R114-R116) -/

/-- An integer result and its flags as a word. -/
def intRes (r : Int × Nat) : Nat × Nat := ((ofI r.1).toNat, r.2)

/-- CVT.F.D (R116). -/
def execCvtFD (p : Pred) (d a r : Reg) (s : State) := cvtOp p d a r s fun m z x => fpConvert fp64 fp32 m z x.toNat
/-- CVT.D.F (R116): exact. -/
def execCvtDF (p : Pred) (d a : Reg) (s : State) :=
  fpOp p d [a.toNat] 1 s fun th => fpConvert fp32 fp64 th.rm th.ftz (th.fpS fp32 a)
/-- CVT.D.S64 (R116). -/
def execCvtDS64 (p : Pred) (d a r : Reg) (s : State) := cvtOp p d a r s fun m z x => intToFp fp64 m z x.toInt
/-- CVT.D.Z64 (R116). -/
def execCvtDZ64 (p : Pred) (d a r : Reg) (s : State) := cvtOp p d a r s fun m z x => intToFp fp64 m z x.toNat
/-- CVT.S64.D (R116). -/
def execCvtS64D (p : Pred) (d a r : Reg) (s : State) :=
  cvtOp p d a r s fun m z x => intRes (fpToInt fp64 m z (-(2 ^ 63)) (2 ^ 63 - 1) x.toNat)
/-- CVT.Z64.D (R116). -/
def execCvtZ64D (p : Pred) (d a r : Reg) (s : State) :=
  cvtOp p d a r s fun m z x => intRes (fpToInt fp64 m z 0 (2 ^ 64 - 1) x.toNat)
/-- CVT.F.S64 (R116). -/
def execCvtFS64 (p : Pred) (d a r : Reg) (s : State) := cvtOp p d a r s fun m z x => intToFp fp32 m z x.toInt
/-- CVT.S64.F (R116). -/
def execCvtS64F (p : Pred) (d a r : Reg) (s : State) :=
  cvtOp p d a r s fun m z x => intRes (fpToInt fp32 m z (-(2 ^ 63)) (2 ^ 63 - 1) (x.toNat % 2 ^ 32))
/-- CVT.F.Z64 (R116). -/
def execCvtFZ64 (p : Pred) (d a r : Reg) (s : State) := cvtOp p d a r s fun m z x => intToFp fp32 m z x.toNat
/-- CVT.Z64.F (R116). -/
def execCvtZ64F (p : Pred) (d a r : Reg) (s : State) :=
  cvtOp p d a r s fun m z x => intRes (fpToInt fp32 m z 0 (2 ^ 64 - 1) (x.toNat % 2 ^ 32))
/-- FCLASS.D (R114). -/
def execFclassD (p : Pred) (d a : Reg) (s : State) := unOp p d a s fun x => ofN (fpClass fp64 x.toNat)
/-- FCLASS.F (R114). -/
def execFclassF (p : Pred) (d a : Reg) (s : State) := unOp p d a s fun x => ofN (fpClass fp32 (x.toNat % 2 ^ 32))

end Sys2Proof.Machine
end

