-- ==== Sys2Proof/Machine/Tlbw.lean ====
section
/-! DEFINITION. TLBW (R128, R281, R282, R284) and the message of a translation miss (R279, R280). -/

namespace Sys2Proof.Machine

/-- The target of TLBW (R281). -/
structure TlbTarget where
  op : Nat
  size : Nat
  ctx : Nat
  /-- virtual address of the page's first byte -/
  va : Nat
  deriving DecidableEq, Repr

/-- s(A) as a target (R281). -/
def tlbTarget (a : Word) : TlbTarget := ⟨wbits a 1 0, wbits a 3 2, wbits a 15 4, wbits a 55 16 * 2 ^ 16⟩

/-- The page's size in bytes; SIZE 3 is none. -/
def TlbTarget.bytes (g : TlbTarget) : Nat := pageBytes g.size

/-- A virtual address lies in the range of the target: its page, or, for OP 3, all of its context (R282). -/
def TlbTarget.within (g : TlbTarget) (va : Nat) : Bool :=
  g.op == 3 || (decide (g.va ≤ va) && decide (va < g.va + g.bytes))

/-- s(B) as an entry for the target (R281). -/
def tlbEntry (g : TlbTarget) (b : Word) : TlbEntry :=
  { ctx := g.ctx, vpn := g.va / 2 ^ 16, size := g.size, rd := wbit b 0, wr := wbit b 1, ex := wbit b 2, hx := wbit b 3
    tier := wbits b 5 4, key := wbits b 18 8, frame := wbits b 55 20 }

/-- The physical frame an entry may name (R276): a near die 0-23, a far offset below the populated capacity. DEDUCED: log 26. -/
def frameOk (g : TlbTarget) (e : TlbEntry) : Bool :=
  let pa := e.frame * 2 ^ 16
  pa % g.bytes == 0 && e.tier != 3
    && (e.tier != 0 || decide (pa < 24 * 2 ^ 35))
    && (e.tier != 1 || (decide (pa < 2 ^ 42) && decide (pa % 2 ^ 40 + g.bytes ≤ Config.farBytes (pa / 2 ^ 40))))

/-- The target or its entry is invalid (R282). A die control core writes no entry and fails no miss. -/
def tlbInvalid (role : Role) (a b : Word) : Bool :=
  let g := tlbTarget a
  wbits a 63 56 != 0 || g.size == 3 || g.va % g.bytes != 0
    || (match g.op with
        | 0 => role == .dieCtl || wbits b 7 6 != 0 || wbits b 19 19 != 0 || wbits b 63 56 != 0 || !frameOk g (tlbEntry g b)
        | 2 => role == .dieCtl || !(b == 3 || b == 4)
        | _ => b != 0)

/-- The translation units TLBW acts on (R282, R376). DEDUCED: log 23. -/
def tlbUnits (n op : Nat) : List Nat :=
  if roleOf n = .dieCtl ∧ (op = 1 ∨ op = 3) then range ((n - dctlBase) * 16) 16 ++ range 384 4 else [unitOf n]

/-- A request keeps its page pinned (R284): it is parked, or an atomic holds its word. -/
def Flight.pins (f : Flight) : Bool :=
  match f.stage with
  | .queued _ | .deferred | .granted _ | .filling _ => true
  | _ => false

/-- The done words of issued MX.DRAINs (R233), a drain's or a queued command's: context, address, bytes of its page. -/
def Core.donePins (c : Core) : List (Nat × Word × Nat) :=
  ((c.mxQueue.filter fun m => bits m.word.toNat 26 20 == 0x75).map fun m => (m.ctx, m.sx, m.page))
    ++ (c.drain.toList.map fun d => (d.ident.getD 3 0, d.done, d.page))

/-- The pinned words of a context (R284), each with the bytes of its page. -/
def State.pins (s : State) (ctx : Nat) : List (Word × Nat) :=
  ((s.flights.filter fun f => f.ctx == ctx && f.pins).map fun f => (f.va, f.page))
    ++ (s.cores.flatMap fun p => (p.2.donePins.filter fun d => d.1 == ctx).map Prod.snd)

/-- A page that contains a word shares an address with the target's range (R284). -/
def TlbTarget.meets (g : TlbTarget) (va bytes : Nat) : Bool :=
  g.op == 3 || (decide (va / bytes * bytes < g.va + g.bytes) && decide (g.va < va / bytes * bytes + bytes))

/-- A page of the target's range is pinned: a pin covers the whole of its page (R284). -/
def State.pinnedIn (s : State) (g : TlbTarget) : Bool :=
  (s.pins g.ctx).any fun p => windowOf p.1 == .global && g.meets p.1.toNat p.2

/-- An entry lies in the range of a target of its context, or covers a page of it. -/
def TlbTarget.overlaps (g : TlbTarget) (e : TlbEntry) : Bool :=
  e.ctx == g.ctx && (g.op == 3 ||
    (decide (e.vpn * 2 ^ 16 < g.va + g.bytes) && decide (g.va < e.vpn * 2 ^ 16 + pageBytes e.size)))

/-- A present entry of a pinned page whose TIER or FRAME the new one changes (R284). -/
def State.movesPinned (s : State) (u : Nat) (g : TlbTarget) (e : TlbEntry) : Bool :=
  ((s.unit u).tlb.any fun x => g.overlaps x && (x.tier != e.tier || x.keyOf g.va != e.keyOf g.va)) && s.pinnedIn g

/-- The entries of a target's range leave a unit's second level and every micro-TLB it serves. -/
def State.removeEntries (s : State) (u : Nat) (g : TlbTarget) : State :=
  let s1 := s.modUnit u fun x => { x with tlb := x.tlb.filter fun e => !g.overlaps e }
  { s1 with cores := s1.cores.map fun p =>
      if unitOf p.1 = u then (p.1, { p.2 with utlb := p.2.utlb.filter fun e => !g.overlaps e }) else p }

/-- OP 0 (R282): the entry is written and every outstanding miss of its context in its page is released. -/
def State.tlbWrite (s : State) (u : Nat) (g : TlbTarget) (e : TlbEntry) : State :=
  (s.removeEntries u g).modUnit u fun x =>
    { x with
      tlb := e :: x.tlb.take 4095
      misses := x.misses.filter fun m => !(m.failed.isNone && m.ctx == g.ctx && g.within (m.vpn * 2 ^ 16)) }

/-- A miss of the target's page, failed. -/
def Miss.failFor (g : TlbTarget) (c : Cause) (m : Miss) : Miss :=
  if m.failed.isNone && m.ctx == g.ctx && m.vpn == g.va / 2 ^ 16 then { m with failed := some c } else m

/-- OP 2 (R282): the miss is answered with a cause; its waiters meet it when they try again. -/
def State.tlbFail (s : State) (u : Nat) (g : TlbTarget) (c : Cause) : State :=
  s.modUnit u fun x =>
    { x with misses := (x.misses.map (Miss.failFor g c)).filter fun m => m.failed.isNone || !m.waiters.isEmpty }

/-- Accesses of the units' threads in the range that have not been performed (R282: OP 1 and OP 3 complete after
them). -/
def State.usesRange (s : State) (us : List Nat) (g : TlbTarget) : Bool :=
  s.flights.any fun f => f.ctx == g.ctx && us.contains (unitOf f.thread.core) &&
    (match f.kind with
     | .vload ls _ => ls.any fun l => windowOf l.2.1 == .global && g.within l.2.1.toNat
     | _ => windowOf f.va == .global && g.within f.va.toNat)

/-- TLBW of s(A) and s(B), by the OP that s(A) names (R128, R282). OP 1 and OP 3 remove the entries when they begin, and
wait; a refusal is judged when they begin. DEDUCED: log 26. -/
def tlbwForm (p : Pred) (a b : Reg) (s : State) : Host.Outcome State Fault Refusal :=
  issue { Meta.scalar [a.toNat, b.toNat] [] with priv := true } p s fun s1 th =>
    let x := th.readS a.toNat
    let y := th.readS b.toNat
    let n := s1.cur.core
    let g := tlbTarget x
    let us := tlbUnits n g.op
    let begun := match s.thread? s.cur with | some t => t.wait.map Wait.kind == some .older | none => false
    if tlbInvalid (roleOf n) x y then .trap .access x 0x100
    else match g.op with
    | 0 =>
      let e := tlbEntry g y
      if s1.movesPinned (unitOf n) g e then .trap .access x 0x200 else .done (s1.tlbWrite (unitOf n) g e)
    | 2 => .done (s1.tlbFail (unitOf n) g (if y = 3 then .access else .unmapped))
    | _ =>
      if !begun && s1.pinnedIn g then .trap .access x 0x200
      else if s1.usesRange us g then
        .hold ((us.foldl (fun s2 u => s2.removeEntries u g) s).await s.cur .older)
      else .done (us.foldl (fun s2 u => s2.removeEntries u g) s1)

/-- TLBW, write entry (R282). The four rows of TLBW share one word; each acts by the OP in s(A). -/
def execTlbwWriteEntry (p : Pred) (a b : Reg) (s : State) := tlbwForm p a b s
/-- TLBW, invalidate page (R282). -/
def execTlbwInvalidatePage (p : Pred) (a b : Reg) (s : State) := tlbwForm p a b s
/-- TLBW, fail miss (R282). -/
def execTlbwFailMiss (p : Pred) (a b : Reg) (s : State) := tlbwForm p a b s
/-- TLBW, invalidate context (R282). -/
def execTlbwInvalidateContext (p : Pred) (a b : Reg) (s : State) := tlbwForm p a b s

end Sys2Proof.Machine
end

