-- ==== Sys2Proof/Machine/Xfer.lean ====
section
/-! DEFINITION. XFER (R370, R371), the engine that moves and re-lays a tensor (R372-R374), and the bulk transactions
(R361). -/

namespace Sys2Proof.Machine

/-! ## The descriptor (R370, R371) -/

/-- ESIZE, FEMODE, FLAG, QUANT, QROUND and PERM of a descriptor's word 0 (R370). -/
def xfLg (w : Word) : Nat := wbits w 2 0
def xfMode (w : Word) : Nat := wbits w 4 3
def xfFlag (w : Word) : Bool := wbit w 6
def xfQuant (w : Word) : Bool := wbit w 7
def xfRound (w : Word) : Nat := wbits w 10 8
def xfPerm (w : Word) (j : Nat) : Nat := wbits w (15 + 3 * j + 2) (15 + 3 * j)

/-- The FABRIC operands of a descriptor: SRC, DST, SIDE and FADDR. -/
def xfFabric (ws : List Word) : List Word :=
  [ws.getD 1 0, ws.getD 2 0, ws.getD 20 0, ws.getD 3 0].filter fun a => windowOf a == .fabric

/-- A reserved field, FEMODE or QROUND out of order (R371 reason 1). -/
def xfBad1 (ws : List Word) : Bool :=
  let w0 := ws.getD 0 0
  wbit w0 5 || wbits w0 14 11 != 0 || wbits w0 63 30 != 0 || xfMode w0 == 3 || decide (5 < xfRound w0)
    || (List.range 5).any (fun d => wbits (ws.getD (5 + d) 0) 63 32 != 0)
    || (List.range 3).any fun i => ws.getD (21 + i) 0 != 0

/-- A count of 0, or too many elements (reason 2). -/
def xfBad2 (ws : List Word) : Bool :=
  let cs := (List.range 5).map fun d => wbits (ws.getD (5 + d) 0) 31 0
  cs.any (· == 0) || decide (2 ^ 40 < cs.foldl (· * ·) 1)

/-- PERM is not a permutation (reason 3). -/
def xfBad3 (ws : List Word) : Bool :=
  !((List.range 5).all fun d => (List.range 5).any fun j => xfPerm (ws.getD 0 0) j == d)

/-- Operands in other windows, or misaligned (reason 4). -/
def xfBad4 (ws : List Word) : Bool :=
  let outside (a : Word) : Bool := windowOf a != .global && windowOf a != .fabric
  let src := ws.getD 1 0
  let dst := ws.getD 2 0
  let n := 2 ^ xfLg (ws.getD 0 0)
  outside src || outside dst || outside (ws.getD 20 0) || outside (ws.getD 3 0)
    || src.toNat % n != 0 || dst.toNat % n != 0 || (ws.getD 3 0).toNat % 8 != 0
    || (windowOf src == .fabric && windowOf dst == .fabric)

/-- FEMODE with other elements than words, the limits of QUANT, or SIDE without QUANT (reason 5). -/
def xfBad5 (ws : List Word) : Bool :=
  let w0 := ws.getD 0 0
  (xfMode w0 != 0 && xfLg w0 != 3)
    || (xfQuant w0 && (xfLg w0 != 2 || xfMode w0 != 0 || xfPerm w0 0 != 0 || wbits (ws.getD 5 0) 31 0 % 32 != 0
        || ws.getD 15 0 != 0 || (List.range 4).any (fun j => (ws.getD (16 + j) 0).toNat % 16 != 0)
        || (ws.getD 2 0).toNat % 8 != 0 || (ws.getD 20 0).toNat % 8 != 0))
    || (!xfQuant w0 && ws.getD 20 0 != 0)

/-- The reason for which a descriptor is refused, the lowest that applies, or 0 (R371). -/
def State.xfReason (s : State) (ctx : Nat) (ws : List Word) : Nat :=
  if xfBad1 ws then 1
  else if xfBad2 ws then 2
  else if xfBad3 ws then 3
  else if xfBad4 ws then 4
  else if xfBad5 ws then 5
  else if (xfFabric ws).any fun a => (s.fabWindow? ctx a 4).isNone then 6
  else if xfFlag (ws.getD 0 0) && wbit (ws.getD 4 0) 63 then 7
  else 0

/-- The I/O die whose engine an XFER goes to (R371). -/
def State.xfEngine (s : State) (core ctx : Nat) (ws : List Word) : Nat :=
  match (xfFabric ws).head?.bind fun a => s.fabWindow? ctx a 4 with
  | some w => w.port / 8
  | none => if dieOf core < 24 then dieOf core / 6 else dieOf core - 24

/-! ## XFER (R371) -/

/-- The addresses of the three 64-byte parts of a descriptor. -/
def xfParts (va : Word) : List Word := [va, va + 64, va + 128]

/-- The words of a descriptor at the keys of its parts. -/
def State.xfWords (s : State) (ks : List (Nat × Keying)) : List Word :=
  ks.flatMap fun k => (List.range 8).map fun i => ofN (s.readAs k.2 (k.1 + 8 * i) 8)

/-- The words of a descriptor, as addresses with their keys. -/
def xfAddrs (va : Word) (ks : List (Nat × Keying)) : List (Word × Nat) :=
  ((xfParts va).zip ks).flatMap fun p => (List.range 8).map fun i => (p.1 + ofN (8 * i), p.2.1 + 8 * i)

/-- The parts of a descriptor resolved: the first that does not resolve stops the instruction. -/
def State.xfResolve (s : State) (t : ThreadRef) (th : Thread) (va : Word) : List Word → Except Res (List (Nat × Keying))
  | [] => .ok []
  | a :: rest =>
    match s.resolve t th a accEngineRead (.thread t) with
    | .ok key e =>
      match s.xfResolve t th va rest with
      | .ok ks => .ok ((key, s.cipherFor th e) :: ks)
      | .error r => .error r
    | .fault c info => .error (.trap c va info)
    | .miss => .error (.miss a 0)
    | _ => .error (.trap .access va 4)

/-- A new XFER. -/
def Thread.newXfer (th : Thread) (s : State) (engine : Nat) (ws : List Word) : Xfer :=
  { id := s.serial, engine := engine, ctx := th.ctx, core := s.cur.core, slot := s.cur.slot, desc := ws, scope := th.scopeD
    rm := wbits th.fpCtl 2 0, priv := th.privileged, next := 0, thread := s.cur, got := [], writes := [], waiting := none
    filling := false, failed := none, pc := th.pc, who := th.ident }

/-- XFER (R371). -/
def execXfer (p : Pred) (x : Reg) (s : State) : Host.Outcome State Fault Refusal :=
  issue (Meta.scalar [x.toNat] []) p s fun s1 th =>
    let t := s1.cur
    let va := th.readS x.toNat
    if va.toNat % 64 ≠ 0 then .trap .align va 4
    else match s1.xfResolve t th va (xfParts va) with
    | .error r => r
    | .ok ks =>
      match (xfAddrs va ks).find? fun w => s1.eccAt w.2 with
      | some w => .trap .eccUncorrectable w.1 (s1.eccTier w.2)
      | none =>
        let s1 := ks.foldl (fun a k => a.correctAll k.1 64) s1
        let ws := s1.xfWords ks
        let reason := s1.xfReason th.ctx ws
        if reason ≠ 0 then .trap .access va (ofN (4 + reason * 2 ^ 8))
        else
          let e := s1.xfEngine t.core th.ctx ws
          if 64 ≤ (s1.xfers.filter fun y => y.ctx == th.ctx && y.engine == e).length then .wait .room
          else
            let s2 := s1.effectOut th
            .done { s2.tick with xfers := s2.xfers ++ [th.newXfer s2 e ws] }

/-! ## Elements (R372, R373) -/

/-- What stands for an engine in the checks of R192: its I/O die's translation unit (R376), and a thread of the issuing
context. -/
def Xfer.seat (x : Xfer) : ThreadRef := ⟨mastBase + 16 * x.engine, 0⟩
def Xfer.agent (x : Xfer) : Thread := engineThread x.ctx x.priv

/-- Index of dimension d of element n, i0 fastest (R372). -/
def Xfer.idx (x : Xfer) (n d : Nat) : Nat :=
  let below := (List.range d).foldl (fun a k => a * wbits (x.word (5 + k)) 31 0) 1
  n / below % wbits (x.word (5 + d)) 31 0

/-- Source and destination of element n (R372). -/
def Xfer.srcAt (x : Xfer) (n : Nat) : Word := (List.range 5).foldl (fun a d => a + ofN (x.idx n d) * x.word (10 + d)) (x.word 1)
def Xfer.dstAt (x : Xfer) (n : Nat) : Word :=
  (List.range 5).foldl (fun a j => a + ofN (x.idx n (xfPerm (x.word 0) j)) * x.word (15 + j)) (x.word 2)

/-! ### The places of an element

An element may cross from one page into the next: each page is translated and checked by itself (R192, R372). -/

/-- A piece of an element: key, number of bytes, and its encryption (R336). -/
abbrev Piece := Nat × Nat × Keying

/-- The parts of n bytes from an address on that lie in one 64 KiB page each. -/
def pageParts (a : Word) (n : Nat) : List (Word × Nat) :=
  let r := 65536 - a.toNat % 65536
  if n ≤ r then [(a, n)] else [(a, r), (a + ofN r, n - r)]

/-- Where an element lies. -/
inductive Places where
  | ok (ps : List Piece)
  | miss (a : Word)
  | bad (c : Cause) (a : Word)
  deriving DecidableEq, Repr

/-- The parts resolved, one after another. -/
def placesOf (find : Word → EngineXl) (cipher : Option TlbEntry → Keying) : List (Word × Nat) → Places
  | [] => .ok []
  | (a, n) :: r =>
    match find a with
    | .miss => .miss a
    | .bad c => .bad c a
    | .ok key e =>
      match placesOf find cipher r with
      | .ok ps => .ok ((key, n, cipher e) :: ps)
      | x => x

/-- The word of each byte of some pieces. -/
def pieceWords (ps : List Piece) : List Nat := ps.flatMap fun p => (List.range p.2.1).map fun i => wordKey (p.1 + i)

/-- The places of n bytes at an address, none of them in a word with an uncorrectable error. -/
def State.places (s : State) (find : Word → EngineXl) (cipher : Option TlbEntry → Keying) (a : Word) (n : Nat) : Places :=
  match placesOf find cipher (pageParts a n) with
  | .ok ps =>
    let ws := pieceWords ps
    if ws.any s.eccAt then .bad .eccUncorrectable (a + ofN (ws.findIdx s.eccAt)) else .ok ps
  | x => x

/-- The bytes of some pieces. -/
def State.readPieces (s : State) (ps : List Piece) : List Byte := ps.flatMap fun p => leBytes p.2.1 (s.readAs p.2.2 p.1 p.2.1)

/-- Bytes written to some pieces. -/
def State.writePieces (s : State) : List Piece → List Byte → State
  | [], _ => s
  | p :: r, bs => (s.writeAs p.2.2 p.1 p.2.1 (ofLeBytes (bs.take p.2.1))).writePieces r (bs.drop p.2.1)

/-- The bit of the word an element begins in (R372). -/
def State.pieceFull (s : State) (ps : List Piece) : Bool := match ps with | p :: _ => s.full p.1 | [] => false

/-- Single-bit errors of some pieces corrected (R349). -/
def State.correctPieces (s : State) (ps : List Piece) : State := ps.foldl (fun a p => a.correctAll p.1 p.2.1) s

/-- The outcome of one part of an element's move: not yet, or the state after it. -/
abbrev Move := Option State

/-- A failure of an XFER on a translated place (R374). -/
def State.xferBad (s : State) (x : Xfer) (c : Cause) (a : Word) : State :=
  (s.meetFailure x.seat.core (.req x.id)).modXfer x.id fun y => y.fail c.code a

/-- A miss of an engine joins its I/O die's unit (R376); nothing moves yet. -/
def State.xferMiss (s : State) (x : Xfer) (a : Word) (kind : Nat) : State :=
  s.joinMiss (384 + x.engine) x.ctx a kind x.seat (.req x.id)

/-- The first byte of n at a FABRIC address that the window of the first of them does not reach (R366): SIZE is a multiple of a
page, so each page is looked at. A byte of the next window is none of this one's. DEDUCED: log 57. -/
def State.beyondWindow? (s : State) (ctx : Nat) (w : FabWin) (a : Word) (n : Nat) : Option Word :=
  ((pageParts a n).find? fun p => match s.fabWindow? ctx p.1 4 with
    | some v => v.key != w.key + (p.1 - a).toNat
    | none => true).map Prod.fst

/-- A bulk request for an XFER leaves through its window (R366); the engine waits for the reply. -/
def State.xferSend (s : State) (x : Xfer) (op operand : Nat) (a : Word) (payload : List Word) : Move :=
  match s.fabWindow? x.ctx a 4 with
  | none => some (s.modXfer x.id fun y => y.fail 3 a)
  | some w =>
    match s.beyondWindow? x.ctx w a (2 ^ (operand % 8)) with
    | some b => some (s.modXfer x.id fun y => y.fail 3 b)
    | none =>
    if s.streamFull w.port then none
    else
      let r := FabReq.mk' x.id (FabTx.request op x.ctx w operand payload) w none none none a x.pc
      some ((s.postFabric { r with xfer := some x.id }).modXfer x.id fun y => { y with waiting := some x.id })

/-- The access of an element's read and write (R372): with the bit under COPY, and under FILL at the destination. -/
def xfReadAcc (mode : Nat) : Acc := if mode = 1 then accEngineFe false else accEngineRead
def xfWriteAcc (bit : Bool) : Acc := if bit then accEngineFe true else accEngineWrite

/-- The places of an element of an XFER (R372, R376). -/
def State.xferPlaces (s : State) (x : Xfer) (acc : Acc) (a : Word) (lg : Nat) : Places :=
  s.places (fun b => s.engineResolve x.seat x.agent b acc false x.id) (s.cipherFor x.agent) a (2 ^ lg)

/-- The next element is read (R372). -/
def State.xferRead (s : State) (x : Xfer) : Move :=
  let a := x.srcAt x.next
  let lg := xfLg (x.word 0)
  let mode := xfMode (x.word 0)
  if windowOf a = .fabric then s.xferSend x 21 (lg + b2n (mode == 1) * 8) a []
  else match s.xferPlaces x (xfReadAcc mode) a lg with
  | .miss b => some (s.xferMiss x b 0)
  | .bad c b => some (s.xferBad x c b)
  | .ok ps =>
    if (pieceWords ps).any fun k => s.held k then none
    else
      let s1 := s.correctPieces ps
      some (s1.modXfer x.id fun y =>
        { y with next := y.next + 1, got := y.got ++ [(wordsOfBytes (s1.readPieces ps), s1.pieceFull ps)] })

/-- row - DST of R373 for element n: a sum of signed strides. -/
def Xfer.rowOffset (x : Xfer) (n : Nat) : Int :=
  (List.range 5).foldl (fun (a : Int) j => a + x.idx n (xfPerm (x.word 0) j) * (x.word (15 + j)).toInt) 0

/-- The writes of the elements read: one element's, or a block's codes and side pair (R372, R373), a remote one first. -/
def Xfer.plan (x : Xfer) : List XferWrite :=
  let w0 := x.word 0
  let n := x.at_
  if xfQuant w0 then
    let vs := x.got.map fun g => fp32.read false (wbits (g.1.getD 0 0) 31 0)
    let field := xfRound w0
    let th := { Thread.blank with fpCtl := ofN x.rm }
    let r := j4Encode th field vs 0
    let code (h : Nat) : Word := ofN (j4Lane r.codes (2 * h) + j4Lane r.codes (2 * h + 1) * 2 ^ 32)
    let k := x.idx n 0 / 32
    let codes : XferWrite := ⟨x.dstAt n + ofN (16 * k), 4, [code 0, code 1], none⟩
    let side : XferWrite := ⟨x.word 20 + ofI (x.rowOffset n / 8) + ofN (2 * k), 1, [ofN (r.scale + r.special * 2 ^ 8)], none⟩
    if windowOf side.va = .fabric then [side, codes] else [codes, side]
  else
    let g := x.got.headD ([], false)
    [⟨x.dstAt n, xfLg w0, g.1, match xfMode w0 with | 1 => some g.2 | 2 => some true | _ => none⟩]

/-- The elements a plan takes: one, or a block of 32 (R373). -/
def Xfer.unit (x : Xfer) : Nat := if xfQuant (x.word 0) then 32 else 1

/-- An element written at its places, and the bit where the write gives one. -/
def State.putElem (s : State) (ps : List Piece) (w : XferWrite) : State :=
  let s1 := s.writePieces ps (w.data.flatMap fun d => leBytes 8 d.toNat)
  match w.bit, ps with
  | some b, p :: _ => (s1.setFull p.1 b).changed p.1
  | _, _ => s1

/-- The operand of a bulk write (DESIGN CHOICE, log 42): log2 of its size, and the bit it leaves. -/
def XferWrite.operand (w : XferWrite) : Nat := w.lg + b2n w.bit.isSome * 8 + b2n (w.bit == some true) * 16

/-- The first write of an XFER is performed or sent (R372). -/
def State.xferWrite (s : State) (x : Xfer) (w : XferWrite) : Move :=
  if windowOf w.va = .fabric then s.xferSend x 20 w.operand w.va w.data
  else match s.xferPlaces x (xfWriteAcc w.bit.isSome) w.va w.lg with
  | .miss b => some (s.xferMiss x b 1)
  | .bad c b => some (s.xferBad x c b)
  | .ok ps => if (pieceWords ps).any fun k => s.held k then none else some ((s.putElem ps w).modXfer x.id Xfer.wrote)

/-- What keeps one of some writes of an XFER from being performed or sent: a miss, or a failure. None of a block's writes is performed
while another of them cannot be: a failing block leaves nothing in place (R374, R383). -/
def State.xferAhead (s : State) (x : Xfer) : List XferWrite → Option State
  | [] => none
  | w :: r =>
    if windowOf w.va = .fabric then
      (if (s.fabWindow? x.ctx w.va 4).isNone then some (s.modXfer x.id fun y => y.fail 3 w.va) else s.xferAhead x r)
    else match s.xferPlaces x (xfWriteAcc w.bit.isSome) w.va w.lg with
    | .miss b => some (s.xferMiss x b 1)
    | .bad c b => some (s.xferBad x c b)
    | .ok _ => s.xferAhead x r

/-- An atomic holds a word that one of some writes of an XFER goes to (R196): the block's other writes wait for it too. -/
def State.xferStuck (s : State) (x : Xfer) (ws : List XferWrite) : Bool := ws.any fun w =>
  windowOf w.va != .fabric && (match s.xferPlaces x (xfWriteAcc w.bit.isSome) w.va w.lg with
    | .ok ps => (pieceWords ps).any s.held
    | _ => false)

/-- One part of an XFER's work: a read, the plan of the writes, or a write. None when it has to wait. -/
def State.xferPart (s : State) (id : Nat) : Move :=
  match s.xfers.find? fun x => x.id == id with
  | none => none
  | some x =>
    if x.waiting.isSome || x.filling || x.failed.isSome then none
    else match x.writes with
    | w :: r => if s.xferStuck x r then none else (s.xferAhead x r).or (s.xferWrite x w)
    | [] =>
      if x.unit ≤ x.got.length then some (s.modXfer id fun y => { y with writes := y.plan })
      else if x.next < x.total then s.xferRead x
      else none

/-- An element, or a block, is over. -/
def State.xferPaused (s : State) (id : Nat) : Bool :=
  match s.xfers.find? fun x => x.id == id with
  | none => true
  | some x => x.waiting.isSome || x.failed.isSome || (x.got.isEmpty && x.writes.isEmpty)

/-- The parts of one element or block. -/
def State.xferRun : Nat → State → Nat → State
  | 0, s, _ => s
  | n + 1, s, id =>
    match s.xferPart id with
    | none => s
    | some s1 => if s1.xferPaused id then s1 else xferRun n s1 id

/-- An XFER may not begin yet: its engine begins those of one thread in issue order (R384). -/
def State.xferHeld (s : State) (x : Xfer) : Bool :=
  !x.begun && s.xfers.any fun y => !y.begun && y.engine == x.engine && y.who == x.who && decide (y.id < x.id)

/-- XFER_ELEMENT (R372, R373, R384): the engine reads one element and writes it at its destination, or requantises a block; what
lies in a remote package travels as bulk transactions. DEDUCED: log 57. -/
def execXferElement (id : Nat) (s : State) : Host.Outcome State Fault Refusal :=
  match s.xfers.find? fun x => x.id == id with
  | none => .next s
  | some x => if s.xferHeld x then .next s else .next ((s.modXfer id fun y => { y with begun := true }).xferRun (x.unit + 4) id)

/-! ## Completion and failure (R372, R374) -/

/-- An XFER that is over. -/
def State.dropXfer (s : State) (id : Nat) : State := { s with xfers := eraseFirst (fun x => x.id == id) s.xfers }

/-- XFER_COMPLETE (R372, R374): once every write has been performed, FVAL is filled into FADDR when FLAG is set; a
completion word that cannot be filled makes the XFER count as failed. -/
def execXferComplete (id : Nat) (s : State) : Host.Outcome State Fault Refusal :=
  match s.xfers.find? fun x => x.id == id with
  | none => .next s
  | some x =>
    if x.next < x.total || !x.got.isEmpty || !x.writes.isEmpty || x.waiting.isSome || x.filling || x.failed.isSome then .next s
    else if !xfFlag (x.word 0) then .next (s.dropXfer id)
    else
      let a := x.word 3
      if windowOf a = .fabric then
        match s.xferSend x 20 (3 + 8 + 16) a [x.word 4] with
        | some s1 => .next (s1.modXfer id fun y => { y with filling := y.waiting.isSome })
        | none => .next s
      else match s.engineResolve x.seat x.agent a (accEngineFe true) false id with
      | .miss => .next (s.xferMiss x a 3)
      | .bad c => .next (s.xferBad x c a)
      | .ok key e => if s.held key then .next s else .next ((s.fillWord (s.cipherFor x.agent e) key (x.word 4)).dropXfer id)

/-- The value that FADDR takes after a failure at element e (R374). DEDUCED: log 57. -/
def failWord (e cause : Nat) : Word := ofN (2 ^ 63 + e * 2 ^ 8 + cause)

/-- FADDR after a failure (R374): none while it has to wait. It is not filled where it cannot be. -/
def State.failFill (s : State) (x : Xfer) (v : Word) : Move :=
  let a := x.word 3
  if windowOf a = .fabric then
    match s.fabWindow? x.ctx a 4 with
    | none => some s
    | some w =>
      if s.streamFull w.port then none
      else some (s.tick.postFabric (FabReq.mk' s.serial (FabTx.request 20 x.ctx w (3 + 8 + 16) [v]) w none none none a x.pc))
  else match s.engineResolve x.seat x.agent a (accEngineFe true) false x.id with
  | .miss => none
  | .bad _ => some (s.meetFailure x.seat.core (.req x.id))
  | .ok key e => if s.held key then none else some (s.fillWord (s.cipherFor x.agent e) key v)

/-- XFER_FAIL (R374): the failure is recorded in the context's fault queue, and FADDR filled with it when FLAG is set, but
not when filling it was what failed. -/
def execXferFail (id : Nat) (s : State) : Host.Outcome State Fault Refusal :=
  match s.xfers.find? fun x => x.id == id with
  | none => .next s
  | some x =>
    match x.failed with
    | none => .next s
    | some (e, cause, a) =>
      let filled := if xfFlag (x.word 0) && decide (e < x.total) then s.failFill x (failWord e cause) else some s
      match filled with
      | none =>
        -- the completion word's page is asked for
        if windowOf (x.word 3) = .fabric then .next s else
        match s.engineResolve x.seat x.agent (x.word 3) (accEngineFe true) false id with
        | .miss => .next (s.xferMiss x (x.word 3) 3)
        | _ => .next s
      | some s1 =>
        match s1.engineRecord x.core x.slot x.ctx true (if cause = 0xFD then 3 else cause) false x.pc a
            (ofN (e * 2 ^ xfLg (x.word 0))) (xfLg (x.word 0)) with
        | some s2 => .next (s2.dropXfer id)
        | none => .next s

/-! ## Bulk transactions (R361) -/

/-- A bulk request at its home, its element resolved page by page (R366, R372): act is what it does there. -/
def State.homeBulk (s : State) (tx : FabTx) (op reply lg : Nat) (acc : Acc) (act : State → Nat → List Piece → State) : State :=
  s.homeRequest tx op reply 31 acc fun s1 port _ _ =>
    match s1.places (s1.homeResolve port · tx 31 acc) (s1.cipherFor (homeThread tx)) tx.addr (2 ^ lg) with
    | .miss b => some (s.joinMiss (384 + port / 8) tx.ctx.toNat b acc.kind (homeSeat port) (.req (homeWaiter port)))
    | .bad c _ => some (s1.answerBad port tx reply c acc.info)
    | .ok ps => if (pieceWords ps).any fun k => s1.held k then none else some (act s1 port ps)

/-- XFER_WRITE (R361, R372): the home performs a bulk write. -/
def execXferWrite (tx : FabTx) (s : State) : Host.Outcome State Fault Refusal :=
  let lg := tx.operand.toNat % 8
  let bit := tx.operand.toNat / 8 % 2 == 1
  .next (s.homeBulk tx 20 16 lg (xfWriteAcc bit) fun s1 port ps =>
    let w : XferWrite := ⟨tx.addr, lg, tx.payload, if bit then some (tx.operand.toNat / 16 % 2 == 1) else none⟩
    (s1.putElem ps w).answer port tx 16 0 [0])

/-- XFER_READ (R361, R372): the home serves a bulk read: data, then the bit. -/
def execXferRead (tx : FabTx) (s : State) : Host.Outcome State Fault Refusal :=
  let lg := tx.operand.toNat % 8
  .next (s.homeBulk tx 21 22 lg (xfReadAcc (tx.operand.toNat / 8 % 2)) fun s1 port ps =>
    let s2 := s1.correctPieces ps
    s2.answer port tx 22 0 (wordsOfBytes (s2.readPieces ps) ++ [ofN (b2n (s2.pieceFull ps))]))

/-- XFER_READ_DATA (R361, R372): read data arrive at the engine. -/
def execXferReadData (tx : FabTx) (s : State) : Host.Outcome State Fault Refusal := .next (s.takeReply tx 22)

end Sys2Proof.Machine
end

