-- ==== Sys2Proof/Machine/Dispatch.lean ====
section
/-! DEFINITION. One arm per instruction: its meaning. -/

namespace Sys2Proof.Machine

def exec (i : Instr) (s : State) : Host.Outcome State Fault Refusal :=
  match i with
  | .add p d a b => Sys2Proof.Machine.execAdd p d a b s
  | .sub p d a b => Sys2Proof.Machine.execSub p d a b s
  | .and p d a b => Sys2Proof.Machine.execAnd p d a b s
  | .or p d a b => Sys2Proof.Machine.execOr p d a b s
  | .xor p d a b => Sys2Proof.Machine.execXor p d a b s
  | .andn p d a b => Sys2Proof.Machine.execAndn p d a b s
  | .shl p d a b => Sys2Proof.Machine.execShl p d a b s
  | .shr p d a b => Sys2Proof.Machine.execShr p d a b s
  | .sar p d a b => Sys2Proof.Machine.execSar p d a b s
  | .ror p d a b => Sys2Proof.Machine.execRor p d a b s
  | .minS64 p d a b => Sys2Proof.Machine.execMinS64 p d a b s
  | .minZ64 p d a b => Sys2Proof.Machine.execMinZ64 p d a b s
  | .maxS64 p d a b => Sys2Proof.Machine.execMaxS64 p d a b s
  | .maxZ64 p d a b => Sys2Proof.Machine.execMaxZ64 p d a b s
  | .addsS64 p d a b => Sys2Proof.Machine.execAddsS64 p d a b s
  | .subsS64 p d a b => Sys2Proof.Machine.execSubsS64 p d a b s
  | .mul p d a b => Sys2Proof.Machine.execMul p d a b s
  | .mulhS64 p d a b => Sys2Proof.Machine.execMulhS64 p d a b s
  | .mulhZ64 p d a b => Sys2Proof.Machine.execMulhZ64 p d a b s
  | .divS64 p d a b => Sys2Proof.Machine.execDivS64 p d a b s
  | .divZ64 p d a b => Sys2Proof.Machine.execDivZ64 p d a b s
  | .remS64 p d a b => Sys2Proof.Machine.execRemS64 p d a b s
  | .remZ64 p d a b => Sys2Proof.Machine.execRemZ64 p d a b s
  | .clz p d a => Sys2Proof.Machine.execClz p d a s
  | .ctz p d a => Sys2Proof.Machine.execCtz p d a s
  | .popc p d a => Sys2Proof.Machine.execPopc p d a s
  | .brev p d a => Sys2Proof.Machine.execBrev p d a s
  | .bswap p d a => Sys2Proof.Machine.execBswap p d a s
  | .bfxZ p d a b => Sys2Proof.Machine.execBfxZ p d a b s
  | .bfxS p d a b => Sys2Proof.Machine.execBfxS p d a b s
  | .bfi p d a b => Sys2Proof.Machine.execBfi p d a b s
  | .extS8 p d a => Sys2Proof.Machine.execExtS8 p d a s
  | .extS16 p d a => Sys2Proof.Machine.execExtS16 p d a s
  | .extS32 p d a => Sys2Proof.Machine.execExtS32 p d a s
  | .extZ8 p d a => Sys2Proof.Machine.execExtZ8 p d a s
  | .extZ16 p d a => Sys2Proof.Machine.execExtZ16 p d a s
  | .extZ32 p d a => Sys2Proof.Machine.execExtZ32 p d a s
  | .cmpEq p d a b => Sys2Proof.Machine.execCmpEq p d a b s
  | .cmpNe p d a b => Sys2Proof.Machine.execCmpNe p d a b s
  | .cmpLtS64 p d a b => Sys2Proof.Machine.execCmpLtS64 p d a b s
  | .cmpLtZ64 p d a b => Sys2Proof.Machine.execCmpLtZ64 p d a b s
  | .cmpLeS64 p d a b => Sys2Proof.Machine.execCmpLeS64 p d a b s
  | .cmpLeZ64 p d a b => Sys2Proof.Machine.execCmpLeZ64 p d a b s
  | .addl p d imm => Sys2Proof.Machine.execAddl p d imm s
  | .addi p d a imm => Sys2Proof.Machine.execAddi p d a imm s
  | .andi p d a imm => Sys2Proof.Machine.execAndi p d a imm s
  | .ori p d a imm => Sys2Proof.Machine.execOri p d a imm s
  | .xori p d a imm => Sys2Proof.Machine.execXori p d a imm s
  | .shli p d a c => Sys2Proof.Machine.execShli p d a c s
  | .shri p d a c => Sys2Proof.Machine.execShri p d a c s
  | .sari p d a c => Sys2Proof.Machine.execSari p d a c s
  | .rori p d a c => Sys2Proof.Machine.execRori p d a c s
  | .cmpiEq p d a imm => Sys2Proof.Machine.execCmpiEq p d a imm s
  | .cmpiNe p d a imm => Sys2Proof.Machine.execCmpiNe p d a imm s
  | .cmpiLtS64 p d a imm => Sys2Proof.Machine.execCmpiLtS64 p d a imm s
  | .cmpiLtZ64 p d a imm => Sys2Proof.Machine.execCmpiLtZ64 p d a imm s
  | .cmpiLeS64 p d a imm => Sys2Proof.Machine.execCmpiLeS64 p d a imm s
  | .cmpiLeZ64 p d a imm => Sys2Proof.Machine.execCmpiLeZ64 p d a imm s
  | .cmpiGtS64 p d a imm => Sys2Proof.Machine.execCmpiGtS64 p d a imm s
  | .cmpiGtZ64 p d a imm => Sys2Proof.Machine.execCmpiGtZ64 p d a imm s
  | .li p d imm => Sys2Proof.Machine.execLi p d imm s
  | .lis p d imm => Sys2Proof.Machine.execLis p d imm s
  | .addpc p d imm => Sys2Proof.Machine.execAddpc p d imm s
  | .addpch p d imm => Sys2Proof.Machine.execAddpch p d imm s
  | .faddD p d a b => Sys2Proof.Machine.execFaddD p d a b s
  | .fsubD p d a b => Sys2Proof.Machine.execFsubD p d a b s
  | .fmulD p d a b => Sys2Proof.Machine.execFmulD p d a b s
  | .fdivD p d a b => Sys2Proof.Machine.execFdivD p d a b s
  | .fsqrtD p d a => Sys2Proof.Machine.execFsqrtD p d a s
  | .fminD p d a b => Sys2Proof.Machine.execFminD p d a b s
  | .fmaxD p d a b => Sys2Proof.Machine.execFmaxD p d a b s
  | .fabsD p d a => Sys2Proof.Machine.execFabsD p d a s
  | .fnegD p d a => Sys2Proof.Machine.execFnegD p d a s
  | .faddF p d a b => Sys2Proof.Machine.execFaddF p d a b s
  | .fsubF p d a b => Sys2Proof.Machine.execFsubF p d a b s
  | .fmulF p d a b => Sys2Proof.Machine.execFmulF p d a b s
  | .fdivF p d a b => Sys2Proof.Machine.execFdivF p d a b s
  | .fsqrtF p d a => Sys2Proof.Machine.execFsqrtF p d a s
  | .fminF p d a b => Sys2Proof.Machine.execFminF p d a b s
  | .fmaxF p d a b => Sys2Proof.Machine.execFmaxF p d a b s
  | .fabsF p d a => Sys2Proof.Machine.execFabsF p d a s
  | .fnegF p d a => Sys2Proof.Machine.execFnegF p d a s
  | .fmaD p d a b => Sys2Proof.Machine.execFmaD p d a b s
  | .fmsD p d a b => Sys2Proof.Machine.execFmsD p d a b s
  | .fmaF p d a b => Sys2Proof.Machine.execFmaF p d a b s
  | .fmsF p d a b => Sys2Proof.Machine.execFmsF p d a b s
  | .fcmpEqD p d a b => Sys2Proof.Machine.execFcmpEqD p d a b s
  | .fcmpLtD p d a b => Sys2Proof.Machine.execFcmpLtD p d a b s
  | .fcmpLeD p d a b => Sys2Proof.Machine.execFcmpLeD p d a b s
  | .fcmpUnD p d a b => Sys2Proof.Machine.execFcmpUnD p d a b s
  | .fcmpEqF p d a b => Sys2Proof.Machine.execFcmpEqF p d a b s
  | .fcmpLtF p d a b => Sys2Proof.Machine.execFcmpLtF p d a b s
  | .fcmpLeF p d a b => Sys2Proof.Machine.execFcmpLeF p d a b s
  | .fcmpUnF p d a b => Sys2Proof.Machine.execFcmpUnF p d a b s
  | .cvtFD p d a r => Sys2Proof.Machine.execCvtFD p d a r s
  | .cvtDF p d a => Sys2Proof.Machine.execCvtDF p d a s
  | .cvtDS64 p d a r => Sys2Proof.Machine.execCvtDS64 p d a r s
  | .cvtDZ64 p d a r => Sys2Proof.Machine.execCvtDZ64 p d a r s
  | .cvtS64D p d a r => Sys2Proof.Machine.execCvtS64D p d a r s
  | .cvtZ64D p d a r => Sys2Proof.Machine.execCvtZ64D p d a r s
  | .cvtFS64 p d a r => Sys2Proof.Machine.execCvtFS64 p d a r s
  | .cvtS64F p d a r => Sys2Proof.Machine.execCvtS64F p d a r s
  | .cvtFZ64 p d a r => Sys2Proof.Machine.execCvtFZ64 p d a r s
  | .cvtZ64F p d a r => Sys2Proof.Machine.execCvtZ64F p d a r s
  | .fclassD p d a => Sys2Proof.Machine.execFclassD p d a s
  | .fclassF p d a => Sys2Proof.Machine.execFclassF p d a s
  | .br p imm => Sys2Proof.Machine.execBr p imm s
  | .call p imm => Sys2Proof.Machine.execCall p imm s
  | .jmp p a => Sys2Proof.Machine.execJmp p a s
  | .callr p d a => Sys2Proof.Machine.execCallr p d a s
  | .loop p d imm => Sys2Proof.Machine.execLoop p d imm s
  | .bany p g imm => Sys2Proof.Machine.execBany p g imm s
  | .ball p g imm => Sys2Proof.Machine.execBall p g imm s
  | .mfs p d c => Sys2Proof.Machine.execMfs p d c s
  | .mts p d c => Sys2Proof.Machine.execMts p d c s
  | .eret p => Sys2Proof.Machine.execEret p s
  | .brk p => Sys2Proof.Machine.execBrk p s
  | .halt p => Sys2Proof.Machine.execHalt p s
  | .drainSt p => Sys2Proof.Machine.execDrainSt p s
  | .fenceI p => Sys2Proof.Machine.execFenceI p s
  | .tlbwWriteEntry p a b => Sys2Proof.Machine.execTlbwWriteEntry p a b s
  | .tlbwInvalidatePage p a b => Sys2Proof.Machine.execTlbwInvalidatePage p a b s
  | .tlbwFailMiss p a b => Sys2Proof.Machine.execTlbwFailMiss p a b s
  | .tlbwInvalidateContext p a b => Sys2Proof.Machine.execTlbwInvalidateContext p a b s
  | .sleep p => Sys2Proof.Machine.execSleep p s
  | .nop p => Sys2Proof.Machine.execNop p s
  | .trap p imm => Sys2Proof.Machine.execTrap p imm s
  | .ld p t b l o => Sys2Proof.Machine.execLd p t b l o s
  | .ldS32 p t b l o => Sys2Proof.Machine.execLdS32 p t b l o s
  | .ldZ32 p t b l o => Sys2Proof.Machine.execLdZ32 p t b l o s
  | .ldS16 p t b l o => Sys2Proof.Machine.execLdS16 p t b l o s
  | .ldZ16 p t b l o => Sys2Proof.Machine.execLdZ16 p t b l o s
  | .ldS8 p t b l o => Sys2Proof.Machine.execLdS8 p t b l o s
  | .ldZ8 p t b l o => Sys2Proof.Machine.execLdZ8 p t b l o s
  | .st p t b o => Sys2Proof.Machine.execSt p t b o s
  | .st32 p t b o => Sys2Proof.Machine.execSt32 p t b o s
  | .st16 p t b o => Sys2Proof.Machine.execSt16 p t b o s
  | .st8 p t b o => Sys2Proof.Machine.execSt8 p t b o s
  | .ldW p t b l o => Sys2Proof.Machine.execLdW p t b l o s
  | .ldT p t b l o => Sys2Proof.Machine.execLdT p t b l o s
  | .stF p t b o => Sys2Proof.Machine.execStF p t b o s
  | .stS p t b o => Sys2Proof.Machine.execStS p t b o s
  | .feProbe p t b l o => Sys2Proof.Machine.execFeProbe p t b l o s
  | .feClr p b o => Sys2Proof.Machine.execFeClr p b o s
  | .amoAdd p x y l => Sys2Proof.Machine.execAmoAdd p x y l s
  | .amoAnd p x y l => Sys2Proof.Machine.execAmoAnd p x y l s
  | .amoOr p x y l => Sys2Proof.Machine.execAmoOr p x y l s
  | .amoXor p x y l => Sys2Proof.Machine.execAmoXor p x y l s
  | .amoMinS64 p x y l => Sys2Proof.Machine.execAmoMinS64 p x y l s
  | .amoMaxS64 p x y l => Sys2Proof.Machine.execAmoMaxS64 p x y l s
  | .amoMinZ64 p x y l => Sys2Proof.Machine.execAmoMinZ64 p x y l s
  | .amoMaxZ64 p x y l => Sys2Proof.Machine.execAmoMaxZ64 p x y l s
  | .amoSwap p x y l => Sys2Proof.Machine.execAmoSwap p x y l s
  | .amoCas p x y l => Sys2Proof.Machine.execAmoCas p x y l s
  | .redAdd p x y => Sys2Proof.Machine.execRedAdd p x y s
  | .redAnd p x y => Sys2Proof.Machine.execRedAnd p x y s
  | .redOr p x y => Sys2Proof.Machine.execRedOr p x y s
  | .redMinS64 p x y => Sys2Proof.Machine.execRedMinS64 p x y s
  | .redMaxS64 p x y => Sys2Proof.Machine.execRedMaxS64 p x y s
  | .redMinZ64 p x y => Sys2Proof.Machine.execRedMinZ64 p x y s
  | .redMaxZ64 p x y => Sys2Proof.Machine.execRedMaxZ64 p x y s
  | .rfence p => Sys2Proof.Machine.execRfence p s
  | .cpPlain p d a b => Sys2Proof.Machine.execCpPlain p d a b s
  | .cpCopy p d a b => Sys2Proof.Machine.execCpCopy p d a b s
  | .cpFill p d a b => Sys2Proof.Machine.execCpFill p d a b s
  | .cpNeed p d a b => Sys2Proof.Machine.execCpNeed p d a b s
  | .cpTake p d a b => Sys2Proof.Machine.execCpTake p d a b s
  | .cbatch p d => Sys2Proof.Machine.execCbatch p d s
  | .cwait p a => Sys2Proof.Machine.execCwait p a s
  | .xfence p => Sys2Proof.Machine.execXfence p s
  | .vAdd p d a b => Sys2Proof.Machine.execVAdd p d a b s
  | .vSub p d a b => Sys2Proof.Machine.execVSub p d a b s
  | .vMul p d a b => Sys2Proof.Machine.execVMul p d a b s
  | .vMulhS32 p d a b => Sys2Proof.Machine.execVMulhS32 p d a b s
  | .vMulhZ32 p d a b => Sys2Proof.Machine.execVMulhZ32 p d a b s
  | .vAnd p d a b => Sys2Proof.Machine.execVAnd p d a b s
  | .vOr p d a b => Sys2Proof.Machine.execVOr p d a b s
  | .vXor p d a b => Sys2Proof.Machine.execVXor p d a b s
  | .vShl p d a b => Sys2Proof.Machine.execVShl p d a b s
  | .vShr p d a b => Sys2Proof.Machine.execVShr p d a b s
  | .vSar p d a b => Sys2Proof.Machine.execVSar p d a b s
  | .vMinS32 p d a b => Sys2Proof.Machine.execVMinS32 p d a b s
  | .vMinZ32 p d a b => Sys2Proof.Machine.execVMinZ32 p d a b s
  | .vMaxS32 p d a b => Sys2Proof.Machine.execVMaxS32 p d a b s
  | .vMaxZ32 p d a b => Sys2Proof.Machine.execVMaxZ32 p d a b s
  | .vAddsS32 p d a b => Sys2Proof.Machine.execVAddsS32 p d a b s
  | .vSubsS32 p d a b => Sys2Proof.Machine.execVSubsS32 p d a b s
  | .vAbsS32 p d a => Sys2Proof.Machine.execVAbsS32 p d a s
  | .vFaddF p d a b => Sys2Proof.Machine.execVFaddF p d a b s
  | .vFsubF p d a b => Sys2Proof.Machine.execVFsubF p d a b s
  | .vFmulF p d a b => Sys2Proof.Machine.execVFmulF p d a b s
  | .vFdivF p d a b => Sys2Proof.Machine.execVFdivF p d a b s
  | .vFsqrtF p d a => Sys2Proof.Machine.execVFsqrtF p d a s
  | .vFminF p d a b => Sys2Proof.Machine.execVFminF p d a b s
  | .vFmaxF p d a b => Sys2Proof.Machine.execVFmaxF p d a b s
  | .vFabsF p d a => Sys2Proof.Machine.execVFabsF p d a s
  | .vFnegF p d a => Sys2Proof.Machine.execVFnegF p d a s
  | .vFmaF p d a b => Sys2Proof.Machine.execVFmaF p d a b s
  | .vFmsF p d a b => Sys2Proof.Machine.execVFmsF p d a b s
  | .vFaddH p d a b => Sys2Proof.Machine.execVFaddH p d a b s
  | .vFmulH p d a b => Sys2Proof.Machine.execVFmulH p d a b s
  | .vFmaH p d a b => Sys2Proof.Machine.execVFmaH p d a b s
  | .vFaddB p d a b => Sys2Proof.Machine.execVFaddB p d a b s
  | .vFmulB p d a b => Sys2Proof.Machine.execVFmulB p d a b s
  | .vFmaB p d a b => Sys2Proof.Machine.execVFmaB p d a b s
  | .vFaddD p d a b => Sys2Proof.Machine.execVFaddD p d a b s
  | .vFsubD p d a b => Sys2Proof.Machine.execVFsubD p d a b s
  | .vFmulD p d a b => Sys2Proof.Machine.execVFmulD p d a b s
  | .vFmaD p d a b => Sys2Proof.Machine.execVFmaD p d a b s
  | .vFminD p d a b => Sys2Proof.Machine.execVFminD p d a b s
  | .vFmaxD p d a b => Sys2Proof.Machine.execVFmaxD p d a b s
  | .vFdivD p d a b => Sys2Proof.Machine.execVFdivD p d a b s
  | .vFsqrtD p d a => Sys2Proof.Machine.execVFsqrtD p d a s
  | .vCmpEq p d a b => Sys2Proof.Machine.execVCmpEq p d a b s
  | .vCmpNe p d a b => Sys2Proof.Machine.execVCmpNe p d a b s
  | .vCmpLtS32 p d a b => Sys2Proof.Machine.execVCmpLtS32 p d a b s
  | .vCmpLtZ32 p d a b => Sys2Proof.Machine.execVCmpLtZ32 p d a b s
  | .vCmpLeS32 p d a b => Sys2Proof.Machine.execVCmpLeS32 p d a b s
  | .vCmpLeZ32 p d a b => Sys2Proof.Machine.execVCmpLeZ32 p d a b s
  | .vFcmpEqF p d a b => Sys2Proof.Machine.execVFcmpEqF p d a b s
  | .vFcmpLtF p d a b => Sys2Proof.Machine.execVFcmpLtF p d a b s
  | .vFcmpLeF p d a b => Sys2Proof.Machine.execVFcmpLeF p d a b s
  | .vFcmpUnF p d a b => Sys2Proof.Machine.execVFcmpUnF p d a b s
  | .vCvtFS32 p d a r => Sys2Proof.Machine.execVCvtFS32 p d a r s
  | .vCvtS32F p d a r => Sys2Proof.Machine.execVCvtS32F p d a r s
  | .vCvtHF p d a r => Sys2Proof.Machine.execVCvtHF p d a r s
  | .vCvtFH p d a => Sys2Proof.Machine.execVCvtFH p d a s
  | .vCvtBF p d a r => Sys2Proof.Machine.execVCvtBF p d a r s
  | .vCvtFB p d a => Sys2Proof.Machine.execVCvtFB p d a s
  | .vCvtE43F p d a r => Sys2Proof.Machine.execVCvtE43F p d a r s
  | .vCvtFE43 p d a => Sys2Proof.Machine.execVCvtFE43 p d a s
  | .vCvtE52F p d a r => Sys2Proof.Machine.execVCvtE52F p d a r s
  | .vCvtFE52 p d a => Sys2Proof.Machine.execVCvtFE52 p d a s
  | .vCvtDF p d a => Sys2Proof.Machine.execVCvtDF p d a s
  | .vCvtFD p d a r => Sys2Proof.Machine.execVCvtFD p d a r s
  | .vMov p d a => Sys2Proof.Machine.execVMov p d a s
  | .vBcast p d a => Sys2Proof.Machine.execVBcast p d a s
  | .vPerm p d a b => Sys2Proof.Machine.execVPerm p d a b s
  | .vRev p d a => Sys2Proof.Machine.execVRev p d a s
  | .vRot p d a b => Sys2Proof.Machine.execVRot p d a b s
  | .vIns p d a b => Sys2Proof.Machine.execVIns p d a b s
  | .vExt p d a b => Sys2Proof.Machine.execVExt p d a b s
  | .vFirst p d a => Sys2Proof.Machine.execVFirst p d a s
  | .vRsumF p d a => Sys2Proof.Machine.execVRsumF p d a s
  | .vRsumS32 p d a => Sys2Proof.Machine.execVRsumS32 p d a s
  | .vRminF p d a => Sys2Proof.Machine.execVRminF p d a s
  | .vRmaxF p d a => Sys2Proof.Machine.execVRmaxF p d a s
  | .vRminS32 p d a => Sys2Proof.Machine.execVRminS32 p d a s
  | .vRmaxS32 p d a => Sys2Proof.Machine.execVRmaxS32 p d a s
  | .vRand p d a => Sys2Proof.Machine.execVRand p d a s
  | .vRbor p d a => Sys2Proof.Machine.execVRbor p d a s
  | .vRxor p d a => Sys2Proof.Machine.execVRxor p d a s
  | .vJ4dec p d a b => Sys2Proof.Machine.execVJ4dec p d a b s
  | .vJ4enc p d a b => Sys2Proof.Machine.execVJ4enc p d a b s
  | .vBaddq p d a r => Sys2Proof.Machine.execVBaddq p d a r s
  | .vLd p t b l o => Sys2Proof.Machine.execVLd p t b l o s
  | .vSt p t b o => Sys2Proof.Machine.execVSt p t b o s
  | .vLds p x y l sc => Sys2Proof.Machine.execVLds p x y l sc s
  | .vSts p x y sc => Sys2Proof.Machine.execVSts p x y sc s
  | .vGather p x y l k => Sys2Proof.Machine.execVGather p x y l k s
  | .vScatter p x y k => Sys2Proof.Machine.execVScatter p x y k s
  | .fAnd p d a b => Sys2Proof.Machine.execFAnd p d a b s
  | .fOr p d a b => Sys2Proof.Machine.execFOr p d a b s
  | .fXor p d a b => Sys2Proof.Machine.execFXor p d a b s
  | .fAndn p d a b => Sys2Proof.Machine.execFAndn p d a b s
  | .fNot p d a => Sys2Proof.Machine.execFNot p d a s
  | .fSet p d a => Sys2Proof.Machine.execFSet p d a s
  | .fGet p d a => Sys2Proof.Machine.execFGet p d a s
  | .fPopc p d a => Sys2Proof.Machine.execFPopc p d a s
  | .pub imm => Sys2Proof.Machine.execPub imm s
  | .endpub => Sys2Proof.Machine.execEndpub s
  | .subscribe a => Sys2Proof.Machine.execSubscribe a s
  | .join k => Sys2Proof.Machine.execJoin k s
  | .rdv k => Sys2Proof.Machine.execRdv k s
  | .chSync => Sys2Proof.Machine.execChSync s
  | .sqkill p a => Sys2Proof.Machine.execSqkill p a s
  | .leave g k imm => Sys2Proof.Machine.execLeave g k imm s
  | .portcfg p a => Sys2Proof.Machine.execPortcfg p a s
  | .send p a b => Sys2Proof.Machine.execSend p a b s
  | .btag p d imm => Sys2Proof.Machine.execBtag p d imm s
  | .mxCtx p x => Sys2Proof.Machine.execMxCtx p x s
  | .mxLdb p y k => Sys2Proof.Machine.execMxLdb p y k s
  | .mxSetb p q k => Sys2Proof.Machine.execMxSetb p q k s
  | .mxMma p x y q w => Sys2Proof.Machine.execMxMma p x y q w s
  | .mxZero p w => Sys2Proof.Machine.execMxZero p w s
  | .mxDrain p x y w => Sys2Proof.Machine.execMxDrain p x y w s
  | .mxDrainRaw p x y w => Sys2Proof.Machine.execMxDrainRaw p x y w s
  | .hresv p x l => Sys2Proof.Machine.execHresv p x l s
  | .rowout p x y => Sys2Proof.Machine.execRowout p x y s
  | .mxBatch p x l => Sys2Proof.Machine.execMxBatch p x l s
  | .mxWait p x => Sys2Proof.Machine.execMxWait p x s
  | .mxCnt p x l g => Sys2Proof.Machine.execMxCnt p x l g s
  | .barCfg p a k => Sys2Proof.Machine.execBarCfg p a k s
  | .barArrive p k => Sys2Proof.Machine.execBarArrive p k s
  | .barWait p k => Sys2Proof.Machine.execBarWait p k s
  | .barSync p k => Sys2Proof.Machine.execBarSync p k s
  | .ticket p x y l => Sys2Proof.Machine.execTicket p x y l s
  | .ticketBc p x y l => Sys2Proof.Machine.execTicketBc p x y l s
  | .fenceS p a => Sys2Proof.Machine.execFenceS p a s
  | .go p a => Sys2Proof.Machine.execGo p a s
  | .launch p d a => Sys2Proof.Machine.execLaunch p d a s
  | .idemBegin p a => Sys2Proof.Machine.execIdemBegin p a s
  | .idemEnd p => Sys2Proof.Machine.execIdemEnd p s
  | .xfer p x => Sys2Proof.Machine.execXfer p x s
  | .bqPop p x y l => Sys2Proof.Machine.execBqPop p x y l s
  | .rotation => Sys2Proof.Machine.execRotation s
  | .channelInstructionDue m => Sys2Proof.Machine.execChannelInstructionDue m s
  | .resultWrite t id => Sys2Proof.Machine.execResultWrite t id s
  | .storeFault t => Sys2Proof.Machine.execStoreFault t s
  | .withdrawal id => Sys2Proof.Machine.execWithdrawal id s
  | .withdrawalArrival id => Sys2Proof.Machine.execWithdrawalArrival id s
  | .feTimeout id => Sys2Proof.Machine.execFeTimeout id s
  | .feTimeoutReport prio => Sys2Proof.Machine.execFeTimeoutReport prio s
  | .chTimeout t => Sys2Proof.Machine.execChTimeout t s
  | .barTimeout t => Sys2Proof.Machine.execBarTimeout t s
  | .conditionalRequestArrival id => Sys2Proof.Machine.execConditionalRequestArrival id s
  | .parkResend id => Sys2Proof.Machine.execParkResend id s
  | .plainAccessArrival id lane => Sys2Proof.Machine.execPlainAccessArrival id lane s
  | .atomicTakeGrant id => Sys2Proof.Machine.execAtomicTakeGrant id s
  | .atomicFillArrival id => Sys2Proof.Machine.execAtomicFillArrival id s
  | .reductionPerform id => Sys2Proof.Machine.execReductionPerform id s
  | .storeLeave t => Sys2Proof.Machine.execStoreLeave t s
  | .storeCheck t => Sys2Proof.Machine.execStoreCheck t s
  | .tlbMiss unit => Sys2Proof.Machine.execTlbMiss unit s
  | .copyWord core id => Sys2Proof.Machine.execCopyWord core id s
  | .mboxReserve t => Sys2Proof.Machine.execMboxReserve t s
  | .mboxDelivery core => Sys2Proof.Machine.execMboxDelivery core s
  | .portWordAccept t => Sys2Proof.Machine.execPortWordAccept t s
  | .pubAccept t => Sys2Proof.Machine.execPubAccept t s
  | .rdvComplete t => Sys2Proof.Machine.execRdvComplete t s
  | .chSyncComplete t => Sys2Proof.Machine.execChSyncComplete t s
  | .publicationEnd core => Sys2Proof.Machine.execPublicationEnd core s
  | .sqkillTargetHalt t => Sys2Proof.Machine.execSqkillTargetHalt t s
  | .arrayGrant cluster hold => Sys2Proof.Machine.execArrayGrant cluster hold s
  | .powerHold cluster => Sys2Proof.Machine.execPowerHold cluster s
  | .mxCtxApply core => Sys2Proof.Machine.execMxCtxApply core s
  | .mxZeroBegin core => Sys2Proof.Machine.execMxZeroBegin core s
  | .mxLdbLoad core => Sys2Proof.Machine.execMxLdbLoad core s
  | .mxSetbComplete cluster => Sys2Proof.Machine.execMxSetbComplete cluster s
  | .mxMmaComplete cluster => Sys2Proof.Machine.execMxMmaComplete cluster s
  | .mxCntWrite core => Sys2Proof.Machine.execMxCntWrite core s
  | .drainRowEnter core => Sys2Proof.Machine.execDrainRowEnter core s
  | .drainDispatch core => Sys2Proof.Machine.execDrainDispatch core s
  | .drainDoneFill core => Sys2Proof.Machine.execDrainDoneFill core s
  | .drainFail core => Sys2Proof.Machine.execDrainFail core s
  | .barCfgArrival id => Sys2Proof.Machine.execBarCfgArrival id s
  | .barrierArrival id => Sys2Proof.Machine.execBarrierArrival id s
  | .pennantRecordWrite cluster unit => Sys2Proof.Machine.execPennantRecordWrite cluster unit s
  | .post ctx size a => Sys2Proof.Machine.execPost ctx size a s
  | .launchAccept => Sys2Proof.Machine.execLaunchAccept s
  | .bandPlace => Sys2Proof.Machine.execBandPlace s
  | .bandStart b => Sys2Proof.Machine.execBandStart b s
  | .preempt => Sys2Proof.Machine.execPreempt s
  | .bandSave b => Sys2Proof.Machine.execBandSave b s
  | .bandResume b => Sys2Proof.Machine.execBandResume b s
  | .bandEnd b => Sys2Proof.Machine.execBandEnd b s
  | .launchEnd l => Sys2Proof.Machine.execLaunchEnd l s
  | .migrationDeparture t => Sys2Proof.Machine.execMigrationDeparture t s
  | .migrationArrival id => Sys2Proof.Machine.execMigrationArrival id s
  | .migrationInstall core => Sys2Proof.Machine.execMigrationInstall core s
  | .overflowRefill die => Sys2Proof.Machine.execOverflowRefill die s
  | .portCfgWrite t v => Sys2Proof.Machine.execPortCfgWrite t v s
  | .rngWrite t v => Sys2Proof.Machine.execRngWrite t v s
  | .mboxBaseWrite core => Sys2Proof.Machine.execMboxBaseWrite core s
  | .mboxHeadWrite core v => Sys2Proof.Machine.execMboxHeadWrite core v s
  | .ctxActivate => Sys2Proof.Machine.execCtxActivate s
  | .ctxDeactivate => Sys2Proof.Machine.execCtxDeactivate s
  | .ctlEvpendClear t v => Sys2Proof.Machine.execCtlEvpendClear t v s
  | .ctlTimerWrite t v => Sys2Proof.Machine.execCtlTimerWrite t v s
  | .timer t => Sys2Proof.Machine.execTimer t s
  | .pwrFstepWrite => Sys2Proof.Machine.execPwrFstepWrite s
  | .errCountRead t uncorr d => Sys2Proof.Machine.execErrCountRead t uncorr d s
  | .keyGenerate => Sys2Proof.Machine.execKeyGenerate s
  | .keyErase => Sys2Proof.Machine.execKeyErase s
  | .powerCheck watts temp => Sys2Proof.Machine.execPowerCheck watts temp s
  | .currentTrip => Sys2Proof.Machine.execCurrentTrip s
  | .thermalTrip => Sys2Proof.Machine.execThermalTrip s
  | .coldReset => Sys2Proof.Machine.execColdReset s
  | .packageReset => Sys2Proof.Machine.execPackageReset s
  | .dieReset die => Sys2Proof.Machine.execDieReset die s
  | .bootStage images trained tested => Sys2Proof.Machine.execBootStage images trained tested s
  | .dieFence die => Sys2Proof.Machine.execDieFence die s
  | .scrub => Sys2Proof.Machine.execScrub s
  | .profilerSum die => Sys2Proof.Machine.execProfilerSum die s
  | .debugChallenge => Sys2Proof.Machine.execDebugChallenge s
  | .debugSignature sig => Sys2Proof.Machine.execDebugSignature sig s
  | .debugStop t => Sys2Proof.Machine.execDebugStop t s
  | .debugImageAccess t off wr => Sys2Proof.Machine.execDebugImageAccess t off wr s
  | .debugResume t => Sys2Proof.Machine.execDebugResume t s
  | .breakpointSet ctx idx pc => Sys2Proof.Machine.execBreakpointSet ctx idx pc s
  | .doorbell => Sys2Proof.Machine.execDoorbell s
  | .hdmPlainWrite port o data => Sys2Proof.Machine.execHdmPlainWrite port o data s
  | .hdmFillWrite port o data => Sys2Proof.Machine.execHdmFillWrite port o data s
  | .hdmEmptyWrite port o data => Sys2Proof.Machine.execHdmEmptyWrite port o data s
  | .hdmRead port o size => Sys2Proof.Machine.execHdmRead port o size s
  | .bar2Access port o size wr => Sys2Proof.Machine.execBar2Access port o size wr s
  | .linkInit port peer => Sys2Proof.Machine.execLinkInit port peer s
  | .flitReceive port flit => Sys2Proof.Machine.execFlitReceive port flit s
  | .nak port ack => Sys2Proof.Machine.execNak port ack s
  | .linkFail port => Sys2Proof.Machine.execLinkFail port s
  | .fabLoad tx => Sys2Proof.Machine.execFabLoad tx s
  | .fabStore tx => Sys2Proof.Machine.execFabStore tx s
  | .fabLdW tx => Sys2Proof.Machine.execFabLdW tx s
  | .fabLdT tx => Sys2Proof.Machine.execFabLdT tx s
  | .fabStF tx => Sys2Proof.Machine.execFabStF tx s
  | .fabStS tx => Sys2Proof.Machine.execFabStS tx s
  | .fabFeClr tx => Sys2Proof.Machine.execFabFeClr tx s
  | .fabFeProbe tx => Sys2Proof.Machine.execFabFeProbe tx s
  | .fabAmo tx => Sys2Proof.Machine.execFabAmo tx s
  | .fabRed tx => Sys2Proof.Machine.execFabRed tx s
  | .fabWithdraw tx => Sys2Proof.Machine.execFabWithdraw tx s
  | .fabReply tx => Sys2Proof.Machine.execFabReply tx s
  | .fabTmo id => Sys2Proof.Machine.execFabTmo id s
  | .xferWrite tx => Sys2Proof.Machine.execXferWrite tx s
  | .xferRead tx => Sys2Proof.Machine.execXferRead tx s
  | .xferReadData tx => Sys2Proof.Machine.execXferReadData tx s
  | .xferComplete id => Sys2Proof.Machine.execXferComplete id s
  | .xferFail id => Sys2Proof.Machine.execXferFail id s
  | .mastheadPost ctx => Sys2Proof.Machine.execMastheadPost ctx s
  | .gangPost ctx => Sys2Proof.Machine.execGangPost ctx s
  | .prepare tx => Sys2Proof.Machine.execPrepare tx s
  | .acknowledge tx => Sys2Proof.Machine.execAcknowledge tx s
  | .gangTimeout gang => Sys2Proof.Machine.execGangTimeout gang s
  | .commit tx => Sys2Proof.Machine.execCommit tx s
  | .abort tx => Sys2Proof.Machine.execAbort tx s
  | .query tx => Sys2Proof.Machine.execQuery tx s
  | .gangQueryTimer idx => Sys2Proof.Machine.execGangQueryTimer idx s
  | .decision tx => Sys2Proof.Machine.execDecision tx s
  | .retire tx => Sys2Proof.Machine.execRetire tx s
  | .instructionFetch t => Sys2Proof.Machine.execInstructionFetch t s
  | .hostWriteAck id => Sys2Proof.Machine.execHostWriteAck id s
  | .xferElement id => Sys2Proof.Machine.execXferElement id s
  | .decisionRepeat gang member => Sys2Proof.Machine.execDecisionRepeat gang member s

end Sys2Proof.Machine
end

