-- ==== Sys2Proof/Machine/Inputs.lean ====
section
/-! DEFINITION. What comes from outside the instruction table: errors, dropped translations, the host's control window (R323),
MSI-X (R328), what firmware sets of the aperture (R322, R326), the overflow ring (R292) and the ports (R357), PC samples (R345),
and measurement (R341). -/

namespace Sys2Proof.Machine

/-! ## The control window (R323) -/

/-- BOOTSTAT (R356). -/
def State.bootStat (s : State) : Word := ofN (s.bootStage + (if s.bootStage = 15 then s.bootFail * 2 ^ 8 else 0))

/-- Word i of the first 4 KiB: identification, BOOTSTAT at 0x100, and copies of cap.* from 0x200 on. DESIGN CHOICE: log 43. -/
def State.identWord (s : State) (i : Nat) : Word :=
  if i < 32 then Config.identification i
  else if i = 32 then s.bootStat
  else if 64 ≤ i ∧ i < 74 then
    [8, 32, 12, 196608, 256, ofN capFarAll, ofN (capFar 0), ofN (capFar 1), ofN (capFar 2), ofN (capFar 3)].getD (i - 64) 0
  else 0

/-- Word i of the administrator fault log: the youngest 16,384 entries, 8 words each. DESIGN CHOICE: log 43. -/
def State.logWord (s : State) (i : Nat) : Word :=
  (((s.adminLog.drop (s.adminLog.length - 16384))[i / 8]?).getD []).getD (i % 8) 0

/-- A byte of the control window (R323): the debug window, whose layout the manual does not give, reads as a free value, and an
offset that holds nothing as zero. -/
def State.barByte (s : State) (o : Nat) : Byte :=
  let of (w : Word) : Byte := BitVec.ofNat 8 (w.toNat / 256 ^ (o % 8))
  if o < 0x1000 then of (s.identWord (o / 8))
  else if o < 0x2000 then Memory.read s.mailbox (o - 0x1000)
  else if 0x100000 ≤ o ∧ o < 0x200000 then of (s.logWord ((o - 0x100000) / 8))
  else if 0x1000000 ≤ o ∧ o < 0x1040000 ∧ o % 64 / 8 = 1 then of (lookupD s.postStat ((o - 0x1000000) / 64) 0)
  else if 0x2000000 ≤ o ∧ o < 0x3000000 then Config.randomByte (s.fresh + o)
  else 0

/-- Bytes put into the firmware mailbox. -/
def State.putMailbox (s : State) (off : Nat) (data : List Byte) : State :=
  { s with mailbox := data.zipIdx.foldl (fun m p => if off + p.2 < 4096 then Memory.write m (off + p.2) p.1 else m) s.mailbox }

/-! ## Frames of a port in Ethernet mode (R357) -/

/-- A frame's header. -/
def EthFrame.header (e : EthFrame) : List Byte :=
  (leBytes 6 e.dst.toNat).reverse ++ (leBytes 6 e.src.toNat).reverse
    ++ (match e.vlan with | some v => [0x81, 0x00] ++ (leBytes 2 v.toNat).reverse | none => [])
    ++ (leBytes 2 e.etherType.toNat).reverse

/-- The frame that carries some flits. -/
def EthFrame.wrap (e : EthFrame) (flits : List (List Byte)) : List Byte :=
  let b := e.header ++ flits.flatten
  b ++ Config.frameCheck b

/-- What a port has given to its PHY, oldest first: flits, or, in Ethernet mode, frames of one flit each (DESIGN CHOICE, log
55). -/
def Link.wire (l : Link) : List (List Byte) := if l.ethernet then l.sent.map fun f => l.eth.wrap [f] else l.sent

/-- The flits of a frame a port takes: its check sequence and EtherType are right, and it holds 1 to 16 flits. -/
def EthFrame.flits? (e : EthFrame) (bs : List Byte) : Option (List (List Byte)) :=
  let body := bs.take (bs.length - 4)
  let tagged := (body.drop 12).take 2 == [0x81, 0x00]
  let h := if tagged then 18 else 14
  let p := body.drop h
  if bs.drop (bs.length - 4) = Config.frameCheck body ∧ (body.take h).drop (h - 2) = (leBytes 2 e.etherType.toNat).reverse
      ∧ p.length % 64 = 0 ∧ 64 ≤ p.length ∧ p.length ≤ 1024 then
    some ((List.range (p.length / 64)).map fun i => (p.drop (64 * i)).take 64)
  else none

/-- A flit taken from a frame. -/
def State.takeFlit (s : State) (port : Nat) (f : List Byte) : State :=
  match execFlitReceive port f s with
  | .next t => t
  | _ => s

/-! ## Attestation (R341) -/

/-- The report of a context for a requester's nonce (R341). -/
def State.reportOf (s : State) (c : Context) (nonce : List Byte) : List Byte :=
  let b := leBytes 8 (1 + 2 ^ 8 * b2n c.conf + 2 ^ 9 * b2n c.kdbg + 2 ^ 10 * b2n s.dbgUnlocked) ++ nonce ++ s.measurement
    ++ c.measurement ++ leBytes 8 c.num
  b ++ Config.deviceSignature b ++ List.replicate 14 0

/-! ## Inputs -/

/-- A thing of a list set or taken away. -/
def setIn (l : List Nat) (a : Nat) (b : Bool) : List Nat := if b then insertSet l a else l.erase a

/-- What comes from outside happens. -/
def State.takeInput (s : State) : Outside → State
  | .softError key => { s with eccSoft := insertSet s.eccSoft (wordKey key) }
  | .hardError key => { s with eccBad := insertSet s.eccBad (wordKey key) }
  | .cacheError key =>
    if tierOf key = 0 then { s with eccBad := insertSet s.eccBad (wordKey key), eccCache := insertSet s.eccCache (wordKey key) } else s
  | .badWord t i => s.modThread t fun th =>
    { th with subBuf := th.subBuf.zipIdx.map fun p => if p.2 = i then { p.1 with bad := true } else p.1 }
  | .dropEntry unit i => s.modUnit unit fun u => { u with tlb := u.tlb.eraseIdx i }
  | .dropMicro core i => s.modCore core fun c => { c with utlb := c.utlb.eraseIdx i }
  | .barRead off n => { s with hostRead := (List.range n).map fun i => s.barByte (off + i), fresh := s.fresh + 2 ^ 26 }
  | .mailboxWrite off data =>
    let s1 := s.putMailbox off data
    if off < 0x1000 ∧ 0xFF8 < off + data.length ∧ s.powered then s1.postCore chiefCore 5 else s1
  | .mailboxReply off data => (s.putMailbox off data).raiseMsix 1
  | .apertureSize n => if n ≤ 64 * 2 ^ 30 then { s with apertureSize := n } else s
  | .apertureMap frame target => { s with aperture := match target with | some f => insertKey s.aperture frame f | none => eraseKey s.aperture frame }
  | .msixMap event port vector =>
    let rest := s.msixMap.filter fun m => !(m.1 == event && m.2.1 == port)
    { s with msixMap := match vector with | some v => if v < 64 then rest ++ [(event, port, v)] else s.msixMap | none => rest }
  | .ring die base n =>
    if die < 24 ∧ (s.die die).ring.isEmpty then s.modDie die fun d => { d with ringBase := base, ringN := n, ringNext := 0 } else s
  | .ringPage die page mapped => s.modDie die fun d => { d with ringPages := setIn d.ringPages page mapped }
  | .pcSample t period => match s.thread? t with
    | some th => s.traceEvent 1 th.ctx t.core t.slot th.ipc period
    | none => s
  | .linkMode port ethernet eth =>
    if port < 32 ∧ !(s.link port).up then s.modLink port fun l => { l with ethernet := ethernet, eth := eth } else s
  | .fabricId id => { s with fabricId := id }
  | .frame port bytes => if (s.link port).ethernet then
      (((s.link port).eth.flits? bytes).getD []).foldl (fun a f => a.takeFlit port f) s
    else s
  | .textPlaced ctx text => s.modContext ctx fun c => { c with measurement := Config.shake256 (c.measurement ++ Config.shake256 text) }
  | .attest ctx nonce => match s.context? ctx with
    | some c => if nonce.length = 64 then { s with report := s.reportOf c nonce } else s
    | none => s

end Sys2Proof.Machine
end

