-- ==== Sys2Proof/Machine/Schedule.lean ====
section
/-! DEFINITION. What moves next (DESIGN CHOICE, log 1): one slot's cycle, and the order the machine follows when no activity is
listed. -/

namespace Sys2Proof.Machine

/-- An outcome of the machine. -/
abbrev Out3 := Host.Outcome State Fault Refusal

/-- The cycle of a slot (R155): its thread issues its next instruction, or what stands in its place (R206, R343, R39). -/
noncomputable def State.issueStep (s : State) (t : ThreadRef) : Out3 :=
  match s.fetchFor t with
  | .idle => .next s
  | .trap => .next (s.settle t)
  | .spoiled => .next (s.spoilt t)
  | .storeFault => .next (s.faultStore t)
  | .breakpoint => .next (s.stopThread t)
  | .missing a => .next (s.await t (.fetch a))
  | .word w =>
    match decode w with
    | none => .next (s.illegal t w)
    | some i => exec i { s with cur := t, ir := w }

/-- The rows of the table that are no instruction words: an instruction is executed only by the thread that issues
it. -/
def isEvent (i : Instr) : Bool := (encode i).isNone

/-- One listed activity: a slot's cycle comes in its turn (R155). -/
noncomputable def State.act (s : State) (a : Activity) : Out3 :=
  match a with
  | .issue t => if s.inTurn t then (s.turnTo t).issueStep t else .next s
  | .event i => if isEvent i then exec i s else .next s
  | .outside x => .next (s.takeInput x)

/-! ## The order when nothing is listed -/

/-- The events a request may bring. A withdrawal's confirmation is looked for from the rotation after the one in which the
withdrawal leaves (R198, R387). DEDUCED: log 64. -/
noncomputable def Flight.events (beat : Nat) (f : Flight) : List Instr :=
  let i := f.id
  [.plainAccessArrival i 0, .conditionalRequestArrival i, .reductionPerform i, .atomicTakeGrant i, .atomicFillArrival i,
   .withdrawal i, .withdrawalArrival i, .parkResend i] ++
    (if f.orphan || decide (f.issuedAt + f.budget.toNat + 1 < beat) then [.feTimeout i] else [])

/-- The events a thread may bring. -/
noncomputable def threadEvents (p : ThreadRef × Thread) : List Instr :=
  let t := p.1
  p.2.outs.map (fun o => .resultWrite t o.id) ++
    [.channelInstructionDue t, .instructionFetch t, .storeLeave t, .storeCheck t, .chTimeout t, .barTimeout t,
     .mboxReserve t, .portWordAccept t, .pubAccept t, .rdvComplete t, .chSyncComplete t, .sqkillTargetHalt t,
     .migrationDeparture t]

/-- The events of a core. -/
noncomputable def coreEvents (p : Nat × Core) : List Instr :=
  let n := p.1
  p.2.copies.map (fun c => .copyWord n c.id) ++ p.2.left.map (fun l => .portWordAccept ⟨n, l.1⟩) ++ (List.range 8).map (fun i => .timer ⟨n, i⟩) ++
    [.mboxDelivery n, .mboxBaseWrite n, .publicationEnd n, .mxCtxApply n, .mxZeroBegin n, .mxLdbLoad n, .mxCntWrite n,
     .drainRowEnter n, .drainDispatch n, .drainDoneFill n, .drainFail n, .migrationInstall n]

/-- The events of a cluster. -/
noncomputable def clusterEvents (n : Nat) : List Instr :=
  [.mxSetbComplete n, .mxMmaComplete n, .powerHold n, .arrayGrant n 0] ++ (List.range 16).map fun u => .pennantRecordWrite n u

/-- The event that a transaction received whole brings, by its operation (R361). -/
noncomputable def txEvents (tx : FabTx) : List Instr :=
  match tx.op.toNat with
  | 1 => [.fabLoad tx] | 2 => [.fabStore tx] | 3 => [.fabLdW tx] | 4 => [.fabLdT tx] | 5 => [.fabStF tx] | 6 => [.fabStS tx]
  | 7 => [.fabFeClr tx] | 8 => [.fabFeProbe tx] | 9 => [.fabAmo tx] | 10 => [.fabRed tx] | 11 => [.fabWithdraw tx]
  | 16 => [.fabReply tx] | 20 => [.xferWrite tx] | 21 => [.xferRead tx] | 22 => [.xferReadData tx]
  | 24 => [.prepare tx] | 25 => [.acknowledge tx] | 26 => [.commit tx] | 27 => [.abort tx] | 28 => [.query tx]
  | 29 => [.decision tx] | 30 => [.retire tx]
  | _ => []

/-- The events of a link. -/
noncomputable def linkEvents (p : Nat × Link) : List Instr :=
  .linkFail p.1 :: (match p.2.head? with | some tx => txEvents tx | none => [])

/-- The events of the package and its fabric. -/
noncomputable def packageEvents (s : State) : List Instr :=
  s.links.flatMap linkEvents ++
  s.barMsgs.flatMap (fun m => [.barCfgArrival m.id, .barrierArrival m.id]) ++
    s.packets.map (fun p => .migrationArrival p.id) ++
    s.dies.map (fun p => .overflowRefill p.1) ++
    s.xlat.map (fun p => .tlbMiss p.1) ++
    s.hostWrites.map (fun p => .hostWriteAck p.1) ++
    s.xfers.flatMap (fun x => [.xferElement x.id, .xferFail x.id, .xferComplete x.id]) ++
    s.fabReqs.map (fun r => .fabTmo r.id) ++
    s.feReports.map (fun p => .feTimeoutReport p) ++
    s.contexts.flatMap (fun c => [.mastheadPost c.num, .gangPost c.num]) ++
    s.bands.flatMap (fun b => [.bandStart b.ref, .bandSave b.ref, .bandEnd b.ref]) ++
    s.launches.map (fun l => .launchEnd ⟨l.ctx, l.num⟩) ++
    s.gangs.flatMap (fun g => .gangTimeout g.num :: (List.range g.members.length).map fun m => .decisionRepeat g.num m) ++
    (List.range s.prepared.length).map (fun i => .gangQueryTimer i) ++
    [.ctxActivate, .ctxDeactivate, .keyGenerate, .keyErase, .pwrFstepWrite, .launchAccept] ++
    s.bands.map (fun b => .bandResume b.ref) ++ [.bandPlace, .preempt]

/-- Every event the machine itself may bring, in the order in which it looks for one that does something. -/
noncomputable def State.internal (s : State) : List Instr :=
  s.flights.flatMap (Flight.events s.beat) ++ s.allThreads.flatMap threadEvents ++ s.cores.flatMap coreEvents ++
    s.clusters.flatMap (fun p => clusterEvents p.1) ++ packageEvents s

/-- The first event of a list that changes the state, carried out. -/
noncomputable def State.firstEffect (s : State) : List Instr → Option State
  | [] => none
  | i :: r =>
    match exec i s with
    | .next s' => if s' = s then s.firstEffect r else some s'
    | _ => s.firstEffect r

/-- The slots in the order of their cycles: slot 0 of every core, then slot 1, and so on (R155). -/
def State.cycleOrder (s : State) : List ThreadRef :=
  (List.range 8).flatMap fun i => s.cores.map fun p => ⟨p.1, i⟩

/-- The slot whose cycle is next. -/
def State.nextSlot? (s : State) : Option ThreadRef := s.cycleOrder.find? fun t => !s.passed t

/-- With no activity listed: an event that does something, else the next slot's cycle, else the end of the rotation. -/
noncomputable def State.selfStep (s : State) : Out3 :=
  match s.firstEffect s.internal with
  | some s' => .next s'
  | none =>
    match s.nextSlot? with
    | some t => (s.turnTo t).issueStep t
    | none => exec .rotation s

end Sys2Proof.Machine
end

