-- ==== Sys2Proof/Machine/Step.lean ====
section
/-! DEFINITION. One step of the machine, and the placing of an instruction where the next step fetches it. -/

namespace Sys2Proof.Machine

/-- One step: the first activity of the agenda, or, with none listed, what the machine does by itself (DESIGN CHOICE, log 1). -/
noncomputable def step (s : State) : Host.Outcome State Fault Refusal :=
  match s.agenda with
  | a :: rest => { s with agenda := rest }.act a
  | [] => s.selfStep

/-- The thread that holds a placed instruction: a run-mode thread at the start of its scratchpad, with nothing
outstanding, that issues at once. -/
def Thread.placed (th : Thread) (pc : Word) : Thread :=
  { th with
    pc := pc
    mode := .run
    sq := .fetching
    outs := []
    wait := none
    trapPend := none
    fetched := none
    busy := 0
    issued := false
    notBefore := 0
    killAt := none
    halted := false
    stopped := false }

/-- s with the instruction w stored at the start of core 0's scratchpad and in the instruction cache, a thread of slot 0
about to issue it, and that issue the next activity: this stands for the launch that loads a program (DESIGN CHOICE, log 4). -/
def State.withFetchWord (s : State) (_nbits w : Nat) : State :=
  let pc := 0xFFFFFFFFFFFC0000#64
  let t : ThreadRef := ⟨0, 0⟩
  let th := ((s.thread? t).getD Thread.blank).placed pc
  let s1 := (s.writeMem (scratchKey 0 0) 4 w).setThread t th
  let s2 := s1.modCore 0 fun c => { c with icache := (th.ctx, pc, BitVec.ofNat 32 w) :: c.icache }
  { s2 with agenda := .issue t :: s2.agenda, cycle := 0, turned := [] }

end Sys2Proof.Machine
end

