-- ==== Sys2Proof/Safety.lean ====
section
/-! DEFINITION. The words claims are stated in: a safe run, the conditions under which an instruction executes (R39), and
the shapes of what an instruction does and leaves alone. -/

namespace Sys2Proof

open Machine

/-- An outcome of the machine. -/
abbrev Outcome := Host.Outcome State Fault Refusal

/-- The invariant of the state that every step keeps: memory in canonical form. -/
def Inv (s : State) : Prop := Memory.wf s.mem = true

/-! ## When an instruction executes -/

/-- The thread th of the slot whose cycle it is executes its next instruction, of encoding m and predicate p: it is live,
no window is overdue (R23), the checks ILL, PRIV and LA_HAZARD pass in that order (R39, R67, R68, R22, R375), the predicate holds (R16), a fifth result is not asked for (R23), and a port it uses is ready
(R64). -/
structure Ready (m : Meta) (p : Pred) (s : State) (th : Thread) : Prop where
  here : s.thread? s.cur = some th
  live : th.live = true
  inTime : th.expired = false
  onCore : m.notMast = true → roleOf s.cur.core ≠ .masthead
  inTrap : m.inTrap = true → th.mode = .trap
  control : m.priv = true → th.privileged = true
  trapMode : m.trapOnly = true → th.mode = .trap
  clear : th.hazard m = none
  pred : m.masked = true ∨ predHolds p th = true
  room : m.window = true → th.outstanding < 4
  inbound : 30 ∈ m.rd → m.noPort = false → th.inEn = true → ∃ w r, th.inq = w :: r ∧ w.avail ≤ s.beat
  outbound : 31 ∈ m.wr → th.outEn = true → th.outq.length + th.bound31 < 8

/-! ## What it does -/

/-- A thread without the words a publisher has sent it. -/
def Machine.Thread.deaf (th : Thread) : Thread := { th with subBuf := [] }

/-- A core without its threads and the words its channel sent last. -/
def Machine.Core.still (c : Core) : Core :=
  { c with slots := Core.blank.slots, pub := c.pub.map fun b => { b with recent := [] } }

/-- A slot without its thread. -/
def Machine.Slot.bare (sl : Slot) : Slot := { sl with thread := none }

/-- A band without the note of its effects outside its regions. -/
def Machine.Band.still (b : Band) : Band := { b with out := false }

/-- Everything but the thread of the present slot is as it was, but that a published word (R160, R162) may have reached
the members of its channel, and a word pushed to a port may have set band.OUT (R308): memory, every other register of every
core, and every other part of the package. -/
structure Elsewhere (s t : State) : Prop where
  rest : t = { s with cores := t.cores, bands := t.bands }
  bands : t.bands.map Band.still = s.bands.map Band.still
  core : ∀ n, (t.core n).still = (s.core n).still
  slot : ∀ r, (t.slot r).bare = (s.slot r).bare
  thread : ∀ r, r ≠ s.cur → (t.thread? r).map Thread.deaf = (s.thread? r).map Thread.deaf

/-- The queues of the core's engines, requests and memory are as they were. -/
def MemoryKept (s t : State) : Prop := t.mem = s.mem ∧ t.feFlips = s.feFlips ∧ t.flights = s.flights

/-- No other thread is changed, but for words published to it. -/
def OthersGoOn (s t : State) : Prop := ∀ q, q ≠ s.cur → (t.thread? q).map Thread.deaf = (s.thread? q).map Thread.deaf

/-- What stands before the effect of an instruction of encoding m and predicate p, in this order (R39): a window whose
instructions have all issued or whose result has faulted (R23, R25), a core or a mode that does not have the instruction
(ILL), a mode that may not run it (PRIV), a register of an open window (LA_HAZARD, R22); then a predicate that fails, with
which the instruction issues and has no effect (R16), but that a member leaves its squad at HALT and GO (R124, R164); and
the waits for a fifth result (R23), for an inbound word and for room in the outbound queue (R64). -/
def Gated (i : Instr) (m : Meta) (p : Pred) : Prop :=
  ∀ s th, s.thread? s.cur = some th → th.live = true →
    let absent : Prop := m.notMast = true ∧ roleOf s.cur.core = .masthead ∨ m.inTrap = true ∧ th.mode ≠ .trap
    let barred : Prop := m.priv = true ∧ th.privileged = false ∨ m.trapOnly = true ∧ th.mode ≠ .trap
    let traps (c : Cause) (info : Word) : Prop := exec i s = .next (s.raise s.cur c 0 info th.ipc)
    let waits (k : WaitKind) : Prop := exec i s = .next (s.await s.cur k)
    (th.expired = true → waits .result) ∧
    (th.expired = false → absent → traps .ill (ofN s.ir.toNat)) ∧
    (th.expired = false → ¬absent → barred → traps .priv (ofN s.ir.toNat)) ∧
    (th.expired = false → ¬absent → ¬barred →
      (∀ o, th.hazard m = some o → traps .laHazard (ofN (o.reg + 32 * o.cls.code))) ∧
      (th.hazard m = none → m.masked = false → predHolds p th = false →
        ∃ t z, exec i s = .next t ∧ t.thread? s.cur = some z ∧ MemoryKept s t ∧ OthersGoOn s t ∧ z.pc = nextPc th.ipc ∧ z.s = th.s ∧
          z.v = th.v ∧ z.f = th.f ∧ z.inq = th.inq ∧ z.outq = th.outq ∧ z.outs = tickOuts th.outs ∧ z.wait = none ∧
          z.sq = if m.leaveOff = true ∧ th.member = true then .fetching else th.sq) ∧
      (th.hazard m = none → m.masked = true ∨ predHolds p th = true →
        let room : Prop := m.window = true → th.outstanding < 4
        let word : Prop := 30 ∈ m.rd → m.noPort = false → th.inEn = true → ∃ w r, th.inq = w :: r ∧ w.avail ≤ s.beat
        (¬room → waits .result) ∧ (room → ¬word → waits .port) ∧
        (room → word → 31 ∈ m.wr → th.outEn = true → 8 ≤ th.outq.length + th.bound31 → waits .port)))

/-- An instruction whose whole effect, once it executes, is on its own thread, which it changes by f and which goes on at next: f and next
see the thread as the instruction begins, with its lookahead windows one instruction on (R21); pre is what else it asks
for. Of its band it changes OUT alone, and that when it pushes a port word in a region (R308). -/
def LocalTo (i : Instr) (m : Meta) (p : Pred) (pre : State → Thread → Prop) (f : State → Thread → Thread)
    (next : Thread → Word) : Prop :=
  Gated i m p ∧ ∀ s th, Ready m p s th → pre s (th.begin_ m.occ) →
    ∃ t, exec i s = .next t ∧ Elsewhere s t ∧ t.bands = (if th.pushes m then (s.effectOut th).bands else s.bands) ∧
      t.thread? s.cur = some { (f s (th.begin_ m.occ)).pop m th with pc := next (th.begin_ m.occ) }

/-- One that goes on at the next instruction. -/
def Local (i : Instr) (m : Meta) (p : Pred) (f : State → Thread → Thread) : Prop :=
  LocalTo i m p (fun _ _ => True) f fun th => nextPc th.pc

/-- One that writes s(d) := f of its thread, reading the registers rd and taking occ rotations (R103). -/
def Writes (i : Instr) (p : Pred) (d : Reg) (rd : List Nat) (occ : Nat) (f : Thread → Word) : Prop :=
  Local i { Meta.scalar rd [d.toNat] with occ := occ } p fun s th => th.writeS d.toNat (f th) s.beat

/-- s(D) := f(s(A), s(B)), for every predicate and all registers. -/
def Binary (c : Pred → Reg → Reg → Reg → Instr) (occ : Nat) (f : Word → Word → Word) : Prop :=
  ∀ p d a b, Writes (c p d a b) p d [a.toNat, b.toNat] occ fun th => f (th.readS a.toNat) (th.readS b.toNat)

/-- s(D) := f(s(A)). -/
def Unary (c : Pred → Reg → Reg → Instr) (f : Word → Word) : Prop :=
  ∀ p d a, Writes (c p d a) p d [a.toNat] 1 fun th => f (th.readS a.toNat)

/-- A compare of s(A) and s(B) into the flag D[3:0]: 32 equal bits, ANDed into the old value when D[4] = 1 (R20, R108). -/
def Compares (c : Pred → Reg → Reg → Reg → Instr) (f : Word → Word → Bool) : Prop :=
  ∀ p d a b, Local (c p d a b) (Meta.scalar [a.toNat, b.toNat] []) p fun _ th =>
    th.writeCmp d (f (th.readS a.toNat) (th.readS b.toNat))

/-- The same with the sign-extended immediate. -/
def ComparesImm (c : Pred → Reg → Reg → BitVec 7 → Instr) (f : Word → Word → Bool) : Prop :=
  ∀ p d a i, Local (c p d a i) (Meta.scalar [a.toNat] []) p fun _ th =>
    th.writeCmp d (f (th.readS a.toNat) (i.signExtend 64))

/-- A floating-point form in s(D): the value of f, its flags ORed into fp.flags (R110); f sees the dynamic rounding mode,
FTZ, and the operands' bits. -/
def FloatBinary (c : Pred → Reg → Reg → Reg → Instr) (fm : Fmt) (occ : Nat) (f : RMode → Bool → Nat → Nat → Nat × Nat) : Prop :=
  ∀ p d a b, Local (c p d a b) { Meta.scalar [a.toNat, b.toNat] [d.toNat] with occ := occ } p fun s th =>
    let r := f th.rm th.ftz (th.fpS fm a) (th.fpS fm b)
    (th.orFlags r.2).writeS d.toNat (ofN r.1) s.beat

/-- A form of one operand. -/
def FloatUnary (c : Pred → Reg → Reg → Instr) (fm : Fmt) (occ : Nat) (f : RMode → Bool → Nat → Nat × Nat) : Prop :=
  ∀ p d a, Local (c p d a) { Meta.scalar [a.toNat] [d.toNat] with occ := occ } p fun s th =>
    let r := f th.rm th.ftz (th.fpS fm a)
    (th.orFlags r.2).writeS d.toNat (ofN r.1) s.beat

/-- A fused form: s(D) is an operand too (R112). -/
def FloatFused (c : Pred → Reg → Reg → Reg → Instr) (fm : Fmt) (sub : Bool) : Prop :=
  ∀ p d a b, Local (c p d a b) (Meta.scalar [d.toNat, a.toNat, b.toNat] [d.toNat]) p fun s th =>
    let r := fpFma fm th.rm th.ftz sub (th.fpS fm d) (th.fpS fm a) (th.fpS fm b)
    (th.orFlags r.2).writeS d.toNat (ofN r.1) s.beat

/-- A floating compare into a flag (R113). -/
def FloatCompares (c : Pred → Reg → Reg → Reg → Instr) (fm : Fmt) (k : FCond) : Prop :=
  ∀ p d a b, Local (c p d a b) (Meta.scalar [a.toNat, b.toNat] []) p fun _ th =>
    let r := fpCmp fm th.ftz k (th.fpS fm a) (th.fpS fm b)
    (th.orFlags r.2).writeCmp d r.1

/-- A conversion with a rounding field (R30, R115): rng steps once when the field asks for stochastic rounding (R93). -/
def Converts (c : Pred → Reg → Reg → Reg → Instr) (f : RMode → Bool → Word → Nat × Nat) : Prop :=
  ∀ p d a r, Local (c p d a r) (Meta.scalar [a.toNat] [d.toNat]) p fun s th =>
    let v := f (th.modeOf r.toNat th.rng) th.ftz (th.readS a.toNat)
    ((th.stepRng r.toNat).orFlags v.2).writeS d.toNat (ofN v.1) s.beat

/-- An instruction of the vector unit on its own thread, under its lane mask (R17). -/
def Masked (i : Instr) (m : Meta) (p : Pred) (f : State → Thread → Lane → Thread) : Prop :=
  Local i m p fun s th => f s th (laneMask p th)

/-- D[i] := f(A[i], B[i]) in the lanes of the mask (R133). -/
def Lanewise (c : Pred → Reg → Reg → Reg → Instr) (f : Lane → Lane → Lane) : Prop :=
  ∀ p d a b, Masked (c p d a b) (.vec [d.toNat, a.toNat, b.toNat] [] [] 1) p fun _ th m =>
    th.setLanes d.toNat m fun i => f (th.readLane a.toNat i) (th.readLane b.toNat i)

/-- D[i] := f(A[i]) in the lanes of the mask. -/
def LanewiseUnary (c : Pred → Reg → Reg → Instr) (f : Lane → Lane) : Prop :=
  ∀ p d a, Masked (c p d a) (.vec [d.toNat, a.toNat] [] [] 1) p fun _ th m =>
    th.setLanes d.toNat m fun i => f (th.readLane a.toNat i)

/-- An FP32 form of lanes (R134): f sees mode, FTZ and the lanes of D, A and B; its flags are those of the lanes written. -/
def LanewiseFloat (c : Pred → Reg → Reg → Reg → Instr) (occ : Nat) (f : RMode → Bool → Nat → Nat → Nat → Nat × Nat) : Prop :=
  ∀ p d a b, Masked (c p d a b) (.vec [d.toNat, a.toNat, b.toNat] [] [] occ) p fun _ th m =>
    th.fpLanes d.toNat m fun i =>
      f th.rm th.ftz (th.readLane d.toNat i).toNat (th.readLane a.toNat i).toNat (th.readLane b.toNat i).toNat

/-- A packed 16-bit form (R135): the two halves of every lane. -/
def Packed (c : Pred → Reg → Reg → Reg → Instr) (f : RMode → Bool → Nat → Nat → Nat → Nat × Nat) : Prop :=
  LanewiseFloat c 1 fun rm z x y w =>
    let lo := f rm z (x % 2 ^ 16) (y % 2 ^ 16) (w % 2 ^ 16)
    let hi := f rm z (x / 2 ^ 16) (y / 2 ^ 16) (w / 2 ^ 16)
    (lo.1 + hi.1 * 2 ^ 16, lo.2 ||| hi.2)

/-- A form on FP64 elements (R136): element e where M[2e] = 1. -/
def Pairwise64 (c : Pred → Reg → Reg → Reg → Instr) (occ : Nat) (f : RMode → Bool → Nat → Nat → Nat → Nat × Nat) : Prop :=
  ∀ p d a b, Masked (c p d a b) (.vec [d.toNat, a.toNat, b.toNat] [] [] occ) p fun _ th m =>
    th.fpPairs d.toNat m fun e => f th.rm th.ftz (th.readD d.toNat e) (th.readD a.toNat e) (th.readD b.toNat e)

/-- A lane compare into the flag D under the mask (R137). -/
def LanewiseCompares (c : Pred → Reg → Reg → Reg → Instr) (f : Lane → Lane → Bool) : Prop :=
  ∀ p d a b, Masked (c p d a b) (.vec [a.toNat, b.toNat] [] [] 1) p fun _ th m =>
    th.writeCmpV d m (maskOf fun i => f (th.readLane a.toNat i) (th.readLane b.toNat i))

/-- A lane conversion (R138-R140): element i from f, k elements to a lane, in the lowest lanes. -/
def LanewiseConverts (i : Instr) (p : Pred) (d a : Reg) (field k lanes occ : Nat) (f : Thread → RMode → Nat → Nat × Nat) : Prop :=
  Masked i (.vec [d.toNat, a.toNat] [] [] occ) p fun _ th m0 =>
    let m := m0 &&& BitVec.ofNat 32 (2 ^ lanes - 1)
    let r := convertAll th field (f th) ((List.range (lanes * k)).filter fun i => m.getLsbD (i / k)) th.rng
    ({ th with rng := r.2.2 }.orFlags r.2.1).setLanes d.toNat m fun i =>
      BitVec.ofNat 32 ((List.range k).foldl (fun x j => x + lookupD r.1 (i * k + j) 0 * 2 ^ (32 / k * j)) 0)

/-- A lane reduction into s(D) by the tree of R102 (R143): masked lanes stand at the identity. -/
def Reduces (c : Pred → Reg → Reg → Instr) (ident : Nat) (sgn : Bool) (op : RMode → Bool → Nat → Nat → Nat × Nat) : Prop :=
  ∀ p d a, Masked (c p d a) (.vec [a.toNat] [] [d.toNat] 2) p fun s th m =>
    let r := treeReduce (op th.rm th.ftz) 5 ((List.range 32).map fun i => if m.getLsbD i then (th.readLane a.toNat i).toNat else ident)
    (th.orFlags r.2).writeS d.toNat (if sgn then sext 32 r.1 else ofN r.1) s.beat

/-- A flag form under the mask (R153). -/
def FlagBinary (c : Pred → Reg → Reg → Reg → Instr) (f : Lane → Lane → Lane) : Prop :=
  ∀ p d a b, Masked (c p d a b) (.vec [] [] [] 1) p fun _ th m => th.writeFlagM d.toNat m (f (th.readF a.toNat) (th.readF b.toNat))

/-- The state in which an instruction's effect happens: its thread begun, and its word published (R160). -/
def begun (m : Meta) (s : State) (th : Thread) : State := s.begin_ s.cur th m

/-- The thread retires: a word popped through s30 is gone (R64), and the next instruction follows. -/
def retired (m : Meta) (s : State) (th : Thread) (x : State) : State :=
  x.modThread s.cur fun y => { y.pop m th with pc := nextPc y.pc }

/-- An instruction that also changes other state: by eff, applied to the begun state and thread. -/
def Runs (i : Instr) (m : Meta) (p : Pred) (pre : State → Thread → Prop) (eff : State → Thread → State) : Prop :=
  Gated i m p ∧ ∀ s th, Ready m p s th → pre (begun m s th) (th.begin_ m.occ) →
    exec i s = .next (retired m s th (eff (begun m s th) (th.begin_ m.occ)))

/-- An instruction that issues and then waits at itself for what completes it (k), within a budget. -/
def Blocks (i : Instr) (m : Meta) (p : Pred) (pre : State → Thread → Prop) (k : State → Thread → WaitKind)
    (budget : Thread → Word) (eff : State → Thread → State) : Prop :=
  ∀ s th, Ready m p s th → pre (begun m s th) (th.begin_ m.occ) →
    exec i s = .next ((eff (begun m s th) (th.begin_ m.occ)).modThread s.cur fun y =>
      { y.pop m th with wait := some ⟨k (begun m s th) (th.begin_ m.occ), s.beat, budget (th.begin_ m.occ)⟩ })

/-- An instruction that takes a trap. -/
def Traps (i : Instr) (m : Meta) (p : Pred) (pre : State → Thread → Prop) (c : Cause) (addr info : Thread → Word) : Prop :=
  ∀ s th, Ready m p s th → pre (begun m s th) (th.begin_ m.occ) →
    exec i s = .next ((s.forgetFailures s.cur).raise s.cur c (addr (th.begin_ m.occ)) (info (th.begin_ m.occ)) th.ipc)

/-- An instruction that ends as its address does: with the trap, the miss or the wait r that reading or resolving it answers. -/
def Ends (i : Instr) (m : Meta) (p : Pred) (pre : State → Thread → Res → Prop) : Prop :=
  ∀ s th r, Ready m p s th → pre (begun m s th) (th.begin_ m.occ) r → exec i s = .next (finish m s s.cur th r)

/-- An instruction that does not issue yet: its thread waits before it for what k names. -/
def Waits (i : Instr) (m : Meta) (p : Pred) (pre : State → Thread → Prop) (k : WaitKind) : Prop :=
  ∀ s th, Ready m p s th → pre (begun m s th) (th.begin_ m.occ) → exec i s = .next (s.await s.cur k)

/-- An instruction that answers a next state of which post holds: it sees the begun state and thread, the next state, and
the thread there. -/
def Gives (i : Instr) (m : Meta) (p : Pred) (pre : State → Thread → Prop) (post : State → Thread → State → Thread → Prop) : Prop :=
  Gated i m p ∧ ∀ s th, Ready m p s th → pre (begun m s th) (th.begin_ m.occ) →
    ∃ t z, exec i s = .next t ∧ t.thread? s.cur = some z ∧ post (begun m s th) (th.begin_ m.occ) t z

/-- A control transfer (R117-R119): taken, it goes to its target, which is checked before anything is written; a
transfer not taken, and one that a member executes (R118), goes on at the next instruction. f is what it writes. -/
def Transfers (i : Instr) (m : Meta) (p : Pred) (taken : Thread → Bool) (aligned : Bool) (f : State → Thread → Thread)
    (target : Thread → Word) : Prop :=
  LocalTo i m p (fun _ th => th.member = false ∧ taken th = true ∧ canonical (target th) = true ∧
      (aligned = true → wbits (target th) 1 0 = 0)) f target ∧
  LocalTo i m p (fun _ th => th.member = true ∨ taken th = false) f (fun th => nextPc th.pc) ∧
  Traps i m p (fun _ th => th.member = false ∧ taken th = true ∧ canonical (target th) = false) .access target (fun _ => 0) ∧
  (aligned = true → Traps i m p (fun _ th => th.member = false ∧ canonical (target th) = true ∧ wbits (target th) 1 0 ≠ 0)
    .align target (fun _ => 0))

/-- The encoding of an MTS of register n from s(d) (R31, R68). -/
def mtsMeta (d : Reg) (n : BitVec 15) : Meta :=
  { Meta.scalar [d.toNat] [] with priv := decide (0x4000 ≤ n.toNat), trapOnly := decide (0x48 ≤ n.toNat) && decide (n.toNat ≤ 0x4B) }

/-- MTS of register n with a value changes its own thread by f (R120). -/
def Sets (n : BitVec 15) (pre : Thread → Word → Prop) (f : Thread → Word → Thread) : Prop :=
  ∀ p d, LocalTo (.mts p d n) (mtsMeta d n) p (fun _ th => pre th (th.readS d.toNat)) (fun _ th => f th (th.readS d.toNat))
    fun th => nextPc th.pc

/-- MTS of register n with a value changes the state by eff. -/
def SetsIn (n : BitVec 15) (pre : State → Word → Prop) (eff : State → Word → State) : Prop :=
  ∀ p d, Runs (.mts p d n) (mtsMeta d n) p (fun s th => pre s (th.readS d.toNat)) fun s th => eff s (th.readS d.toNat)

/-! ## Accesses (R192-R202) -/

/-- A scalar access as the manual describes its form: its kind and checks, its address and data as the thread has them, its
destination and LA, whether the held-take list is looked at (R200), and whether it may migrate (R291). -/
structure Access where
  kind : ReqKind
  acc : Acc
  addr : Thread → Word
  data : Thread → Word
  data2 : Thread → Word
  dest : Option (Nat × Nat)
  self : Bool
  home : Bool

/-- A form with a register destination and nothing written. -/
def Access.reads (kind : ReqKind) (acc : Acc) (addr : Thread → Word) (t l : Nat) (self home : Bool) : Access :=
  ⟨kind, acc, addr, fun _ => 0, fun _ => 0, some (t, l), self, home⟩

/-- The request of the access, on its way to the holder of the word, by a translation entry or without one. -/
def Access.sent (x : Access) (s : State) (y : Thread) (key : Nat) (e : Option TlbEntry) : Flight :=
  { id := s.serial, thread := s.cur, ctx := y.ctx, kind := x.kind, va := x.addr y, key := key, data := x.data y
    data2 := x.data2 y, issuedAt := s.beat, budget := y.feBudget, pc := y.pc, scope := y.scopeD, stage := .sent
    withdrawal := false, cipher := s.cipherFor y e, orphan := false, detached := none
    page := match e with | some e => pageBytes e.size | none => 65536 }

/-- ST.F and the atomics wait at themselves (R195, R201). -/
def Access.waits (x : Access) : Bool := match x.kind with | .stF | .amo _ => true | _ => false

/-- The thread once the access has left: its window is open (R21), a reduction is counted (R202), and the word of an ST.S is
no longer held, by whatever address (R200). -/
def Access.mark (x : Access) (s : State) (y : Thread) (key : Nat) : Thread :=
  { y with
    outs := y.outs ++ (match x.dest with | some (r, la) => [⟨s.serial, .s, r, la, 0, y.pc, s.beat + 2, .pending⟩] | none => [])
    pending := y.pending + b2n x.kind.isRed
    heldTakes := if x.kind = .stS then y.heldTakes.filter fun a => !s.sameWord s.cur y a (x.addr y) key else y.heldTakes }

/-- The thread after the instruction. -/
def Access.after (x : Access) (m : Meta) (s : State) (th : Thread) (key : Nat) : Thread :=
  let y := th.begin_ m.occ
  { (x.mark s y key).pop m th with
    pc := if x.waits then y.pc else nextPc y.pc
    wait := if x.waits then some ⟨.fill s.serial, s.beat, y.feBudget⟩ else none }

/-- The thread after an access to a record of another slot: its result is zero, and nothing else happens (R205). -/
def Access.zeroed (x : Access) (m : Meta) (s : State) (th : Thread) : Thread :=
  let y := th.begin_ m.occ
  let won : List Out := match x.dest with
    | some (r, la) => [⟨s.serial, .s, r, la, 0, y.pc, s.beat + 2, .word 0⟩]
    | none => []
  { ({ y with outs := y.outs ++ won } : Thread).pop m th with pc := nextPc y.pc }

/-- An access to n bytes meets them as they were written: not encrypted, or under the key they are encrypted under (R336). -/
def Clear (s : State) (c : Keying) (key n : Nat) : Prop := c = .plain ∨ ∃ k, c = .under k ∧ s.keyFits k key n = true

/-- No request waits in a queue of the word at key, in a park list or for its turn at a block queue: filling the word serves
nobody. -/
def Unwaited (s : State) (key : Nat) : Prop :=
  s.queue (wordKey key) = [] ∧ s.queue (wordKey key + 1) = [] ∧ ∀ f ∈ s.flights, f.kind ≠ .bqPop ∧ ∀ k, f.stage ≠ .queued (some k)

/-- The word an access reaches: in this package, or in a remote one. -/
def Reaches (r : Xl) (k : Nat) : Prop := (∃ e, r = .ok k e) ∨ ∃ w, r = .remote w ∧ w.key = k

/-- An instruction that makes an access: aligned, allowed, translated and with room, it sends its request and changes no
memory; to a word of a remote package too (R368); a record of another slot reads as zero (R205); an access that is to be made
at its home departs for it (R291); otherwise it traps as R192 orders, or waits for a translation or, a ninth reduction, for
room (R202). -/
def Accesses (i : Instr) (m : Meta) (p : Pred) (x : Access) : Prop :=
  Gated i m p ∧ ∀ s th, Ready m p s th →
    let b := begun m s th
    let y := th.begin_ m.occ
    let r := b.resolve s.cur y (x.addr y) x.acc (.thread s.cur)
    let trap c info := exec i s = .next ((s.forgetFailures s.cur).raise s.cur c (x.addr y) info th.ipc)
    ((x.addr y).toNat % x.acc.size ≠ 0 → trap .align x.acc.info) ∧
    ((x.addr y).toNat % x.acc.size = 0 →
      (∀ c info, r = .fault c info → trap c info) ∧
      (r = .miss → exec i s = .next ((s.joinMiss (unitOf s.cur.core) th.ctx (x.addr y) x.acc.kind s.cur (.thread s.cur)).await s.cur
        (.miss (x.addr y)))) ∧
      (r = .zero → ∃ t, exec i s = .next t ∧ t.thread? s.cur = some (x.zeroed m s th) ∧ t.flights = s.flights ∧ t.mem = s.mem ∧
        t.feFlips = s.feFlips ∧ OthersGoOn s t) ∧
      (∀ k, Reaches r k → x.self = true → b.holdsTake s.cur y (x.addr y) k = true → trap .feSelf 0) ∧
      (∀ k, Reaches r k → x.self = false → x.home = false → x.kind.isRed = true → 8 ≤ y.pending →
        exec i s = .next (s.await s.cur .room)) ∧
      (∀ key e n, r = .ok key e → x.home = true → (x.self = true → b.holdsTake s.cur y (x.addr y) key = false) →
        b.homeExec? s.cur y (x.addr y) key e = some n →
        ∃ t z, exec i s = .next t ∧ t.thread? s.cur = some z ∧ MemoryKept s t ∧ z.wait = some ⟨.depart n y.pc 1, s.beat, 0⟩ ∧ z.pc = y.pc ∧
          z.s = y.s ∧ z.outs = y.outs ∧ z.sq = if y.member then .fetching else y.sq) ∧
      ((∀ k, Reaches r k → x.self = true → b.holdsTake s.cur y (x.addr y) k = false) → (x.kind.isRed = true → y.pending < 8) →
        (∀ key e, r = .ok key e → (x.home = true → b.homeExec? s.cur y (x.addr y) key e = none) →
          ∃ t, exec i s = .next t ∧ t.thread? s.cur = some (x.after m (s.refill s.cur.core e) th key) ∧
            t.flights = s.flights ++ [x.sent s y key e] ∧ t.mem = s.mem ∧ t.feFlips = s.feFlips ∧ OthersGoOn s t) ∧
        (∀ w, r = .remote w →
          ∃ t f, exec i s = .next t ∧ t.thread? s.cur = some (x.after m s th w.key) ∧
            f ∈ t.flights ∧ f.id = s.serial ∧ f.kind = x.kind ∧ f.va = x.addr y ∧ f.data = x.data y ∧ f.data2 = x.data2 y ∧
            t.mem = s.mem ∧ t.feFlips = s.feFlips ∧ OthersGoOn s t)))

/-- A plain store (R193, R204): aligned, with an address of a window it may name and room in the store queue, it becomes the
youngest entry of the queue; memory is as it was. While 16 entries are in use it waits. -/
def Stores (i : Instr) (t b : Reg) (o : BitVec 6) (n : Nat) (p : Pred) : Prop :=
  let m := Meta.mem [b.toNat, t.toNat] [] false
  Gated i m p ∧ ∀ s th, Ready m p s th →
    let y := th.begin_ m.occ
    let va := y.memAddr b o n
    let trap c := exec i s = .next ((s.forgetFailures s.cur).raise s.cur c va 1 th.ipc)
    (va.toNat % n ≠ 0 → trap .align) ∧
    (va.toNat % n = 0 → (begun m s th).storeWindowOk s.cur y va true = false → trap .access) ∧
    (va.toNat % n = 0 → (begun m s th).storeWindowOk s.cur y va true = true → y.storeQ.length < 16 →
      ∃ u, exec i s = .next u ∧
        u.thread? s.cur = some { y.pop m th with
          pc := nextPc y.pc
          storeQ := y.storeQ ++ [⟨s.serial, [(va, n, ofN ((y.readS t.toNat).toNat % 256 ^ n))], false, y.pc, s.beat, none, none, false,
            [(begun m s th).keyOf? s.cur y.ctx va]⟩] } ∧
        u.mem = s.mem ∧ u.feFlips = s.feFlips ∧ u.flights = s.flights ∧ OthersGoOn s u) ∧
    (va.toNat % n = 0 → (begun m s th).storeWindowOk s.cur y va true = true → 16 ≤ y.storeQ.length →
      exec i s = .next (s.await s.cur .room))

end Sys2Proof
end

