-- ==== Sys2Proof/Certificates/Slice0/Obligations.lean ====
section
/-! DEFINITION. The statements for the provers. Sys2Proof/Safety.lean holds the shapes they are written in. -/

open Sys2Proof Sys2Proof.Machine

/-! ## Scalar instructions -/

/-- R104, R105: each instruction of the integer arithmetic, logic, multiply and divide majors writes the value its rule
gives to s(D), takes the rotations it gives, goes on at the next instruction, and leaves everything else alone. -/
def Obligations.IntegerArithmetic : Prop :=
  Binary .add 1 (fun x y => x + y) ∧
  Binary .sub 1 (fun x y => x - y) ∧
  Binary .and 1 (fun x y => x &&& y) ∧
  Binary .or 1 (fun x y => x ||| y) ∧
  Binary .xor 1 (fun x y => x ^^^ y) ∧
  Binary .andn 1 (fun x y => x &&& ~~~y) ∧
  Binary .shl 1 (fun x y => x <<< (y.toNat % 64)) ∧
  Binary .shr 1 (fun x y => x >>> (y.toNat % 64)) ∧
  Binary .sar 1 (fun x y => x.sshiftRight (y.toNat % 64)) ∧
  Binary .ror 1 (fun x y => x.rotateRight (y.toNat % 64)) ∧
  Binary .minS64 1 (fun x y => if x.toInt < y.toInt then x else y) ∧
  Binary .minZ64 1 (fun x y => if x.toNat < y.toNat then x else y) ∧
  Binary .maxS64 1 (fun x y => if y.toInt < x.toInt then x else y) ∧
  Binary .maxZ64 1 (fun x y => if y.toNat < x.toNat then x else y) ∧
  Binary .addsS64 1 (fun x y => ofI (clamp (x.toInt + y.toInt) (-(2 ^ 63)) (2 ^ 63 - 1))) ∧
  Binary .subsS64 1 (fun x y => ofI (clamp (x.toInt - y.toInt) (-(2 ^ 63)) (2 ^ 63 - 1))) ∧
  Binary .mul 1 (fun x y => x * y) ∧
  Binary .mulhS64 1 (fun x y => ofI (x.toInt * y.toInt / 2 ^ 64)) ∧
  Binary .mulhZ64 1 (fun x y => ofN (x.toNat * y.toNat / 2 ^ 64)) ∧
  Binary .divS64 3 (fun x y => if y = 0 then BitVec.allOnes 64 else ofI (x.toInt.tdiv y.toInt)) ∧
  Binary .divZ64 3 (fun x y => if y = 0 then BitVec.allOnes 64 else x / y) ∧
  Binary .remS64 3 (fun x y => if y = 0 then x else ofI (x.toInt.tmod y.toInt)) ∧
  Binary .remZ64 3 (fun x y => if y = 0 then x else x % y)

/-- R106, R107: the bit counts, reversals, extensions and bit-field forms. R106: what the counts and reversals count:
CLZ the zeros above the highest one, CTZ those below the lowest, POPC the ones, BREV bit i at place 63 - i, BSWAP byte
i at place 7 - i. -/
def Obligations.BitOperations : Prop :=
  (∀ x : Word,
    (∀ i, 64 - leadingZeros 64 x.toNat ≤ i → x.getLsbD i = false) ∧
    (x ≠ 0 → x.getLsbD (63 - leadingZeros 64 x.toNat) = true) ∧
    (∀ i, i < trailingZeros 64 x.toNat → x.getLsbD i = false) ∧
    (x ≠ 0 → x.getLsbD (trailingZeros 64 x.toNat) = true) ∧
    (x = 0 → leadingZeros 64 x.toNat = 64 ∧ trailingZeros 64 x.toNat = 64) ∧
    popCount 64 x.toNat = ((List.range 64).filter fun i => x.getLsbD i).length ∧
    (∀ i, i < 64 → (ofN (reverseBits 64 x.toNat 0)).getLsbD i = x.getLsbD (63 - i)) ∧
    (∀ i, i < 8 → wbits (ofN (ofLeBytes (leBytes 8 x.toNat).reverse)) (8 * i + 7) (8 * i) = wbits x (8 * (7 - i) + 7) (8 * (7 - i)))) ∧
  Unary .clz (fun x => ofN (leadingZeros 64 x.toNat)) ∧
  Unary .ctz (fun x => ofN (trailingZeros 64 x.toNat)) ∧
  Unary .popc (fun x => ofN (popCount 64 x.toNat)) ∧
  Unary .brev (fun x => ofN (reverseBits 64 x.toNat 0)) ∧
  Unary .bswap (fun x => ofN (ofLeBytes (leBytes 8 x.toNat).reverse)) ∧
  Unary .extS8 (fun x => (x.setWidth 8).signExtend 64) ∧
  Unary .extS16 (fun x => (x.setWidth 16).signExtend 64) ∧
  Unary .extS32 (fun x => (x.setWidth 32).signExtend 64) ∧
  Unary .extZ8 (fun x => (x.setWidth 8).setWidth 64) ∧
  Unary .extZ16 (fun x => (x.setWidth 16).setWidth 64) ∧
  Unary .extZ32 (fun x => (x.setWidth 32).setWidth 64) ∧
  Binary .bfxZ 1 (fun x y => ofN (x.toNat / 2 ^ fieldPos y % 2 ^ fieldWidth y)) ∧
  Binary .bfxS 1 (fun x y => sext (fieldWidth y) (x.toNat / 2 ^ fieldPos y % 2 ^ fieldWidth y)) ∧
  ∀ p d a b, Writes (.bfi p d a b) p d [d.toNat, a.toNat, b.toNat] 1 fun th =>
    let y := th.readS b.toNat
    let mask := ofN ((2 ^ fieldWidth y - 1) * 2 ^ fieldPos y)
    (th.readS d.toNat &&& ~~~mask) ||| ((th.readS a.toNat <<< fieldPos y) &&& mask)

/-- R109: the immediate and address forms. R108: the compares write all 32 bits of the flag, and with D[4] = 1 AND
them into its old value. -/
def Obligations.ComparesAndImmediates : Prop :=
  (Compares .cmpEq (fun x y => x == y) ∧
  Compares .cmpNe (fun x y => x != y) ∧
  Compares .cmpLtS64 (fun x y => decide (x.toInt < y.toInt)) ∧
  Compares .cmpLtZ64 (fun x y => decide (x.toNat < y.toNat)) ∧
  Compares .cmpLeS64 (fun x y => decide (x.toInt ≤ y.toInt)) ∧
  Compares .cmpLeZ64 (fun x y => decide (x.toNat ≤ y.toNat)) ∧
  ComparesImm .cmpiEq (fun x y => x == y) ∧
  ComparesImm .cmpiNe (fun x y => x != y) ∧
  ComparesImm .cmpiLtS64 (fun x y => decide (x.toInt < y.toInt)) ∧
  ComparesImm .cmpiLtZ64 (fun x y => decide (x.toNat < y.toNat)) ∧
  ComparesImm .cmpiLeS64 (fun x y => decide (x.toInt ≤ y.toInt)) ∧
  ComparesImm .cmpiLeZ64 (fun x y => decide (x.toNat ≤ y.toNat)) ∧
  ComparesImm .cmpiGtS64 (fun x y => decide (y.toInt < x.toInt)) ∧
  ComparesImm .cmpiGtZ64 (fun x y => decide (y.toNat < x.toNat))) ∧
  (∀ p d i, Writes (.addl p d i) p d [d.toNat] 1 fun th => th.readS d.toNat + i.setWidth 64) ∧
  (∀ p d a i, Writes (.addi p d a i) p d [a.toNat] 1 fun th => th.readS a.toNat + i.signExtend 64) ∧
  (∀ p d a i, Writes (.andi p d a i) p d [a.toNat] 1 fun th => th.readS a.toNat &&& i.signExtend 64) ∧
  (∀ p d a i, Writes (.ori p d a i) p d [a.toNat] 1 fun th => th.readS a.toNat ||| i.signExtend 64) ∧
  (∀ p d a i, Writes (.xori p d a i) p d [a.toNat] 1 fun th => th.readS a.toNat ^^^ i.signExtend 64) ∧
  (∀ p d a c, Writes (.shli p d a c) p d [a.toNat] 1 fun th => th.readS a.toNat <<< c.toNat) ∧
  (∀ p d a c, Writes (.shri p d a c) p d [a.toNat] 1 fun th => th.readS a.toNat >>> c.toNat) ∧
  (∀ p d a c, Writes (.sari p d a c) p d [a.toNat] 1 fun th => (th.readS a.toNat).sshiftRight c.toNat) ∧
  (∀ p d a c, Writes (.rori p d a c) p d [a.toNat] 1 fun th => (th.readS a.toNat).rotateRight c.toNat) ∧
  (∀ p d i, Writes (.li p d i) p d [] 1 fun _ => i.signExtend 64) ∧
  (∀ p d i, Writes (.lis p d i) p d [d.toNat] 1 fun th => (th.readS d.toNat <<< 15) ||| i.setWidth 64) ∧
  (∀ p d i, Writes (.addpc p d i) p d [] 1 fun th => th.pc + (i.signExtend 64 <<< 2)) ∧
  (∀ p d i, Writes (.addpch p d i) p d [] 1 fun th => (th.pc &&& ~~~(0x7FFF : Word)) + (i.signExtend 64 <<< 15))

/-- R115, R116, R93: scalar conversions, under their rounding field. R111-R114: scalar floating point: the operation
on the bits of the operands, in the dynamic rounding mode, the flags it raises ORed into fp.flags; fused forms read
s(D) too; compares write a flag; classes and signs raise nothing. -/
def Obligations.ScalarFloat : Prop :=
  (FloatBinary .faddD fp64 1 (fpAdd fp64) ∧ FloatBinary .fsubD fp64 1 (fpSub fp64) ∧
  FloatBinary .fmulD fp64 1 (fpMul fp64) ∧ FloatBinary .fdivD fp64 4 (fpDiv fp64) ∧
  FloatUnary .fsqrtD fp64 4 (fpSqrt fp64) ∧
  FloatBinary .fminD fp64 1 (fun _ z => fpMinMax fp64 z false) ∧ FloatBinary .fmaxD fp64 1 (fun _ z => fpMinMax fp64 z true) ∧
  Unary .fabsD (fun x => x &&& ~~~0x8000000000000000#64) ∧ Unary .fnegD (fun x => x ^^^ 0x8000000000000000#64) ∧
  FloatBinary .faddF fp32 1 (fpAdd fp32) ∧ FloatBinary .fsubF fp32 1 (fpSub fp32) ∧
  FloatBinary .fmulF fp32 1 (fpMul fp32) ∧ FloatBinary .fdivF fp32 2 (fpDiv fp32) ∧
  FloatUnary .fsqrtF fp32 2 (fpSqrt fp32) ∧
  FloatBinary .fminF fp32 1 (fun _ z => fpMinMax fp32 z false) ∧ FloatBinary .fmaxF fp32 1 (fun _ z => fpMinMax fp32 z true) ∧
  Unary .fabsF (fun x => x &&& 0x7FFFFFFF#64) ∧ Unary .fnegF (fun x => (x &&& 0xFFFFFFFF#64) ^^^ 0x80000000#64) ∧
  FloatFused .fmaD fp64 false ∧ FloatFused .fmsD fp64 true ∧ FloatFused .fmaF fp32 false ∧ FloatFused .fmsF fp32 true ∧
  FloatCompares .fcmpEqD fp64 .eq ∧ FloatCompares .fcmpLtD fp64 .lt ∧ FloatCompares .fcmpLeD fp64 .le ∧ FloatCompares .fcmpUnD fp64 .un ∧
  FloatCompares .fcmpEqF fp32 .eq ∧ FloatCompares .fcmpLtF fp32 .lt ∧ FloatCompares .fcmpLeF fp32 .le ∧ FloatCompares .fcmpUnF fp32 .un ∧
  Unary .fclassD (fun x => ofN (fpClass fp64 x.toNat)) ∧ Unary .fclassF (fun x => ofN (fpClass fp32 (x.toNat % 2 ^ 32)))) ∧
  Converts .cvtFD (fun m z x => fpConvert fp64 fp32 m z x.toNat) ∧
  (∀ p d a, Local (.cvtDF p d a) (Meta.scalar [a.toNat] [d.toNat]) p fun s th =>
    let r := fpConvert fp32 fp64 th.rm th.ftz ((th.readS a.toNat).toNat % 2 ^ 32)
    (th.orFlags r.2).writeS d.toNat (ofN r.1) s.beat) ∧
  Converts .cvtDS64 (fun m z x => intToFp fp64 m z x.toInt) ∧
  Converts .cvtDZ64 (fun m z x => intToFp fp64 m z x.toNat) ∧
  Converts .cvtFS64 (fun m z x => intToFp fp32 m z x.toInt) ∧
  Converts .cvtFZ64 (fun m z x => intToFp fp32 m z x.toNat) ∧
  Converts .cvtS64D (fun m z x => intRes (fpToInt fp64 m z (-(2 ^ 63)) (2 ^ 63 - 1) x.toNat)) ∧
  Converts .cvtZ64D (fun m z x => intRes (fpToInt fp64 m z 0 (2 ^ 64 - 1) x.toNat)) ∧
  Converts .cvtS64F (fun m z x => intRes (fpToInt fp32 m z (-(2 ^ 63)) (2 ^ 63 - 1) (x.toNat % 2 ^ 32))) ∧
  Converts .cvtZ64F (fun m z x => intRes (fpToInt fp32 m z 0 (2 ^ 64 - 1) (x.toNat % 2 ^ 32)))
/-! ## Vector and flag instructions -/

/-- R133: integer lanes under the mask. -/
def Obligations.VectorInteger : Prop :=
  Lanewise .vAdd (fun x y => x + y) ∧ Lanewise .vSub (fun x y => x - y) ∧ Lanewise .vMul (fun x y => x * y) ∧
  Lanewise .vMulhS32 (fun x y => BitVec.ofInt 32 (x.toInt * y.toInt / 2 ^ 32)) ∧
  Lanewise .vMulhZ32 (fun x y => BitVec.ofNat 32 (x.toNat * y.toNat / 2 ^ 32)) ∧
  Lanewise .vAnd (fun x y => x &&& y) ∧ Lanewise .vOr (fun x y => x ||| y) ∧ Lanewise .vXor (fun x y => x ^^^ y) ∧
  Lanewise .vShl (fun x y => x <<< (y.toNat % 32)) ∧ Lanewise .vShr (fun x y => x >>> (y.toNat % 32)) ∧
  Lanewise .vSar (fun x y => x.sshiftRight (y.toNat % 32)) ∧
  Lanewise .vMinS32 (fun x y => if y.toInt < x.toInt then y else x) ∧ Lanewise .vMinZ32 (fun x y => if y.toNat < x.toNat then y else x) ∧
  Lanewise .vMaxS32 (fun x y => if x.toInt < y.toInt then y else x) ∧ Lanewise .vMaxZ32 (fun x y => if x.toNat < y.toNat then y else x) ∧
  Lanewise .vAddsS32 (fun x y => BitVec.ofInt 32 (clamp (x.toInt + y.toInt) (-(2 ^ 31)) (2 ^ 31 - 1))) ∧
  Lanewise .vSubsS32 (fun x y => BitVec.ofInt 32 (clamp (x.toInt - y.toInt) (-(2 ^ 31)) (2 ^ 31 - 1))) ∧
  LanewiseUnary .vAbsS32 (fun x => BitVec.ofNat 32 x.toInt.natAbs) ∧
  LanewiseCompares .vCmpEq (fun x y => x == y) ∧ LanewiseCompares .vCmpNe (fun x y => x != y) ∧
  LanewiseCompares .vCmpLtS32 (fun x y => decide (x.toInt < y.toInt)) ∧ LanewiseCompares .vCmpLtZ32 (fun x y => decide (x.toNat < y.toNat)) ∧
  LanewiseCompares .vCmpLeS32 (fun x y => decide (x.toInt ≤ y.toInt)) ∧ LanewiseCompares .vCmpLeZ32 (fun x y => decide (x.toNat ≤ y.toNat))

/-- R138-R140: lane conversions: the number of elements, their places, the occupancy, and the format pair of each.
R134-R137: floating-point elements under the mask, of one lane, half a lane or two lanes, with the flags of the
elements written. -/
def Obligations.VectorFloat : Prop :=
  (LanewiseFloat .vFaddF 1 (fun m z _ x y => fpAdd fp32 m z x y) ∧ LanewiseFloat .vFsubF 1 (fun m z _ x y => fpSub fp32 m z x y) ∧
  LanewiseFloat .vFmulF 1 (fun m z _ x y => fpMul fp32 m z x y) ∧ LanewiseFloat .vFdivF 4 (fun m z _ x y => fpDiv fp32 m z x y) ∧
  (∀ p d a, Masked (.vFsqrtF p d a) (.vec [d.toNat, a.toNat] [] [] 4) p fun _ th m =>
    th.fpLanes d.toNat m fun i => fpSqrt fp32 th.rm th.ftz (th.readLane a.toNat i).toNat) ∧
  LanewiseFloat .vFminF 1 (fun _ z _ x y => fpMinMax fp32 z false x y) ∧ LanewiseFloat .vFmaxF 1 (fun _ z _ x y => fpMinMax fp32 z true x y) ∧
  LanewiseUnary .vFabsF (fun x => x &&& 0x7FFFFFFF#32) ∧ LanewiseUnary .vFnegF (fun x => x ^^^ 0x80000000#32) ∧
  LanewiseFloat .vFmaF 1 (fun m z d x y => fpFma fp32 m z false d x y) ∧ LanewiseFloat .vFmsF 1 (fun m z d x y => fpFma fp32 m z true d x y) ∧
  Packed .vFaddH (fun m z _ x y => fpAdd fp16 m z x y) ∧ Packed .vFmulH (fun m z _ x y => fpMul fp16 m z x y) ∧
  Packed .vFmaH (fun m z d x y => fpFma fp16 m z false d x y) ∧
  Packed .vFaddB (fun m z _ x y => fpAdd bf16 m z x y) ∧ Packed .vFmulB (fun m z _ x y => fpMul bf16 m z x y) ∧
  Packed .vFmaB (fun m z d x y => fpFma bf16 m z false d x y) ∧
  Pairwise64 .vFaddD 4 (fun m z _ x y => fpAdd fp64 m z x y) ∧ Pairwise64 .vFsubD 4 (fun m z _ x y => fpSub fp64 m z x y) ∧
  Pairwise64 .vFmulD 4 (fun m z _ x y => fpMul fp64 m z x y) ∧ Pairwise64 .vFdivD 16 (fun m z _ x y => fpDiv fp64 m z x y) ∧
  Pairwise64 .vFmaD 4 (fun m z d x y => fpFma fp64 m z false d x y) ∧
  Pairwise64 .vFminD 4 (fun _ z _ x y => fpMinMax fp64 z false x y) ∧ Pairwise64 .vFmaxD 4 (fun _ z _ x y => fpMinMax fp64 z true x y) ∧
  (∀ p d a, Masked (.vFsqrtD p d a) (.vec [d.toNat, a.toNat] [] [] 16) p fun _ th m =>
    th.fpPairs d.toNat m fun e => fpSqrt fp64 th.rm th.ftz (th.readD a.toNat e)) ∧
  ∀ p d a b, ∀ x ∈ [(Instr.vFcmpEqF p d a b, FCond.eq), (.vFcmpLtF p d a b, .lt), (.vFcmpLeF p d a b, .le), (.vFcmpUnF p d a b, .un)],
    Masked x.1 (.vec [a.toNat, b.toNat] [] [] 1) p fun _ th m =>
      let r (i : Nat) := fpCmp fp32 th.ftz x.2 (th.readLane a.toNat i).toNat (th.readLane b.toNat i).toNat
      (th.orFlags (unionFlags ((lanesOf m).map fun i => (r i).2))).writeCmpV d m (maskOf fun i => (r i).1)) ∧
  ∀ (p : Pred) (d a r : Reg),
    LanewiseConverts (.vCvtFS32 p d a r) p d a r.toNat 1 32 1 (fun th m i => intToFp fp32 m th.ftz (th.readLane a.toNat i).toInt) ∧
    LanewiseConverts (.vCvtS32F p d a r) p d a r.toNat 1 32 1 (fun th m i =>
      let v := fpToInt fp32 m th.ftz (-(2 ^ 31)) (2 ^ 31 - 1) (th.readLane a.toNat i).toNat
      ((BitVec.ofInt 32 v.1).toNat, v.2)) ∧
    LanewiseConverts (.vCvtHF p d a r) p d a r.toNat 2 16 1 (fun th m i => fpConvert fp32 fp16 m th.ftz (th.readLane a.toNat i).toNat) ∧
    LanewiseConverts (.vCvtBF p d a r) p d a r.toNat 2 16 1 (fun th m i => fpConvert fp32 bf16 m th.ftz (th.readLane a.toNat i).toNat) ∧
    LanewiseConverts (.vCvtE43F p d a r) p d a r.toNat 4 8 1 (fun th m i => fpConvert fp32 e4m3 m th.ftz (th.readLane a.toNat i).toNat) ∧
    LanewiseConverts (.vCvtE52F p d a r) p d a r.toNat 4 8 1 (fun th m i => fpConvert fp32 e5m2 m th.ftz (th.readLane a.toNat i).toNat) ∧
    LanewiseConverts (.vCvtFH p d a) p d a 0 1 32 1 (fun th m i => fpConvert fp16 fp32 m th.ftz (th.narrow a.toNat 2 i)) ∧
    LanewiseConverts (.vCvtFB p d a) p d a 0 1 32 1 (fun th m i => fpConvert bf16 fp32 m th.ftz (th.narrow a.toNat 2 i)) ∧
    LanewiseConverts (.vCvtFE43 p d a) p d a 0 1 32 1 (fun th m i => fpConvert e4m3 fp32 m th.ftz (th.narrow a.toNat 4 i)) ∧
    LanewiseConverts (.vCvtFE52 p d a) p d a 0 1 32 1 (fun th m i => fpConvert e5m2 fp32 m th.ftz (th.narrow a.toNat 4 i)) ∧
    LanewiseConverts (.vCvtFD p d a r) p d a r.toNat 1 16 2 (fun th m j => fpConvert fp64 fp32 m th.ftz (th.readD a.toNat j)) ∧
    Masked (.vCvtDF p d a) (.vec [d.toNat, a.toNat] [] [] 2) p (fun _ th m =>
      th.fpPairs d.toNat m fun j => fpConvert fp32 fp64 th.rm th.ftz (th.readLane a.toNat j).toNat)

/-- R141-R143: moves and permutes of lanes, lane extraction, and reductions into s(D) by the fixed tree of R102. Where it
goes beyond the manual's words it rests on the model's choices of log 34. -/
def Obligations.VectorMovesAndReductions : Prop :=
  LanewiseUnary .vMov (fun x => x) ∧
  (∀ p d a, Masked (.vBcast p d a) (.vec [d.toNat] [a.toNat] [] 1) p fun _ th m =>
    th.setLanes d.toNat m fun _ => (th.readS a.toNat).setWidth 32) ∧
  (∀ p d a b, Masked (.vPerm p d a b) (.vec [d.toNat, a.toNat, b.toNat] [] [] 1) p fun _ th m =>
    th.setLanes d.toNat m fun i => th.readLane a.toNat ((th.readLane b.toNat i).toNat % 32)) ∧
  (∀ p d a, Masked (.vRev p d a) (.vec [d.toNat, a.toNat] [] [] 1) p fun _ th m =>
    th.setLanes d.toNat m fun i => th.readLane a.toNat (31 - i)) ∧
  (∀ p d a b, Masked (.vRot p d a b) (.vec [d.toNat, a.toNat] [b.toNat] [] 1) p fun _ th m =>
    th.setLanes d.toNat m fun i => th.readLane a.toNat ((i + (th.readS b.toNat).toNat) % 32)) ∧
  (∀ p d a b, Masked (.vIns p d a b) (.vec [d.toNat] [a.toNat, b.toNat] [] 1) p fun _ th m =>
    th.setLanes d.toNat m fun i =>
      if i = (th.readS b.toNat).toNat % 32 then (th.readS a.toNat).setWidth 32 else th.readLane d.toNat i) ∧
  (∀ p d a b, Masked (.vExt p d a b) (.vec [a.toNat] [b.toNat] [d.toNat] 1) p fun s th m =>
    let l := (th.readS b.toNat).toNat % 32
    if m.getLsbD l then th.writeS d.toNat ((th.readLane a.toNat l).setWidth 64) s.beat else s.unwritten d.toNat th) ∧
  (∀ p d a, Masked (.vFirst p d a) (.vec [a.toNat] [] [d.toNat] 1) p fun s th m =>
    th.writeS d.toNat (match (List.range 32).find? fun i => m.getLsbD i with
      | none => BitVec.allOnes 64
      | some l => (th.readLane a.toNat l).setWidth 64) s.beat) ∧
  Reduces .vRsumF 0x80000000 false (fun m z x y => fpAdd fp32 m z x y) ∧
  Reduces .vRsumS32 0 true (fun _ _ x y => ((x + y) % 2 ^ 32, 0)) ∧
  Reduces .vRminF 0x7F800000 false (fun _ z x y => fpMinMax fp32 z false x y) ∧
  Reduces .vRmaxF 0xFF800000 false (fun _ z x y => fpMinMax fp32 z true x y) ∧
  Reduces .vRminS32 0x7FFFFFFF true (fun _ _ x y => (if slt32 y x then y else x, 0)) ∧
  Reduces .vRmaxS32 0x80000000 true (fun _ _ x y => (if slt32 x y then y else x, 0)) ∧
  Reduces .vRand 0xFFFFFFFF false (fun _ _ x y => (x &&& y, 0)) ∧
  Reduces .vRbor 0 false (fun _ _ x y => (x ||| y, 0)) ∧
  Reduces .vRxor 0 false (fun _ _ x y => (x ^^^ y, 0))

/-- R145, R147, R148: the J4 block forms. Where it goes beyond the manual's words it rests on the model's choices of log
34. -/
def Obligations.VectorBlocks : Prop :=
  (∀ p d a b, Masked (.vJ4dec p d a b) (.vec [d.toNat, a.toNat] [b.toNat] [] 1) p fun _ th m =>
    let x := th.readS b.toNat
    th.fpLanes d.toNat m fun j =>
      roundFp fp32 th.rm th.ftz (j4Value (th.j4Code a.toNat (wbits x 18 16) j) (wbits x 7 0) (wbits x 15 8))) ∧
  (∀ p d a b, Masked (.vJ4enc p d a b) (.vec [d.toNat, a.toNat] [b.toNat] [b.toNat] 2) p fun s th m =>
    if m = 0 then s.unwritten b.toNat th
    else
      let x := th.readS b.toNat
      let blk := wbits x 18 16
      let vs := (List.range 32).map fun j =>
        if m.getLsbD j then fp32.read th.ftz (th.readLane a.toNat j).toNat else .fin false 0 0
      let r := j4Encode th 0 vs th.rng
      ((th.orFlags (r.flags ||| unionFlags (vs.map snan))).setLanes d.toNat (BitVec.ofNat 32 (15 * 2 ^ (4 * blk))) fun i =>
        BitVec.ofNat 32 (j4Lane r.codes (i - 4 * blk))).writeS b.toNat (setBits x 15 0 (r.scale + r.special * 2 ^ 8)) s.beat) ∧
  ∀ p d a r, Masked (.vBaddq p d a r) (.vec [d.toNat, a.toNat] [] [] 8) p fun _ th m =>
    ((List.range 7).filter fun b => m.getLsbD b).foldl (fun x b =>
      (if a = d then x else x.writeV a.toNat (th.readV a.toNat)).addBlock r.toNat d.toNat a.toNat b) th

/-- R153, R154: the flag forms under the mask. -/
def Obligations.FlagForms : Prop :=
  FlagBinary .fAnd (fun x y => x &&& y) ∧ FlagBinary .fOr (fun x y => x ||| y) ∧ FlagBinary .fXor (fun x y => x ^^^ y) ∧
  FlagBinary .fAndn (fun x y => x &&& ~~~y) ∧
  (∀ p d a, Masked (.fNot p d a) (.vec [] [] [] 1) p fun _ th m => th.writeFlagM d.toNat m (~~~(th.readF a.toNat))) ∧
  (∀ p d a, Masked (.fSet p d a) (.vec [] [a.toNat] [] 1) p fun _ th m => th.writeFlagM d.toNat m ((th.readS a.toNat).setWidth 32)) ∧
  (∀ p d a, Masked (.fGet p d a) (.vec [] [] [d.toNat] 1) p fun s th m =>
    th.writeS d.toNat ((th.readF a.toNat &&& m).setWidth 64) s.beat) ∧
  (∀ p d a, Masked (.fPopc p d a) (.vec [] [] [d.toNat] 1) p fun s th m =>
    th.writeS d.toNat (ofN ((List.range 32).filter fun i => (th.readF a.toNat &&& m).getLsbD i).length) s.beat)

/-! ## Control transfers, traps, returns -/

/-- R117-R119: the control transfers: BR, CALL, JMP, CALLR, LOOP, BANY and BALL. Where it goes beyond the manual's words
it rests on the model's choices of log 33. -/
def Obligations.ControlTransfers : Prop :=
  (∀ p i, Transfers (.br p i) .plain p (fun _ => true) false (fun _ th => th) fun th => th.pc + 4 * i.signExtend 64) ∧
  (∀ p i, Transfers (.call p i) (.scalar [] [1]) p (fun _ => true) false (fun s th => th.writeS 1 (th.pc + 4) s.beat)
    fun th => th.pc + 4 * i.signExtend 64) ∧
  (∀ p a, Transfers (.jmp p a) (.scalar [a.toNat] []) p (fun _ => true) true (fun _ th => th) fun th => th.readS a.toNat) ∧
  (∀ p d a, Transfers (.callr p d a) (.scalar [a.toNat] [d.toNat]) p (fun _ => true) true
    (fun s th => th.writeS d.toNat (th.pc + 4) s.beat) fun th => th.readS a.toNat) ∧
  (∀ p d i, Transfers (.loop p d i) (.scalar [d.toNat] [d.toNat]) p (fun th => th.readS d.toNat - 1 != 0) false
    (fun s th => th.writeS d.toNat (th.readS d.toNat - 1) s.beat) fun th => th.pc + 4 * i.signExtend 64) ∧
  (∀ p g i, Transfers (.bany p g i) .plain p (fun th => th.readF g.toNat != 0) false (fun _ th => th)
    fun th => th.pc + 4 * i.signExtend 64) ∧
  (∀ p g i, Transfers (.ball p g i) .plain p (fun th => th.readF g.toNat == BitVec.allOnes 32) false (fun _ th => th)
    fun th => th.pc + 4 * i.signExtend 64)

/-- R76: a trap taken outside trap mode, with every outstanding result written, saves cause, pc, address and information,
records whether it was taken from control mode, enters trap mode at trap.vec + 64 × cause, held as the PC holds it (R63),
and touches no other register; a member's squad is left (R176). Other threads go on. R78: a trap raised in trap mode halts
the thread, what is outstanding discarded and its slot's registers kept for dumps, and its cause goes to the context's
fault queue: an entry of KIND 3 stands last in the administrator's log. R25, R26, R27, R77, R213: a fault that comes with
a result stands in place of its thread's next instruction once every older result has been written or has faulted, in trap
mode at once: reported precisely, at the instruction that asked for it, when no later one has issued, and otherwise
window-late, at the next instruction, with the window's number and address and the tier alone of an error; a trap that
waited for results is taken then; the rotation counts as issued. Where it goes beyond the manual's words it rests on the
model's choices of logs 6 and 46. -/
def Obligations.TrapEntry : Prop :=
  (∀ (s : State) (t : ThreadRef) (th : Thread), s.thread? t = some th → th.engaged = false →
      (th.resolved = true ∨ th.mode = .trap) →
    (th.trapDue = true → s.slotFree th = true → s.issueStep t = .next (s.settle t)) ∧
    (∀ o c a info, firstFault th.outs = some (o, c, a, info) → (o.issued = 0 ∨ th.member = false ∨ 0 < th.subDue ∨ th.trapPend ≠ none) →
      (th.mode ≠ .trap → ∃ z, (s.settle t).thread? t = some z ∧ z.mode = .trap ∧ z.trapCtl = (th.mode == .control) ∧
        z.trapCause = BitVec.ofNat 8 c.code ∧ z.trapAddr = a ∧ z.pc = pcOf (th.trapVec + ofN (64 * c.code)) ∧ z.s = th.s ∧ z.v = th.v ∧
        z.f = th.f ∧ z.outs = [] ∧ z.trapPend = none ∧ z.wait = none ∧ z.issued = true ∧
        (o.issued = 0 → z.trapPc = o.pc ∧ z.trapInfo = info) ∧
        (o.issued ≠ 0 → z.trapPc = (match th.trapPend with | some p => p.pc | none => th.ipc) ∧
          z.trapInfo = (info &&& 0x0700000000000000#64) ||| ofN (2 ^ 63 + o.issued % 16 * 2 ^ 59 + o.pc.toNat % 2 ^ 56))) ∧
      (th.mode = .trap → ∃ z, (s.settle t).thread? t = some z ∧ z.halted = true ∧ z.outs = [] ∧ z.s = th.s)) ∧
    ∀ p, firstFault th.outs = none → th.trapPend = some p → th.mode ≠ .trap →
      ∃ z, (s.settle t).thread? t = some z ∧ z.mode = .trap ∧ z.trapCause = BitVec.ofNat 8 p.cause.code ∧ z.trapAddr = p.addr ∧
        z.trapInfo = p.info ∧ z.trapPc = p.pc ∧ z.pc = pcOf (th.trapVec + ofN (64 * p.cause.code)) ∧ z.s = th.s ∧ z.trapPend = none ∧
        z.issued = true) ∧
  (∀ (s : State) (r : ThreadRef) (th : Thread) (c : Cause) (addr info pc : Word) (x : Context),
    s.thread? r = some th → th.mode = .trap → th.sq = .fetching → s.recordsOf r = [] →
    s.context? th.ctx = some x → x.fqN = 0 → x.conf = false → c ≠ .eccUncorrectable →
    let t := s.raise r c addr info pc
    (∃ y, t.thread? r = some y ∧ y.halted = true ∧ y.mode = .trap ∧ y.pc = th.pc ∧ y.s = th.s ∧ y.outs = []) ∧
    ∃ w, t.adminLog = s.adminLog ++ [w] ∧ wbits (w.getD 0 0) 2 0 = r.slot % 8 ∧ wbits (w.getD 0 0) 15 8 = c.code ∧
      wbits (w.getD 0 0) 17 16 = 3 ∧ w.getD 1 0 = pc ∧ w.getD 2 0 = addr ∧ w.getD 3 0 = info) ∧
  ∀ (s : State) (r : ThreadRef) (th : Thread) (c : Cause) (addr info pc : Word),
    s.thread? r = some th → th.mode ≠ .trap → th.settled = true →
    ∃ x, (s.raise r c addr info pc).thread? r = some x ∧
      x.mode = .trap ∧ x.trapCause = BitVec.ofNat 8 c.code ∧ x.trapCtl = (th.mode == .control) ∧
      x.trapPc = pc ∧ x.trapAddr = addr ∧ x.trapInfo = info ∧ x.pc = pcOf (th.trapVec + ofN (64 * c.code)) ∧
      x.sq = (if th.member then .trapped else th.sq) ∧
      x.s = th.s ∧ x.v = th.v ∧ x.f = th.f ∧ x.k = th.k ∧ x.trapVec = th.trapVec ∧ x.fpCtl = th.fpCtl ∧
      x.fpFlags = th.fpFlags ∧ x.rng = th.rng ∧ x.lmask = th.lmask ∧ x.portCfg = th.portCfg ∧ x.portTag = th.portTag ∧
      x.scopeD = th.scopeD ∧ x.feBudget = th.feBudget ∧ x.chBudget = th.chBudget ∧ x.barBudget = th.barBudget ∧
      x.storeQ = th.storeQ ∧ x.inq = th.inq ∧ x.outq = th.outq ∧
      ∀ q, q ≠ r → (s.raise r c addr info pc).thread? q = s.thread? q

/-- R79, R123: ERET goes to trap.pc with bits [1:0] zero, in control mode if the trap was taken from it and otherwise in
run mode; a target that is not canonical traps in the mode returned to, once every outstanding result has been written
(R26). Outside trap mode ERET raises ILL (R31). Where it goes beyond the manual's words it rests on the model's choices of
log 33. -/
def Obligations.TrapReturn : Prop :=
  (∀ p, LocalTo (.eret p) { Meta.plain with inTrap := true } p
    (fun _ th => canonical (th.trapPc &&& ~~~(3#64)) = true)
    (fun _ th => { th with
      mode := if th.trapCtl then .control else .run
      sq := if th.sq = .trapped then .away else th.sq
      sqRdv := if th.sq = .trapped then 0 else th.sqRdv
      fetched := none, issued := true })
    fun th => th.trapPc &&& ~~~(3#64)) ∧
  (∀ p s th, Ready { Meta.plain with inTrap := true } p s th → canonical (th.trapPc &&& ~~~(3#64)) = false →
    (th.settled = false → ∃ t x, exec (.eret p) s = .next t ∧ t.thread? s.cur = some x ∧
      x.mode = (if th.trapCtl then .control else .run) ∧ x.outs = (th.begin_ 1).outs ∧ x.wait.map Wait.kind = some .trapEntry ∧
      x.trapPend = some ⟨.access, th.trapPc &&& ~~~(3#64), 0, th.trapPc &&& ~~~(3#64)⟩) ∧
    (th.settled = true → ∃ t x, exec (.eret p) s = .next t ∧ t.thread? s.cur = some x ∧ x.mode = .trap ∧ x.trapCtl = th.trapCtl ∧
      x.trapCause = 3 ∧ x.trapPc = (th.trapPc &&& ~~~(3#64)) ∧ x.trapAddr = (th.trapPc &&& ~~~(3#64)) ∧
      x.pc = pcOf (th.trapVec + 192) ∧ x.s = th.s)) ∧
  ∀ p s th, s.thread? s.cur = some th → th.live = true → th.expired = false → th.mode ≠ .trap →
    exec (.eret p) s = .next (s.raise s.cur .ill 0 (ofN s.ir.toNat) th.ipc)

/-- R126, R127, R129: DRAIN.ST goes on once the store queue is empty and every remote store has its reply, FENCE.I then
empties the core's instruction cache, and SLEEP takes the event that is posted to its slot; until then each waits,
DRAIN.ST and FENCE.I having issued. An instruction that waits so ends as a rotation begins, once its work is over, and the
next one may issue in that rotation (R275). R122, R125: TRAP raises SOFT with its code, BRK raises BREAK and under a debug
session that holds breakpoints stops the thread (R78); NOP does nothing. R124: HALT waits for every result and for older
work; then, with no record of the thread undelivered, it ends the thread: its slot goes vacant, a publication of its own
is closed, and in trap mode its members leave at trap.pc once they have executed what was published (R178), other threads
go on, and memory is as it was where no record of the thread stands; an undelivered record is reported at the HALT, as
STORE_FAULT. Where it goes beyond the manual's words it rests on the model's choices of logs 8, 18, 20, 31 and 32. -/
def Obligations.SystemInstructions : Prop :=
  (∀ p i, Gated (.trap p i) .plain p ∧ Gated (.brk p) .plain p ∧ Gated (.halt p) { Meta.plain with leaveOff := true } p) ∧
  ((∀ p i, Traps (.trap p i) .plain p (fun _ _ => True) .soft (fun _ => 0) fun _ => i.setWidth 64) ∧
  (∀ p, Traps (.brk p) .plain p (fun s th => s.sessionHolds th = false) .brk (fun _ => 0) fun _ => 0) ∧
  (∀ p s th, Ready .plain p s th → (begun .plain s th).sessionHolds th = true →
    ∃ t x, exec (.brk p) s = .next t ∧ t.thread? s.cur = some x ∧ x.stopped = true ∧ x.pc = th.pc ∧ x.mode = th.mode ∧ x.s = th.s) ∧
  ∀ p, Local (.nop p) .plain p fun _ th => th) ∧
  (∀ p s th, Ready { Meta.plain with leaveOff := true } p s th →
    let b := begun { Meta.plain with leaveOff := true } s th
    (th.begin_ 1).settled = true → b.haltBusy s.cur (th.begin_ 1) = false →
    (th.mode = .trap ∨ b.undelivered s.cur = false) →
    ∃ t, exec (.halt p) s = .next t ∧ t.thread? s.cur = none ∧
      (th.sq = .publishing → (t.core s.cur.core).pub = none) ∧
      (∀ c q x, th.sq = .publishing → th.mode = .trap → (s.core s.cur.core).pub = some c → q ∈ c.members → q ≠ s.cur →
        s.thread? q = some x → (t.thread? q).map Thread.deaf = some { x.deaf with endAt := some (pcOf th.trapPc) }) ∧
      (b.recordsOf s.cur = [] → t.mem = s.mem ∧ t.feFlips = s.feFlips) ∧
      ∀ q, q ≠ s.cur → (th.sq = .publishing → th.mode = .trap → ∀ c, (s.core s.cur.core).pub = some c → q ∉ c.members) →
        (t.thread? q).map Thread.deaf = (s.thread? q).map Thread.deaf) ∧
  (∀ p, Waits (.halt p) { Meta.plain with leaveOff := true } p (fun _ th => th.settled = false) .windows ∧
    Waits (.halt p) { Meta.plain with leaveOff := true } p (fun s th => th.settled = true ∧ s.haltBusy s.cur th = true) .older ∧
    Waits (.halt p) { Meta.plain with leaveOff := true } p (fun s th => th.settled = true ∧ s.haltBusy s.cur th = false ∧ th.mode ≠ .trap ∧
      s.undelivered s.cur = true ∧ s.storeFaultPending s.cur = false) .older) ∧
  (∀ p s th, Ready { Meta.plain with leaveOff := true } p s th →
    let b := begun { Meta.plain with leaveOff := true } s th
    th.settled = true → th.mode ≠ .trap → b.haltBusy s.cur (th.begin_ 1) = false → b.undelivered s.cur = true →
    b.storeFaultPending s.cur = true →
    ∃ t x, exec (.halt p) s = .next t ∧ t.thread? s.cur = some x ∧ x.mode = .trap ∧ x.trapCause = 9 ∧ x.trapPc = th.ipc ∧ x.s = th.s) ∧
  (∀ p, Runs (.drainSt p) .plain p (fun s th => s.drained s.cur th = true) fun s _ => s) ∧
  (∀ p, Runs (.fenceI p) .plain p (fun s th => s.drained s.cur th = true) fun s _ =>
    s.modCore s.cur.core fun c => { c with icache := [] }) ∧
  (∀ p, Blocks (.drainSt p) .plain p (fun s th => s.drained s.cur th = false) (fun _ _ => .work .drain) (fun _ => BitVec.allOnes 64)
    fun s _ => s) ∧
  (∀ p, Blocks (.fenceI p) .plain p (fun s th => s.drained s.cur th = false) (fun _ _ => .work .fenceI) (fun _ => BitVec.allOnes 64)
    fun s _ => s) ∧
  (∀ s t th w t0 b, s.thread? t = some th → th.wait = some ⟨.work w, t0, b⟩ →
    (s.workOver t th w = false → s.endWork t = s) ∧
    (s.workOver t th w = true → ∃ x, (s.endWork t).thread? t = some x ∧ x.pc = nextPc th.pc ∧
      x.wait = none ∧ x.s = th.s ∧ x.v = th.v ∧
      MemoryKept s (s.endWork t) ∧ (w = .fenceI → ((s.endWork t).core t.core).icache = []) ∧ ∀ v, w = .portCfg v → x.portCfg = v)) ∧
  (∀ p, Runs (.sleep p) { Meta.plain with priv := true } p (fun s _ => (s.slot s.cur).event = true) fun s _ =>
    s.modSlot s.cur fun x => { x with event := false }) ∧
  ∀ p s th, Ready { Meta.plain with priv := true } p s th → (s.slot s.cur).event = false →
    exec (.sleep p) s = .next (s.await s.cur .sleep)

/-! ## Special registers -/

/-- R69-R74, R120, R121: what MFS reads under each number; a member that holds its channel reads itself subscribed (R74).
Where it goes beyond the manual's words it rests on the model's choices of logs 24 and 36. -/
def Obligations.SpecialRegisterReads : Prop :=
  (∀ p d (n : BitVec 15), Runs (.mfs p d n)
    { Meta.scalar [] [d.toNat] with priv := decide (0x4000 ≤ n.toNat), trapOnly := decide (0x48 ≤ n.toNat) && decide (n.toNat ≤ 0x4B) } p
    (fun _ _ => True) fun s th =>
      (s.modThread s.cur fun x => x.writeS d.toNat (s.readSreg s.cur th n.toNat) s.beat).clearOnRead s.cur n.toNat) ∧
  ∀ (s : State) (r : ThreadRef) (th : Thread),
    let rd := s.readSreg r th
    let c := s.core r.core
    (roleOf r.core = .masthead → rd 0x000 = 0xFFFF ∧ rd 0x001 = 0xFFFF ∧ rd 0x002 = 0xFFFF ∧ rd 0x005 = ofN ((r.core - mastBase) % 16)) ∧
    (roleOf r.core ≠ .masthead → rd 0x000 = ofN (s.idCore th.ctx r.core) ∧ rd 0x001 = ofN (s.idCore th.ctx r.core % 192) ∧
      rd 0x002 = ofN (s.idCore th.ctx r.core / 192) ∧ rd 0x005 = ofN (clusterOf r.core % 16) ∧
      ∀ x l, s.context? th.ctx = some x → x.logical? r.core = some l → rd 0x000 = ofN l) ∧
    rd 0x004 = ofN (dieOf r.core) ∧
    (∀ i : Fin 3, rd (0x010 + i) = ofN (th.tileOrg.getD i 0) ∧ rd (0x013 + i) = ofN (th.tileExt.getD i 0)) ∧
    rd 0x003 = ofN r.slot ∧ rd 0x006 = ofN th.band ∧ rd 0x007 = ofN th.launch ∧ rd 0x008 = ofN th.tib ∧ rd 0x009 = ofN th.ctx ∧
    rd 0x020 = th.scopeD ∧ rd 0x021 = th.feBudget ∧ rd 0x022 = th.chBudget ∧ rd 0x023 = th.barBudget ∧
    rd 0x024 = th.portCfg ∧ rd 0x025 = th.portTag ∧ rd 0x026 = th.fpCtl ∧ rd 0x027 = th.fpFlags ∧ rd 0x028 = th.rng ∧
    rd 0x029 = th.lmask.setWidth 64 ∧ rd 0x02A = th.sqLeftpc ∧
    wbits (rd 0x02B) 2 0 = (if th.sq = .held then SqState.subscribed else th.sq).code ∧ wbits (rd 0x02B) 7 3 = th.sqRdv % 32 ∧ wbits (rd 0x02B) 22 8 = th.sqCh % 2 ^ 15 ∧
    wbits (rd 0x02B) 26 23 = th.sqDepth % 16 ∧ wbits (rd 0x02B) 63 27 = 0 ∧
    rd 0x02C = c.mxCtx ∧ rd 0x02D = c.tktLast ∧ rd 0x030 = ofN s.beat ∧ rd 0x031 = ofN (8 * s.beat + r.slot) ∧
    rd 0x040 = th.trapVec ∧ wbits (rd 0x041) 7 0 = th.trapCause.toNat ∧ wbit (rd 0x041) 8 = th.trapCtl ∧ wbits (rd 0x041) 63 9 = 0 ∧
    rd 0x042 = th.trapPc ∧ rd 0x043 = th.trapAddr ∧ rd 0x044 = th.trapInfo ∧
    (∀ i : Fin 4, rd (0x048 + i) = th.k[i]) ∧
    rd 0x060 = ofN c.mboxBase ∧ rd 0x061 = ofN c.mboxSize ∧ rd 0x062 = ofN c.mboxHead ∧ rd 0x063 = ofN c.mboxTail ∧
    rd 0x080 = ofN th.rotIssued ∧ rd 0x081 = ofN th.rotMem ∧ rd 0x082 = ofN th.rotMsg ∧ rd 0x083 = ofN th.rotVacant ∧
    (∀ i : Fin 9, rd (0x088 + i) = ofN c.rotHist[i]) ∧
    rd 0x0A0 = 8 ∧ rd 0x0A1 = 32 ∧ rd 0x0A2 = 12 ∧ rd 0x0A3 = 196608 ∧ rd 0x0A4 = 256 ∧
    rd 0x0A5 = rd 0x0A6 + rd 0x0A7 + rd 0x0A8 + rd 0x0A9 ∧ (∀ i : Fin 4, rd (0x0A6 + i) = ofN (Config.farBytes i)) ∧
    (∀ i : Fin 64, rd (0x100 + i) = ofN c.tc[i]) ∧
    rd 0x4000 = s.ctxBase ∧ rd 0x4001 = (s.slot r).evpend ∧ rd 0x4002 = (s.slot r).evmask ∧ rd 0x4003 = (s.slot r).timer ∧
    rd 0x4004 = ofN (match roleOf r.core with | .clusterCtl => 1 | .dieCtl => 2 | .masthead => 3 | _ => 0) ∧
    wbit (rd 0x4005) 0 = s.ctxActBusy.isSome ∧ wbits (rd 0x4005) 7 4 = s.ctxActStatus % 16 ∧
    rd 0x4020 = ofN (s.die (dieOf r.core)).frSeq ∧ wbit (rd 0x4031) 0 = s.keyBusy ∧ wbit (rd 0x4031) 1 = s.keyErr ∧
    wbit (rd 0x4040) 0 = s.dbgUnlocked ∧ wbit (rd 0x4040) 1 = s.challenge.isSome ∧
    rd 0x4010 = ofN s.fstep ∧ rd 0x4011 = ofN s.pwrLimit ∧ rd 0x4012 = ofN s.pwrMeas ∧ rd 0x4013 = ofN s.pwrTemp ∧
    rd 0x4030 = s.keyCmd ∧ rd 0x4050 = ofN (s.die (dieOf r.core)).errCorr ∧ rd 0x4051 = ofN (s.die (dieOf r.core)).errUncorr

/-- R70-R74, R120: what MTS writes in its own thread, by number, and the values it ignores. -/
def Obligations.SpecialRegisterWrites : Prop :=
  Sets 0x020 (fun _ v => scopeOk v = true) (fun th v => { th with scopeD := v }) ∧
  Sets 0x020 (fun _ v => scopeOk v = false) (fun th _ => th) ∧
  Sets 0x021 (fun _ _ => True) (fun th v => { th with feBudget := v }) ∧
  Sets 0x022 (fun _ _ => True) (fun th v => { th with chBudget := v }) ∧
  Sets 0x023 (fun _ _ => True) (fun th v => { th with barBudget := v }) ∧
  Sets 0x025 (fun _ _ => True) (fun th v => { th with portTag := setBits th.portTag 15 8 (wbits v 15 8) }) ∧
  Sets 0x026 (fun _ v => wbits v 2 0 ≤ 4) (fun th v => { th with fpCtl := ofN (wbits v 3 0) }) ∧
  Sets 0x026 (fun _ v => 4 < wbits v 2 0) (fun th v => { th with fpCtl := ofN (wbits th.fpCtl 2 0 + 8 * wbits v 3 3) }) ∧
  Sets 0x027 (fun _ _ => True) (fun th v => { th with fpFlags := v &&& 0x1F#64 }) ∧
  Sets 0x028 (fun _ _ => True) (fun th v => { th with rng := if v = 0 then 1 else v }) ∧
  Sets 0x029 (fun _ _ => True) (fun th v => { th with lmask := v.setWidth 32 }) ∧
  Sets 0x040 (fun _ _ => True) (fun th v => { th with trapVec := v &&& ~~~(0xFFF#64) }) ∧
  Sets 0x041 (fun th _ => th.mode = .trap) (fun th v => { th with trapCause := v.setWidth 8 }) ∧
  Sets 0x042 (fun th _ => th.mode = .trap) (fun th v => { th with trapPc := v }) ∧
  Sets 0x043 (fun th _ => th.mode = .trap) (fun th v => { th with trapAddr := v }) ∧
  Sets 0x044 (fun th _ => th.mode = .trap) (fun th v => { th with trapInfo := v }) ∧
  (∀ n ∈ [0x041, 0x042, 0x043, 0x044], Sets n (fun th _ => th.mode ≠ .trap) (fun th _ => th)) ∧
  Sets 0x048 (fun _ _ => True) (fun th v => { th with k := th.k.set 0 v }) ∧
  Sets 0x049 (fun _ _ => True) (fun th v => { th with k := th.k.set 1 v }) ∧
  Sets 0x04A (fun _ _ => True) (fun th v => { th with k := th.k.set 2 v }) ∧
  Sets 0x04B (fun _ _ => True) (fun th v => { th with k := th.k.set 3 v }) ∧
  ∀ n : BitVec 15, sregAssigned n.toNat = true → n.toNat ≤ 0x015 ∨ 0x02A ≤ n.toNat ∧ n.toNat ≤ 0x031 ∨ 0x063 ≤ n.toNat ∧ n.toNat ≤ 0x13F ∨
      n.toNat ∈ [0x4004, 0x4012, 0x4013, 0x4020, 0x4031, 0x4040, 0x4050, 0x4051] →
    Sets n (fun _ _ => True) (fun th _ => th)

/-- R182, R334, R337: what MTS writes in the core, the slot and the package; a write to mbox.base or mbox.size in the
middle of a delivery takes effect after it, and a write that only another core may make is ignored. Where it goes beyond
the manual's words it rests on the model's choices of log 30. -/
def Obligations.ControlRegisterWrites : Prop :=
  SetsIn 0x060 (fun s _ => (s.core s.cur.core).deliveries = [] ∧ (s.core s.cur.core).mboxPend = [])
    (fun s v => s.modCore s.cur.core fun c => { c with mboxBase := wbits v 17 3 * 8, mboxHead := 0, mboxTail := 0 }) ∧
  SetsIn 0x061 (fun s _ => (s.core s.cur.core).deliveries = [] ∧ (s.core s.cur.core).mboxPend = [])
    (fun s v => s.modCore s.cur.core fun c => { c with mboxSize := wbits v 18 3 * 8, mboxHead := 0, mboxTail := 0 }) ∧
  SetsIn 0x060 (fun s _ => (s.core s.cur.core).deliveries ≠ [] ∨ (s.core s.cur.core).mboxPend ≠ [])
    (fun s v => s.modCore s.cur.core fun c => { c with mboxPend := c.mboxPend ++ [(true, wbits v 17 3 * 8)] }) ∧
  SetsIn 0x061 (fun s _ => (s.core s.cur.core).deliveries ≠ [] ∨ (s.core s.cur.core).mboxPend ≠ [])
    (fun s v => s.modCore s.cur.core fun c => { c with mboxPend := c.mboxPend ++ [(false, wbits v 18 3 * 8)] }) ∧
  SetsIn 0x062 (fun s v => v.toNat < (s.core s.cur.core).mboxSize)
    (fun s v => s.modCore s.cur.core fun c => { c with mboxHead := wbits v 17 3 * 8 }) ∧
  SetsIn 0x062 (fun s v => (s.core s.cur.core).mboxSize ≤ v.toNat) (fun s _ => s.modCore s.cur.core fun c => c) ∧
  SetsIn 0x4000 (fun _ _ => True) (fun s v => { s with ctxBase := v }) ∧
  SetsIn 0x4001 (fun _ _ => True) (fun s v => s.modSlot s.cur fun x => { x with evpend := x.evpend &&& ~~~v }) ∧
  SetsIn 0x4002 (fun _ _ => True) (fun s v => s.modSlot s.cur fun x => { x with evmask := v }) ∧
  SetsIn 0x4003 (fun _ _ => True) (fun s v => s.modSlot s.cur fun x => { x with timer := v, timerFired := false }) ∧
  SetsIn 0x4005 (fun s _ => s.ctxActBusy = none) (fun s v => { s with ctxActBusy := some v }) ∧
  SetsIn 0x4005 (fun s _ => s.ctxActBusy ≠ none) (fun s _ => s) ∧
  SetsIn 0x4010 (fun s v => s.cur.core = mastBase ∧ v.toNat ≤ 18) (fun s v => { s with fstepPend := some v.toNat }) ∧
  SetsIn 0x4010 (fun s _ => s.cur.core ≠ mastBase) (fun s _ => s) ∧
  SetsIn 0x4010 (fun _ v => 18 < v.toNat) (fun s _ => s) ∧
  SetsIn 0x4011 (fun _ _ => True) (fun s v => { s with pwrLimit := v.toNat }) ∧
  SetsIn 0x4030 (fun s _ => s.cur.core ≠ mastBase ∨ s.keyBusy = true) (fun s _ => s) ∧
  SetsIn 0x4030 (fun s _ => s.cur.core = mastBase ∧ s.keyBusy = false) (fun s v =>
    if wbits v 12 2 = 0 ∨ wbits v 63 14 ≠ 0 ∨ 1 < wbits v 1 0 ∨ (s.contexts.any fun c => c.key == wbits v 12 2) then
      { s with keyCmd := v &&& 0x3FFF#64, keyErr := true }
    else { s with keyCmd := v &&& 0x3FFF#64, keyErr := false, keyBusy := true })

/-- R67, R68: without control privilege TLBW, SLEEP and the registers from 0x4000 on raise PRIV, and outside trap mode k0-k3
do, in control mode too: trap.info is the word, and nothing is read or written. -/
def Obligations.PrivilegeRules : Prop :=
  ∀ (s : State) (th : Thread), s.thread? s.cur = some th → th.live = true → th.expired = false →
    let priv := Host.Outcome.next (s.raise s.cur .priv 0 (ofN s.ir.toNat) th.ipc)
    (th.privileged = false →
      (∀ p, exec (.sleep p) s = priv) ∧ (∀ p a b, exec (.tlbwWriteEntry p a b) s = priv ∧ exec (.tlbwInvalidatePage p a b) s = priv ∧
        exec (.tlbwFailMiss p a b) s = priv ∧ exec (.tlbwInvalidateContext p a b) s = priv) ∧
      (∀ p d (n : BitVec 15), 0x4000 ≤ n.toNat → exec (.mfs p d n) s = priv ∧ exec (.mts p d n) s = priv)) ∧
    (th.mode ≠ .trap → ∀ p d (n : BitVec 15), 0x48 ≤ n.toNat → n.toNat ≤ 0x4B → exec (.mfs p d n) s = priv ∧ exec (.mts p d n) s = priv)

/-! ## Memory -/

/-- R192, R193: the loads, with their sizes and extensions, LD.W, LD.T and FE.PROBE: each sends its request and opens its
window, or traps in the order of R192; the held-take list stops LD.W and LD.T (R200). Where it goes beyond the manual's
words it rests on the model's choices of logs 10 and 25. -/
def Obligations.LoadsIssue : Prop :=
  ∀ (p : Pred) (t b : Reg) (l : BitVec 4) (o : BitVec 6),
    let a (n : Nat) (th : Thread) : Word := th.readS b.toNat + o.signExtend 64 * ofN n
    let m := Meta.mem [b.toNat] [t.toNat] true
    let ld (n : Nat) (sg : Bool) := Access.reads (.load n sg) (accLoad n) (a n) t.toNat l.toNat false true
    Accesses (.ld p t b l o) m p (ld 8 false) ∧
    Accesses (.ldS32 p t b l o) m p (ld 4 true) ∧ Accesses (.ldZ32 p t b l o) m p (ld 4 false) ∧
    Accesses (.ldS16 p t b l o) m p (ld 2 true) ∧ Accesses (.ldZ16 p t b l o) m p (ld 2 false) ∧
    Accesses (.ldS8 p t b l o) m p (ld 1 true) ∧ Accesses (.ldZ8 p t b l o) m p (ld 1 false) ∧
    Accesses (.ldW p t b l o) m p (.reads .ldW accFeRead (a 8) t.toNat l.toNat true true) ∧
    Accesses (.ldT p t b l o) m p (.reads .ldT accFeTake (a 8) t.toNat l.toNat true true) ∧
    Accesses (.feProbe p t b l o) m p (.reads .feProbe accFeRead (a 8) t.toNat l.toNat false true)

/-- R193, R195, R204: the plain stores enter the store queue; ST.F, ST.S and FE.CLR send their requests, and ST.F waits at
itself. Where it goes beyond the manual's words it rests on the model's choices of logs 11 and 25. -/
def Obligations.StoresAndFillsIssue : Prop :=
  ∀ (p : Pred) (t b : Reg) (o : BitVec 6),
    let a (th : Thread) : Word := th.readS b.toNat + o.signExtend 64 * 8
    Stores (.st p t b o) t b o 8 p ∧ Stores (.st32 p t b o) t b o 4 p ∧ Stores (.st16 p t b o) t b o 2 p ∧
    Stores (.st8 p t b o) t b o 1 p ∧
    Accesses (.stF p t b o) (.mem [b.toNat, t.toNat] [] false) p ⟨.stF, accFeWrite, a, fun th => th.readS t.toNat, fun _ => 0, none, false, true⟩ ∧
    Accesses (.stS p t b o) (.mem [b.toNat, t.toNat] [] false) p ⟨.stS, accFeWrite, a, fun th => th.readS t.toNat, fun _ => 0, none, false, true⟩ ∧
    Accesses (.feClr p b o) (.mem [b.toNat] [] false) p ⟨.feClr, accFeTake, a, fun _ => 0, fun _ => 0, none, false, true⟩

/-- R202, R267, R268, R378: the reductions go to their agent, at most eight at a time, and TICKET, TICKET.BC and BQ.POP
send their claims; RFENCE goes on once no reduction is pending (R203). R201: the atomics take their word and wait at
themselves until the take is granted: operand s(X), and for CAS the new value s(X + 1); FN6 of each. Where it goes beyond
the manual's words it rests on the model's choices of logs 8, 10 and 25. -/
def Obligations.AtomicsAndClaimsIssue : Prop :=
  (∀ (p : Pred) (x y : Reg) (l : BitVec 4),
    let amo (op : Nat) : Access := ⟨.amo op, accFeWrite, fun th => th.readS y.toNat, fun th => th.readS x.toNat, fun _ => 0,
      some (x.toNat, l.toNat), true, true⟩
    let m := Meta.mem [x.toNat, y.toNat] [x.toNat] true
    Accesses (.amoAdd p x y l) m p (amo 0) ∧ Accesses (.amoAnd p x y l) m p (amo 1) ∧ Accesses (.amoOr p x y l) m p (amo 2) ∧
    Accesses (.amoXor p x y l) m p (amo 3) ∧ Accesses (.amoMinS64 p x y l) m p (amo 4) ∧ Accesses (.amoMaxS64 p x y l) m p (amo 5) ∧
    Accesses (.amoMinZ64 p x y l) m p (amo 6) ∧ Accesses (.amoMaxZ64 p x y l) m p (amo 7) ∧ Accesses (.amoSwap p x y l) m p (amo 8) ∧
    ∀ h : BitVec 4, let n := 2 * h.toNat
      Accesses (.amoCas p h y l) (.mem [n, n + 1, y.toNat] [n] true) p
        ⟨.amo 9, accFeWrite, fun th => th.readS y.toNat, fun th => th.readS n, fun th => th.readS (n + 1), some (n, l.toNat), true, true⟩) ∧
  ∀ (p : Pred) (x y : Reg) (l : BitVec 4),
    let red (op : Nat) : Access := ⟨.red op, accFeWrite, fun th => th.readS y.toNat, fun th => th.readS x.toNat, fun _ => 0, none, false, false⟩
    let m := Meta.mem [x.toNat, y.toNat] [] false
    let claim (k : ReqKind) (h : Bool) := Access.reads k accClaim (fun th => th.readS y.toNat) x.toNat l.toNat true h
    Accesses (.redAdd p x y) m p (red 0) ∧ Accesses (.redAnd p x y) m p (red 1) ∧ Accesses (.redOr p x y) m p (red 2) ∧
    Accesses (.redMinS64 p x y) m p (red 4) ∧ Accesses (.redMaxS64 p x y) m p (red 5) ∧ Accesses (.redMinZ64 p x y) m p (red 6) ∧
    Accesses (.redMaxZ64 p x y) m p (red 7) ∧
    Accesses (.ticket p x y l) (.mem [y.toNat] [x.toNat] true) p (claim (.ticket false) true) ∧
    Accesses (.ticketBc p x y l) (.mem [y.toNat] [x.toNat] true) p (claim (.ticket true) true) ∧
    Accesses (.bqPop p x y l) (.mem [y.toNat] [x.toNat] true) p (claim .bqPop false) ∧
    Runs (.rfence p) .plain p (fun _ th => th.pending = 0) (fun s _ => s) ∧
    Blocks (.rfence p) .plain p (fun _ th => th.pending ≠ 0) (fun _ _ => .work .reductions) (fun _ => BitVec.allOnes 64) fun s _ => s

/-- R149-R152: the vector loads open a window on their v destination and ask for the words of the enabled lanes, and with
no lane enabled the result has arrived already; the lowest lane that cannot be read traps, or waits for its translation.
The vector stores become one entry of the store queue, lane by lane, whatever the mask, unless a lane is misaligned, not
canonical or in the FABRIC window, of which the lowest traps; they wait while 16 entries are in use. Where it goes beyond
the manual's words it rests on the model's choices of logs 10 and 34. -/
def Obligations.VectorMemoryIssues : Prop :=
  ∀ (p : Pred) (d b sc k : Reg) (l : BitVec 4) (o : BitVec 6),
    let direct (th : Thread) (i : Nat) : Word := th.readS b.toNat + o.signExtend 64 * 128 + ofN (4 * i)
    let stride (th : Thread) (i : Nat) : Word := th.readS b.toNat + ofN i * th.readS sc.toNat
    let index (th : Thread) (i : Nat) : Word := th.readS b.toNat + 4 * (th.readLane k.toNat i).signExtend 64
    let lanes (at_ : Thread → Nat → Word) (th : Thread) : List (Nat × Word) :=
      ((List.range 32).filter fun i => (laneMask p th).getLsbD i).map fun i => (i, at_ th i)
    let loads (i : Instr) (vs rd : List Nat) (occ : Nat) (at_ : Thread → Nat → Word) : Prop :=
      let m := { Meta.vec (d.toNat :: vs) rd [] occ with window := true }
      Gated i m p ∧ Ends i m p (fun s y r => s.checkLanes y (lanes at_ y) = .error r) ∧
      ∀ s th, Ready m p s th → ∀ ls, (begun m s th).checkLanes (th.begin_ occ) (lanes at_ (th.begin_ occ)) = .ok ls →
        ∃ t z, exec i s = .next t ∧ t.thread? s.cur = some z ∧ t.mem = s.mem ∧ t.feFlips = s.feFlips ∧ OthersGoOn s t ∧
          z.pc = nextPc (th.begin_ occ).pc ∧ z.v = th.v ∧ z.s = th.s ∧
          z.outs = (th.begin_ occ).outs ++ [⟨s.serial, .v, d.toNat, l.toNat, 0, (th.begin_ occ).pc,
            if ls = [] then s.beat else s.beat + 2,
            if ls = [] then .lanes [] else .pending⟩] ∧
          (ls = [] → t.flights = s.flights) ∧
          (ls ≠ [] → ∃ f, t.flights = s.flights ++ [f] ∧ f.id = s.serial ∧ f.kind = .vload ls none ∧ f.thread = s.cur)
    let stores (i : Instr) (vs rd : List Nat) (occ : Nat) (at_ : Thread → Nat → Word) : Prop :=
      let m := Meta.vec (d.toNat :: vs) rd [] occ
      let off (x : Nat × Word) : Bool := x.2.toNat % 4 != 0 || !canonical x.2 || windowOf x.2 == .fabric
      let firstOff (y : Thread) := (lanes at_ y).find? off
      Gated i m p ∧
      (∀ x, Traps i m p (fun _ y => firstOff y = some x ∧ x.2.toNat % 4 ≠ 0) .align (fun _ => x.2) (fun _ => 1)) ∧
      (∀ x, Traps i m p (fun _ y => firstOff y = some x ∧ x.2.toNat % 4 = 0) .access (fun _ => x.2) (fun _ => 1)) ∧
      Waits i m p (fun _ y => firstOff y = none ∧ 16 ≤ y.storeQ.length) .room ∧
      ∀ s th, let y := th.begin_ occ
        let ls := lanes at_ y
        Ready m p s th → (∀ x ∈ ls, x.2.toNat % 4 = 0 ∧ canonical x.2 = true ∧ windowOf x.2 ≠ .fabric) → y.storeQ.length < 16 →
        ∃ t z, exec i s = .next t ∧ t.thread? s.cur = some z ∧ t.mem = s.mem ∧ t.feFlips = s.feFlips ∧ OthersGoOn s t ∧
          z.pc = nextPc y.pc ∧ z.v = th.v ∧ z.s = th.s ∧ z.outs = y.outs ∧
          z.storeQ = y.storeQ ++
            [⟨s.serial, ls.map fun x => (x.2, 4, (y.readLane d.toNat x.1).setWidth 64), true, y.pc, s.beat, none, none, false,
              ls.map fun x => (begun m s th).keyOf? s.cur y.ctx x.2⟩]
    loads (.vLd p d b l o) [] [b.toNat] 1 direct ∧ stores (.vSt p d b o) [] [b.toNat] 1 direct ∧
    loads (.vLds p d b l sc) [] [b.toNat, sc.toNat] 4 stride ∧ stores (.vSts p d b sc) [] [b.toNat, sc.toNat] 4 stride ∧
    loads (.vGather p d b l k) [k.toNat] [b.toNat] 4 index ∧ stores (.vScatter p d b k) [k.toNat] [b.toNat] 4 index

/-- R192: the order in which an address is judged: its window; the grant of a scratchpad, by LOCAL or CORE, of which the
model lets a privileged thread reach the whole of its own core's (log 7); a record in trap mode, by the forms that may,
one of another slot reading as zero (R205); the permission of the FABRIC window, which leads to the remote package; and
for a GLOBAL address its translation, its permission, and full/empty forms on host memory; a page without a translation is
missed, or has failed for this access. Where it goes beyond the manual's words it rests on the model's choices of logs 7,
25 and 45. -/
def Obligations.AddressChecks : Prop :=
  ∀ (s : State) (r : ThreadRef) (th : Thread) (va : Word) (a : Acc) (w : Waiter),
    let bad (c : Cause) := s.resolve r th va a w = .fault c a.info
    (windowOf va = .none → bad .access) ∧
    (∀ off, windowOf va = .record off → th.mode ≠ .trap ∨ a.record = false → bad .access) ∧
    (∀ off, windowOf va = .record off → th.mode = .trap → a.record = true →
      s.resolve r th va a w = if s.foreignRecord (recordKey r.core off) r.slot then .zero else .ok (recordKey r.core off) none) ∧
    (∀ off, windowOf va = .local_ off → s.grantAt? r.core off th.ctx = none →
      (th.privileged = false → bad .access) ∧ (th.privileged = true → s.resolve r th va a w = .ok (scratchKey r.core off) none)) ∧
    (∀ off g, windowOf va = .local_ off → s.grantAt? r.core off th.ctx = some g → s.resolve r th va a w = .ok (scratchKey r.core off) none) ∧
    (∀ c off, windowOf va = .core c off → s.physical? th.ctx c = none → bad .access) ∧
    (∀ c off n g, windowOf va = .core c off → s.physical? th.ctx c = some n → s.grantAt? n off th.ctx = some g →
      s.resolve r th va a w = .ok (scratchKey n off) none) ∧
    (∀ c off n, windowOf va = .core c off → s.physical? th.ctx c = some n → s.grantAt? n off th.ctx = none →
      (n ≠ r.core ∨ th.privileged = false → bad .access) ∧
      (n = r.core → th.privileged = true → s.resolve r th va a w = .ok (scratchKey n off) none)) ∧
    (∀ x, windowOf va = .fabric → a.fabric = true → s.fabWindow? th.ctx va (if a.fe then 3 else if a.wr then 2 else 1) = some x →
      s.resolve r th va a w = .remote x) ∧
    (windowOf va = .global → s.findEntry r.core th.ctx va.toNat = none →
      s.resolve r th va a w = match s.failedMiss r.core th.ctx va w with | some c => .fault c a.info | none => .miss) ∧
    (windowOf va = .fabric → a.fabric = false ∨ s.fabWindow? th.ctx va (if a.fe then 3 else if a.wr then 2 else 1) = none → bad .access) ∧
    ∀ e, windowOf va = .global → s.findEntry r.core th.ctx va.toNat = some e →
      (e.grants a.perm = false → bad .access) ∧
      (e.grants a.perm = true → e.tier = 2 → a.fe = true → bad .feUnsupported) ∧
      (e.grants a.perm = true → (e.tier ≠ 2 ∨ a.fe = false) → s.resolve r th va a w = .ok (e.keyOf va.toNat) (some e))

/-! ## Requests at the holder -/

/-- R195, R196: a request that reaches its holder is deferred while its word is held, queued while its condition does not
hold, and otherwise performed, a BQ.POP that has its turn going on to its ready word (R378); at a word of a saved band it
waits until the band resumes (R314); the events that bring it there act only on a request of their kind that is on its way
and that nothing older holds back (R247). Where it goes beyond the manual's words it rests on the model's choices of logs
9 and 22. -/
def Obligations.RequestArrivals : Prop :=
  ∀ (s : State) (f : Flight) (lane : Nat), s.flight? f.id = some f → f.stage = .sent →
    (s.blocked f = false →
      (f.kind.awaits = none → (∀ ls bad, f.kind ≠ .vload ls bad) → exec (.plainAccessArrival f.id lane) s = .next (s.arrive f)) ∧
      (f.kind.awaits ≠ none → f.kind.isRed = false → exec (.conditionalRequestArrival f.id) s = .next (s.arrive f)) ∧
      (f.kind.isRed = true → exec (.reductionPerform f.id) s = .next (s.arrive f))) ∧
    (∀ ls bad x, f.kind = .vload ls bad → ls.find? (fun y => y.1 == lane) = some x → s.held x.2.2.1 = false →
      s.grantSaved f.ctx x.2.2.1 = false → s.blocked { f with kind := .load 4 false, key := x.2.2.1 } = false →
      exec (.plainAccessArrival f.id lane) s = .next (s.readLaneOf f ls bad x)) ∧
    (s.grantSaved f.ctx f.key = false →
      (s.held f.key = true → (s.arrive f).flight? f.id = some { f with stage := .deferred }) ∧
      (s.held f.key = false → s.holdsFor f = false → s.waitersAt (holderOf f.key) < waiterEntries (holderOf f.key) →
        (∀ g ∈ s.flights, g.stage.spilled = false) →
        (s.arrive f).queue f.queueKey = s.queue f.queueKey ++ [f.id] ∧
        (s.arrive f).flight? f.id = some { f with stage := .queued none, seq := s.nextSeq f.queueKey } ∧
        (s.arrive f).mem = s.mem ∧ (s.arrive f).feFlips = s.feFlips) ∧
      (s.held f.key = false → s.holdsFor f = true →
        (f.kind ≠ .bqPop → s.arrive f = ((s.performAt f).serve f.key).kickClaims) ∧
        (f.kind = .bqPop → let u := (s.performAt f).serve f.key
          s.arrive f = (u.claimOn (u.flights.length + 1) (wordKey f.key)).kickClaims))) ∧
    (s.grantSaved f.ctx f.key = true →
      (f.kind.awaits = none → (s.arrive f).flight? f.id = some { f with stage := .parked none, seq := s.serial }) ∧
      ∀ c k, f.kind.awaits ≠ none → s.context? f.ctx = some c → s.parkFree? c = some k →
        (s.arrive f).flight? f.id = some { f with stage := .parked (some k), seq := s.serial })

/-- R193, R195, R198, R201, R202, R267: what performing a request does to its word and its bit, and what comes back: LD.W
leaves the word full, LD.T leaves it empty, ST.F and ST.S write it full, FE.CLR empties it, FE.PROBE and a load read it; a
reduction and a ticket compute in place, and an atomic is granted its word and holds it. A load, LD.W, LD.T, FE.PROBE and
a ticket bring back what the word or bit was; the number of TICKET.BC, as it is written to its register, becomes tkt.last
on every core of the cluster whose slots its context holds, and on no other (R268). A BQ.POP reads NEXT and COUNT: past
COUNT it brings all-ones, a block queue that would cross its 64 KiB page raises ACCESS, and otherwise it goes on to its
ready word; full, that ends it: NEXT is one higher, and the value before comes back (R378). The word's frame, if it is
encrypted, is under the key it was written under (R336). Every byte outside the word reads as before, and so does the bit
of every other word. Where it goes beyond the manual's words it rests on the model's choices of logs 37 and 47. -/
def Obligations.HolderPerforms : Prop :=
  ∀ (s : State) (f : Flight), s.eccAt f.key = false → s.eccSoft = [] →
    Clear s f.cipher (wordKey f.key) 8 → f.orphan = false → f.detached = none →
    f.home = false → s.foreignRecord f.key f.thread.slot = false →
    let w := wordKey f.key
    let t := s.performAt f
    let old := s.readMem w 8
    let keeps := t.mem = s.mem ∧ t.feFlips = s.feFlips
    let writes (x : Nat) := t.readMem w 8 = x % 2 ^ 64 ∧ ∀ a, a < w ∨ w + 8 ≤ a → t.readByte a = s.readByte a
    let others := ∀ k, wordKey k ≠ w → t.full k = s.full k
    let brings (v : OutValue) := ∀ th, s.thread? f.thread = some th →
      (t.thread? f.thread).map Thread.outs = some (modFirst (fun o => o.id == f.id) (fun o => { o with value := v }) th.outs)
    (∀ n sg, f.kind = .load n sg → keeps ∧ t = (s.deliver f (.word (extend n sg (s.loadBytes f f.key n)))).dropFlight f.id) ∧
    (f.kind = .ldW → keeps ∧ t = (s.deliver f (.word (ofN old))).dropFlight f.id) ∧
    (f.kind = .feProbe → keeps ∧ t = (s.deliver f (.word (if s.full w then 1 else 0))).dropFlight f.id) ∧
    (f.kind = .ldT → t.mem = s.mem ∧ t.full w = false ∧ others ∧ brings (.word (ofN old))) ∧
    (f.kind = .feClr → t.mem = s.mem ∧ t.full w = false ∧ others) ∧
    (f.kind = .stF → writes f.data.toNat ∧ t.full w = true ∧ others) ∧
    (f.kind = .stS → writes f.data.toNat ∧ t.full w = true ∧ others) ∧
    (∀ bc, f.kind = .ticket bc → writes (old + 1) ∧ t.feFlips = s.feFlips ∧
      brings (if bc then .bcast (ofN old) s.serial else .word (ofN old))) ∧
    (f.kind = .bqPop → f.data2 = 0 →
      let next := s.readMem w 4
      let count := s.readMem (w + 4) 4
      keeps ∧
      (2 ^ 16 < w % 2 ^ 16 + 8 + 8 * count → t = (s.deliver f (.fault .access f.va 3)).dropFlight f.id) ∧
      (w % 2 ^ 16 + 8 + 8 * count ≤ 2 ^ 16 →
        (count ≤ next → t = (s.deliver f (.word (BitVec.allOnes 64))).dropFlight f.id) ∧
        (next < count → t = s.modFlight f.id fun x => { x with data := ofN w, data2 := 1, key := w + 8 + 8 * next, stage := .sent }))) ∧
    (f.kind = .bqPop → f.data2 = 1 → f.data.toNat % 8 = 0 → Clear s f.cipher f.data.toNat 4 →
      let q := f.data.toNat
      t.readMem q 4 = (s.readMem q 4 + 1) % 2 ^ 32 ∧ (∀ a, a < q ∨ q + 4 ≤ a → t.readByte a = s.readByte a) ∧ t.feFlips = s.feFlips ∧
      brings (.word (ofN (s.readMem q 4)))) ∧
    (∀ r th o v n, s.thread? r = some th → th.outs.find? (fun x => x.id == o.id) = some o → o.value = .bcast v n → o.due ≤ s.beat →
      (o.reg = 31 → th.outEn = false) → s.bcastTurn r.core n = true →
      ∃ u, exec (.resultWrite r o.id) s = .next u ∧ u.thread? r = some ((th.writeS o.reg v s.beat).written o.id) ∧ u.mem = s.mem ∧
        ∀ k, (u.core k).tktLast = if k / 64 = clusterOf r.core ∧ s.heldBy k th.ctx = true then v else (s.core k).tktLast) ∧
    (∀ op, f.kind = .red op → writes (amoOp op (ofN old) f.data 0).toNat ∧ t.feFlips = s.feFlips) ∧
    (∀ op, f.kind = .amo op → keeps ∧ t.held w = true ∧ t.holds = s.holds ++ [⟨w, f.id, []⟩])

/-- R196, R198, R201, R285, R387: an atomic's grant computes the new value and sends the fill, which writes the word full
and ends the hold; a budget that is spent withdraws the request, and a withdrawal takes it out of its queue; a refused
request reaches the holder again. A withdrawn LD.W or LD.T has faulted, and its thread traps in its next cycle (R25); a
thread that waits at its ST.F or atomic traps there. Where it goes beyond the manual's words it rests on the model's
choices of logs 22 and 64. -/
def Obligations.RequestEvents : Prop :=
  ∀ (s : State) (f : Flight), s.flight? f.id = some f →
    (∀ op old, f.kind = .amo op → f.stage = .granted old → exec (.atomicTakeGrant f.id) s =
      .next (((s.modFlight f.id fun x => { x with stage := .filling (amoOp op old f.data f.data2) }).deliver f (.word old)).resume f.thread f.id)) ∧
    (∀ new, f.stage = .filling new → exec (.atomicFillArrival f.id) s = .next (s.fillAtomic f new)) ∧
    (f.stage = .refused → exec (.parkResend f.id) s = .next (s.arrive { f with stage := .sent })) ∧
    (f.kind.awaits ≠ none → (f.stage = .sent ∨ (∃ k, f.stage = .queued k) ∨ f.stage = .refused ∨ f.stage = .deferred) →
      f.withdrawal = false → f.budget ≠ BitVec.allOnes 64 → f.issuedAt + f.budget.toNat < s.beat →
      ∃ t, exec (.withdrawal f.id) s = .next t ∧ t.flight? f.id = some { f with withdrawal := true } ∧ t.mem = s.mem) ∧
    (f.withdrawal = true → f.stage = .refused →
      ∃ t, exec (.withdrawalArrival f.id) s = .next t ∧ t.flight? f.id = some { f with stage := .withdrawn } ∧ t.mem = s.mem) ∧
    (f.withdrawal = true → f.stage = .queued none → (∀ g ∈ s.flights, g.kind ≠ .bqPop ∧ ∀ k, g.stage ≠ .queued (some k)) →
      ∃ t, exec (.withdrawalArrival f.id) s = .next t ∧ t.flight? f.id = some { f with stage := .withdrawn } ∧ t.mem = s.mem ∧
        t.queue f.queueKey = (s.queue f.queueKey).erase f.id) ∧
    (f.stage = .withdrawn → f.orphan = true → exec (.feTimeout f.id) s = .next (s.dropFlight f.id)) ∧
    (f.stage = .withdrawn → f.orphan = false → f.detached = none → f.home = false →
      (∀ th o, f.kind = .ldW ∨ f.kind = .ldT → s.thread? f.thread = some th → th.outs = [o] → o.id = f.id →
        ∃ t, exec (.feTimeout f.id) s = .next t ∧
          t.thread? f.thread = some { th with outs := [{ o with value := .fault .feTimeout f.va 0 }] } ∧
          t.flights = (s.dropFlight f.id).flights ∧ t.mem = s.mem ∧ t.feFlips = s.feFlips) ∧
      (∀ th, f.kind = .stF ∨ (∃ op, f.kind = .amo op) → s.thread? f.thread = some th → th.mode ≠ .trap →
        (∀ o ∈ th.outs, o.id = f.id) →
        ∃ t x, exec (.feTimeout f.id) s = .next t ∧ t.thread? f.thread = some x ∧ x.mode = .trap ∧ x.trapCause = 5 ∧
          x.trapAddr = f.va ∧ x.trapPc = f.pc ∧ x.pc = pcOf (th.trapVec + 320) ∧ x.s = th.s ∧ t.flights = (s.dropFlight f.id).flights) ∧
      (∀ op u, f.kind = .red op → (∀ th, s.thread? f.thread = some th → th.halted = false) → s.writeRecord f.thread.core f.thread.slot 5 1 false 3 f.pc f.va f.data = some u →
        ∃ t, exec (.feTimeout f.id) s = .next t ∧ t.mem = u.mem ∧ t.feFlips = u.feFlips ∧ t.flights = (u.dropFlight f.id).flights))

/-! ## Copies, fences and barriers -/

/-- R210, R211, R257: CBATCH numbers the thread's copies that no batch holds and writes the number; CWAIT goes on once the
copies of the batches it names are over; XFENCE goes on once the thread's older accesses are performed or recorded, and
FENCE.S once its loads have their results, in this rotation at the latest (R275), and its stores, fills and barrier
arrivals are performed or recorded, remote ones too (R368), with FAB its reductions by the fabric and with SYS its host
writes too; they wait until then. R208, R386: CP checks the alignment of destination, source and length in that order,
then the two ranges, and joins the copy unit's 16 as the youngest copy; a copy of no bytes is over at once. No word has
moved yet. Where it goes beyond the manual's words it rests on the model's choices of logs 8, 9 and 16. -/
def Obligations.Copies : Prop :=
  (∀ (p : Pred) (d a b : Reg),
    let cp (mode : Nat) (i : Instr) : Prop :=
      let m := Meta.scalar [d.toNat, a.toNat, b.toNat] []
      let dst (y : Thread) := y.readS d.toNat
      let src (y : Thread) := y.readS a.toNat
      let n (y : Thread) := (y.readS b.toNat).toNat
      let role : Word := if mode = 0 then 0 else 2
      let taken : Word := if mode = 4 then 1 else 0
      let aligned (y : Thread) := (dst y).toNat % 8 = 0 ∧ (src y).toNat % 8 = 0 ∧ n y % 8 = 0
      Traps i m p (fun _ y => (dst y).toNat % 8 ≠ 0) .align dst (fun _ => 5 + role) ∧
      Traps i m p (fun _ y => (dst y).toNat % 8 = 0 ∧ (src y).toNat % 8 ≠ 0) .align src (fun _ => 4 + taken + role) ∧
      Traps i m p (fun _ y => (dst y).toNat % 8 = 0 ∧ (src y).toNat % 8 = 0 ∧ n y % 8 ≠ 0) .align (fun y => y.readS b.toNat)
        (fun _ => 4) ∧
      (∀ x, Traps i m p (fun s y => aligned y ∧ n y ≠ 0 ∧ s.rangeBad s.cur y (dst y) (n y) = some x) .access (fun _ => x)
        (fun _ => 5 + role)) ∧
      (∀ x, Traps i m p (fun s y => aligned y ∧ n y ≠ 0 ∧ s.rangeBad s.cur y (dst y) (n y) = none ∧
        s.rangeBad s.cur y (src y) (n y) = some x) .access (fun _ => x) (fun _ => 4 + taken + role)) ∧
      let inRange (s : State) (y : Thread) := n y = 0 ∨ s.rangeBad s.cur y (dst y) (n y) = none ∧ s.rangeBad s.cur y (src y) (n y) = none
      Waits i m p (fun s y => aligned y ∧ inRange s y ∧ 16 ≤ (s.core s.cur.core).copies.length) .room ∧
      Gives i m p (fun s y => aligned y ∧ inRange s y ∧ (s.core s.cur.core).copies.length < 16)
        fun s y t z => MemoryKept s t ∧ z.pc = nextPc y.pc ∧ z.s = y.s ∧ OthersGoOn s t ∧
          (t.core s.cur.core).copies = (s.core s.cur.core).copies ++ (if n y = 0 then [] else
            [⟨s.serial, s.cur.slot, y.ctx, mode, dst y, src y, n y, 0, y.pc, none, none, y.scopeD, y.bandRef, false, y.privileged⟩])
    cp 0 (.cpPlain p d a b) ∧ cp 1 (.cpCopy p d a b) ∧ cp 2 (.cpFill p d a b) ∧ cp 3 (.cpNeed p d a b) ∧ cp 4 (.cpTake p d a b)) ∧
  (∀ p d, Runs (.cbatch p d) (.scalar [] [d.toNat]) p (fun _ _ => True) fun s y =>
    (s.modCore s.cur.core fun c => { c with copies := c.copies.map fun x =>
      if x.slot = s.cur.slot ∧ x.ended = false ∧ x.batch = none then { x with batch := some (y.copyBatch + 1) } else x }).modThread s.cur
        fun x => { x with copyBatch := y.copyBatch + 1 }.writeS d.toNat (ofN (y.copyBatch + 1)) s.beat) ∧
  (∀ p a,
    let isOver (s : State) (y : Thread) : Prop := ∀ x ∈ (s.core s.cur.core).copies, x.slot = s.cur.slot → x.ended = false →
      ∀ n, x.batch = some n → min (y.readS a.toNat).toNat y.copyBatch < n
    Runs (.cwait p a) (.scalar [a.toNat] []) p isOver (fun s _ => s) ∧
      Blocks (.cwait p a) (.scalar [a.toNat] []) p (fun s y => ¬isOver s y)
        (fun _ y => .work (.copies (min (y.readS a.toNat).toNat y.copyBatch))) (fun _ => BitVec.allOnes 64) fun s _ => s) ∧
  (∀ p,
    let isOver (s : State) (_ : Thread) : Prop := s.allPerformed s.cur s.serial true = true
    Runs (.xfence p) .plain p isOver (fun s _ => s) ∧
      Blocks (.xfence p) .plain p (fun s y => ¬isOver s y) (fun _ _ => .work .accesses) (fun _ => BitVec.allOnes 64) fun s _ => s) ∧
  ∀ p a,
    let m := Meta.scalar [a.toNat] []
    let sys (y : Thread) : Bool := (y.readS a.toNat).getLsbD 32
    let fab (y : Thread) : Bool := (y.readS a.toNat).getLsbD 33
    let isOver (s : State) (y : Thread) : Prop := (∀ o ∈ y.outs, s.resultOver s.cur y o = true) ∧ y.storeQ = [] ∧
      (∀ f ∈ s.flights, f.of s.cur = true → s.loadEnds s.cur f = true ∨
        f.kind.isRed = true ∧ (fab y = true → windowOf f.va ≠ .fabric)) ∧
      (∀ r ∈ s.fabReqs, r.thread = some s.cur → r.xfer ≠ none ∨ fab y = false ∧ r.store = none) ∧
      (∀ b ∈ s.barMsgs, b.cfg = none → b.thread ≠ s.cur) ∧ (sys y = true → ∀ h ∈ s.hostWrites, h.2 ≠ s.cur)
    Runs (.fenceS p a) m p (fun s y => scopeOk (y.readS a.toNat) = true ∧ isOver s y) (fun s _ => s) ∧
    Blocks (.fenceS p a) m p (fun s y => scopeOk (y.readS a.toNat) = true ∧ ¬isOver s y)
      (fun _ y => .work (.fenceS (sys y) (fab y))) (fun _ => BitVec.allOnes 64) (fun s _ => s) ∧
    Traps (.fenceS p a) m p (fun _ y => scopeOk (y.readS a.toNat) = false) .access (fun _ => 0) (fun _ => 0)

/-- R259-R263: BAR.CFG and BAR.ARRIVE send a message to the barrier unit, an arrival closing every window; BAR.WAIT goes
on when its generation has completed and waits for it otherwise; BAR.SYNC arrives and waits. A barrier the band does not
have raises ACCESS, as does a count outside 1 to 512. Where it goes beyond the manual's words it rests on the model's
choices of log 19. -/
def Obligations.Barriers : Prop :=
  ∀ (p : Pred) (a : Reg) (k : BitVec 4),
    let m := { Meta.plain with notMast := true }
    let ma := { Meta.scalar [a.toNat] [] with notMast := true }
    let absent (s : State) (y : Thread) : Prop := s.barrier? y.bandRef k.toNat = none
    let v (y : Thread) := (y.readS a.toNat).toNat
    let sends (cfg : Thread → Option Nat) (s : State) (y : Thread) (t : State) : Prop :=
      ∃ x, t.barMsgs = s.barMsgs ++ [x] ∧ x.thread = s.cur ∧ x.band = y.bandRef ∧ x.n = k.toNat ∧ x.cfg = cfg y ∧ x.tib = y.tib ∧
        x.sentAt = s.beat ∧ x.id = s.serial
    Traps (.barCfg p a k) ma p (fun s y => absent s y ∨ v y = 0 ∨ 512 < v y) .access (fun _ => 0) (fun _ => 0) ∧
    Gives (.barCfg p a k) ma p (fun s y => ¬absent s y ∧ 1 ≤ v y ∧ v y ≤ 512)
      (fun s y t z => sends (fun y => some (v y)) s y t ∧ MemoryKept s t ∧ z.pc = nextPc y.pc ∧ z.outs = y.outs ∧ OthersGoOn s t) ∧
    Traps (.barArrive p k) m p absent .access (fun _ => 0) (fun _ => 0) ∧
    Gives (.barArrive p k) m p (fun s y => ¬absent s y ∧ y.settled = true)
      (fun s y t z => sends (fun _ => none) s y t ∧ MemoryKept s t ∧ z.pc = nextPc y.pc ∧ z.outs = [] ∧ z.s = y.s ∧ OthersGoOn s t) ∧
    Waits (.barArrive p k) m p (fun s y => ¬absent s y ∧ y.settled = false) .windows ∧
    Traps (.barWait p k) m p absent .access (fun _ => 0) (fun _ => 0) ∧
    Gives (.barWait p k) m p (fun s y => s.arriving s.cur k.toNat = false ∧
        ∃ b, s.barrier? y.bandRef k.toNat = some b ∧ genDone b.g (b.target y.tib) = true)
      (fun s y t z => MemoryKept s t ∧ z.pc = nextPc y.pc ∧ z.wait = none ∧ z.s = y.s ∧ y.notBefore ≤ z.notBefore) ∧
    (∀ s th b, Ready m p s th → (begun m s th).barrier? th.bandRef k.toNat = some b → (begun m s th).arriving s.cur k.toNat = false →
      genDone b.g (b.target th.tib) = false →
      ∃ t z, exec (.barWait p k) s = .next t ∧ t.thread? s.cur = some z ∧
        z.wait = some ⟨.bar k.toNat (b.target th.tib), s.beat, th.barBudget⟩ ∧ z.pc = (th.begin_ 1).pc ∧ MemoryKept s t) ∧
    Traps (.barSync p k) m p absent .access (fun _ => 0) (fun _ => 0) ∧
    Gives (.barSync p k) m p (fun s y => s.arriving s.cur k.toNat = false ∧ y.settled = true ∧
        ∃ b, s.barrier? y.bandRef k.toNat = some b ∧ ∀ g, b.pending? y.tib = some g → genDone b.g g = true)
      fun s y t z => sends (fun _ => none) s y t ∧ MemoryKept s t ∧ z.pc = y.pc ∧ z.outs = [] ∧
        z.wait = some ⟨.barSync k.toNat, s.beat, y.barBudget⟩

/-- R260, R261, R264, R271: a message reaches the barrier unit no earlier than its distance after it was sent, after every
access it follows. A new count takes effect at once where nobody has arrived, and otherwise with the next generation. An
arrival counts, remembers the generation as the thread's pending one, and with the count full completes the generation:
the next one starts with no arrival and with the new count. A pennant that was held for want of a free record is written
later. The host acknowledges a device write (R257), and a barrier wait whose budget is spent traps (R262). R269, R270: the
checksum of a pennant is the reflected CRC-64 of ECMA-182: bits low first, all ones to begin with, inverted at the end; it
takes the bytes of the captures in order, and a capture is the thread's number, s1 to s31 and f0 to f11, little-endian.
Where it goes beyond the manual's words it rests on the model's choices of logs 9, 12 and 19. -/
def Obligations.BarrierEvents : Prop :=
  (crc64 [0x31, 0x32, 0x33, 0x34, 0x35, 0x36, 0x37, 0x38, 0x39] = 0x995DC9BBDF1939FA#64 ∧ crc64 [] = 0 ∧
  (∀ (bs cs : List Byte), crc64 (bs ++ cs) = ~~~(cs.foldl crc64Byte (~~~(crc64 bs)))) ∧
  (∀ (c : Word) (b : Byte), crc64Byte c b = (crc64Byte (c ^^^ b.setWidth 64) 0)) ∧
  (∀ c d : Word, crc64Byte (c ^^^ d) 0 = crc64Byte c 0 ^^^ crc64Byte d 0) ∧
  ∀ th : Thread, th.inEn = false → th.outEn = false →
    th.capture.length = 304 ∧ ofLeBytes (th.capture.take 8) = th.tib % 2 ^ 64 ∧
    (∀ r, 1 ≤ r → r < 32 → ofLeBytes ((th.capture.drop (8 * r)).take 8) = ((th.s[r]?).getD 0).toNat) ∧
    ∀ r, r < 12 → ofLeBytes ((th.capture.drop (256 + 4 * r)).take 4) = (th.readF r).toNat) ∧
  (∀ (s : State) (x : BarMsg), (s.barMsgs.find? fun y => y.id == x.id) = some x → s.barDue x = true →
    (∀ v b, x.cfg = some v → s.barrier? x.band x.n = some b →
      ∃ t, exec (.barCfgArrival x.id) s = .next t ∧ t.barMsgs = (s.dropBar x.id).barMsgs ∧ MemoryKept s t ∧
        t.barrier? x.band x.n = some (if b.a = 0 then { b with c := v, c' := none } else { b with c' := some v })) ∧
    (∀ b, x.cfg = none → s.barrier? x.band x.n = some b → b.a + 1 ≠ b.c →
      ∃ t, exec (.barrierArrival x.id) s = .next t ∧ t.barMsgs = (s.dropBar x.id).barMsgs ∧ MemoryKept s t ∧
        ∃ y, t.barrier? x.band x.n = some y ∧ y.a = b.a + 1 ∧ y.g = b.g ∧ y.c = b.c ∧ y.pending? x.tib = some b.g) ∧
    (∀ b, x.cfg = none → s.barrier? x.band x.n = some b → b.a + 1 = b.c → x.capture = [] → b.captures = [] →
      exec (.barrierArrival x.id) s = .next ((((s.dropBar x.id).modBarrier x.band x.n (Barrier.arrival x)).modBarrier x.band x.n
        fun y => y.complete s.beat).wakeWaiters x.band x.n))) ∧
  (∀ (b : Barrier) (r : Nat), (b.complete r).g = (b.g + 1) % 2 ^ 32 ∧ (b.complete r).a = 0 ∧ (b.complete r).c = b.c'.getD b.c ∧
    (b.complete r).c' = none ∧ lookup? (b.complete r).doneAt b.g = some r ∧ (b.complete r).pend = b.pend) ∧
  (∀ (s : State) (cl i : Nat) (b : Barrier), (s.cluster cl).barriers[i]? = some b → b.heldPennant = true →
    exec (.pennantRecordWrite cl i) s = .next (s.tryComplete b.band b.n)) ∧
  (∀ (s : State) (id : Nat), ∃ t, exec (.hostWriteAck id) s = .next t ∧ t = { s with hostWrites := t.hostWrites } ∧
    ((s.hostWrites.map Prod.fst).Nodup → ∀ h, h ∈ t.hostWrites ↔ h ∈ s.hostWrites ∧ h.1 ≠ id)) ∧
  ∀ (s : State) (r : ThreadRef) (th : Thread) (w : Wait) (n g : Nat), s.thread? r = some th → th.wait = some w →
    (w.kind = .bar n g ∨ w.kind = .barSync n) → w.budget ≠ BitVec.allOnes 64 → w.since + w.budget.toNat < s.beat →
    exec (.barTimeout r) s = .next (s.raise r .barTimeout 0 (ofN n) th.pc)

/-! ## Channels, squads, ports and mailboxes -/

/-- R165-R167: PUB opens the core's channel for its thread, its away counts as they are (R172), waits while another
publication is there, and raises SUB_RANGE in trap mode or for a publisher; ENDPUB closes it, in a trap handler ends it
for its members, who will leave at trap.pc, takes a member out of its squad, and has no effect for others; SUB subscribes
to what was published from rotation t + 1 - d on, waits for a publisher, and raises SUB_RANGE out of reach. Where it goes
beyond the manual's words it rests on the model's choices of logs 20 and 27. -/
def Obligations.Publishing : Prop :=
  ∀ (i : BitVec 10) (a : Reg),
    let c (y : Thread) := (y.readS a.toNat).toNat
    let may (y : Thread) : Prop := y.handler = none ∧ y.sq ≠ .publishing ∧ y.mode ≠ .trap
    let named (s : State) (y : Thread) (n : Nat) : Prop :=
      may y ∧ y.member = false ∧ c y < 24576 ∧ s.physical? y.ctx (c y) = some n
    Gives (.pub i) (.stream []) .always (fun s y => may y ∧ (s.core s.cur.core).pub = none ∧
        ∀ q x k, s.thread? q = some x → x.wait.map Wait.kind ≠ some (.sub k))
      (fun s y t z => MemoryKept s t ∧ OthersGoOn s t ∧
        z.sq = .publishing ∧ z.sqDepth = i.toNat ∧ z.sqRdv = 0 ∧ z.sqCh = s.idCore y.ctx s.cur.core ∧ z.pc = nextPc y.pc ∧ z.s = y.s ∧
        (t.core s.cur.core).pub = some ⟨s.serial, s.cur.slot, i.toNat, y.ctx, [], [], [], false, none⟩ ∧
        (y.sq ≠ .away → (t.core s.cur.core).away = (s.core s.cur.core).away)) ∧
    (∀ s th, Ready (.stream []) .always s th → th.handler ≠ none →
      exec (.pub i) s = .next ((s.forgetFailures s.cur).raise s.cur .mxRange 0 (ofN s.ir.toNat) th.ipc)) ∧
    (∀ s th, Ready (.stream [a.toNat]) .always s th → th.handler ≠ none →
      exec (.subscribe a) s = .next ((s.forgetFailures s.cur).raise s.cur .mxRange 0 (ofN s.ir.toNat) th.ipc)) ∧
    Waits (.subscribe a) (.stream [a.toNat]) .always (fun s y => y.settled = false ∧ ∃ n, named s y n) .windows ∧
    Blocks (.pub i) (.stream []) .always (fun s y => may y ∧ (s.core s.cur.core).pub ≠ none) (fun _ _ => .pub i.toNat) (·.chBudget)
      (fun s _ => s) ∧
    (∀ s th, Ready (.stream []) .always s th → th.handler = none → th.sq = .publishing ∨ th.mode = .trap →
      exec (.pub i) s = .next ((s.forgetFailures s.cur).raise s.cur .subRange 0 (ofN (s.idCore th.ctx s.cur.core)) th.ipc)) ∧
    Gives .endpub .plain .always (fun _ y => y.sq = .publishing ∧ y.mode ≠ .trap)
      (fun s y t z => MemoryKept s t ∧ OthersGoOn s t ∧ z = { y with sq := .fetching, sqDepth := 0, sqRdv := 0, pc := nextPc y.pc } ∧
        (t.core s.cur.core).pub = none) ∧
    Gives .endpub .plain .always (fun s y => y.sq = .publishing ∧ y.mode = .trap ∧
        ∀ b, (s.core s.cur.core).pub = some b → s.cur ∉ b.members)
      (fun s y t z => MemoryKept s t ∧ z = { y with sq := .fetching, sqDepth := 0, sqRdv := 0, pc := nextPc y.pc } ∧
        (t.core s.cur.core).pub = none ∧
        ∀ b, (s.core s.cur.core).pub = some b →
          (∀ q ∈ b.members, t.thread? q = (s.thread? q).map fun x => { x with endAt := some (pcOf y.trapPc) }) ∧
          ∀ q, q ≠ s.cur → q ∉ b.members → t.thread? q = s.thread? q) ∧
    Gives .endpub .plain .always (fun _ y => y.member = true)
      (fun s y t z => MemoryKept s t ∧ z.sq = .fetching ∧ z.sqRdv = 0 ∧ z.sqLeftpc = y.pc ∧ z.pc = nextPc y.pc ∧ z.s = y.s) ∧
    Runs .endpub .plain .always (fun _ y => y.sq ≠ .publishing ∧ y.member = false) (fun s _ => s) ∧
    Gives (.subscribe a) (.stream [a.toNat]) .always (fun s y => y.settled = true ∧ ∃ n b, named s y n ∧
        (s.core n).pub = some b ∧ reachOk n b s.cur.core y.ctx = true)
      (fun s y t z => MemoryKept s t ∧ z.sq = .subscribed ∧ z.sqCh = c y ∧ z.sqRdv = 0 ∧ z.pc = nextPc y.pc ∧ z.s = y.s ∧ z.outs = [] ∧ z.endAt = none ∧
        ∀ n b, s.physical? y.ctx (c y) = some n → (s.core n).pub = some b → z.sqDepth = b.depth ∧ z.publication = b.serial ∧
          (∀ e, e ∈ z.subBuf ↔ e ∈ b.recent ∧ s.beat + 1 ≤ e.rot + b.depth) ∧
          (t.core n).pub = some { b with members := b.members ++ [s.cur] }) ∧
    Blocks (.subscribe a) (.stream [a.toNat]) .always (fun s y => y.settled = true ∧ ∃ n, named s y n ∧
        (s.core n).pub = none) (fun _ y => .sub (c y)) (·.chBudget) (fun s _ => s) ∧
    Traps (.subscribe a) (.stream [a.toNat]) .always (fun s y => y.handler = none ∧ (24576 ≤ c y ∨ y.sq = .publishing ∨ y.member = true ∨
        y.mode = .trap ∨ s.physical? y.ctx (c y) = none ∨ (y.settled = true ∧ ∃ n b, s.physical? y.ctx (c y) = some n ∧
          (s.core n).pub = some b ∧ reachOk n b s.cur.core y.ctx = false))) .subRange (fun _ => 0)
      (fun y => ofN (c y % 2 ^ 15))

/-- R168-R172: LEAVE takes a member whose flag is set out of its squad, away under the id, and sends it to its own
address; JOIN, under the id the thread is away under, waits for the rendezvous of its publication, and JOIN 0 in the
rotation in which an RDV 0 or a CH.SYNC has completed is released at once (R274); RDV and CH.SYNC make a publisher wait
for the members of that moment, and have no effect for others. Where it goes beyond the manual's words it rests on the
model's choices of log 27. -/
def Obligations.Rendezvous : Prop :=
  ∀ (g : BitVec 4) (k : BitVec 5) (i : BitVec 10),
    let leaves (y : Thread) : Prop := y.member = true ∧ (y.readF g.toNat).getLsbD 0 = true
    let joins (s : State) (y : Thread) (b : Publication) : Prop := y.sq = .away ∧ y.sqRdv = k.toNat ∧ b.serial = y.publication ∧
      ∃ n, s.physical? y.ctx y.sqCh = some n ∧ (s.core n).pub = some b
    let openAt (s : State) (y : Thread) : Option Publication := (s.physical? y.ctx y.sqCh).bind fun n => (s.core n).pub
    let saved (s : State) (y : Thread) : Prop := y.sq = .away ∧ y.sqRdv = k.toNat ∧ openAt s y = none ∧
      s.savedPublication y.publication = true
    let rdv (i : Instr) (kind : WaitKind) : Prop :=
      Gives i .plain .always (fun s y => y.sq = .publishing ∧ y.mode = .run ∧ (s.core s.cur.core).pub ≠ none)
        (fun s y t z => MemoryKept s t ∧ OthersGoOn s t ∧ z = { y with wait := some ⟨kind, s.beat, y.chBudget⟩ } ∧
          ∀ b, (s.core s.cur.core).pub = some b → (t.core s.cur.core).pub = some { b with syncSet := b.members }) ∧
      Runs i .plain .always (fun _ y => y.sq ≠ .publishing ∨ y.mode ≠ .run) (fun s _ => s)
    Gives (.leave g k i) .plain .always (fun _ y => leaves y)
      (fun s y t z => MemoryKept s t ∧ z = { y with sq := .away, sqRdv := k.toNat, sqLeftpc := y.pc, subBuf := [], subDue := 0, endAt := none,
                                                     pc := pcOf (y.pc + 4 * i.signExtend 64) } ∧
        (∀ n, s.physical? y.ctx y.sqCh = some n →
          (∀ b, (s.core n).pub = some b → (t.core n).pub = some { b with members := b.members.filter (· != s.cur) }) ∧
          (k = 0 ∨ s.heldBy n y.ctx = false → (t.core n).away = (s.core n).away) ∧
          (k ≠ 0 → s.heldBy n y.ctx = true →
            (t.core n).away = (s.core n).away.setIfInBounds k.toNat (((s.core n).away[k.toNat]?).getD 0 + 1)))) ∧
    Runs (.leave g k i) .plain .always (fun _ y => ¬leaves y) (fun s _ => s) ∧
    Gives (.join k) { Meta.plain with quiet := true } .always (fun s y => y.settled = true ∧ ∃ b, joins s y b ∧ k = 0 ∧ b.syncAt = some s.beat)
      (fun s y t z => MemoryKept s t ∧ z.sq = .subscribed ∧ z.sqRdv = 0 ∧ z.subBuf = [] ∧ z.outs = [] ∧ z.wait = none ∧ z.s = y.s ∧
        z.pc = nextPc y.pc) ∧
    Gives (.join k) { Meta.plain with quiet := true } .always (fun s y => y.settled = true ∧
        ∃ b, joins s y b ∧ ¬(k = 0 ∧ b.syncAt = some s.beat))
      (fun s y t z => MemoryKept s t ∧ z = { y with outs := [], wait := some ⟨.join k.toNat, s.beat, y.chBudget⟩ } ∧
        ∀ n, s.physical? y.ctx y.sqCh = some n →
          (t.core n).away = if k = 0 ∨ s.heldBy n y.ctx = false then (s.core n).away else
            (s.core n).away.setIfInBounds k.toNat (((s.core n).away[k.toNat]?).getD 0 - 1)) ∧
    Traps (.join k) { Meta.plain with quiet := true } .always (fun s y => y.sq ≠ .away ∨ y.sqRdv ≠ k.toNat ∨
        (openAt s y = none ∧ s.savedPublication y.publication = false) ∨
        ∃ b, openAt s y = some b ∧ b.serial ≠ y.publication) .subRange (fun _ => 0) (fun y => ofN y.sqCh) ∧
    Waits (.join k) { Meta.plain with quiet := true } .always (fun s y => y.settled = false ∧
      ((∃ b, joins s y b) ∨ saved s y)) .windows ∧
    Blocks (.join k) { Meta.plain with quiet := true } .always (fun s y => y.settled = true ∧ saved s y)
      (fun _ _ => .join k.toNat) (·.chBudget) (fun s _ => s.modThread s.cur fun x => { x with outs := [] }) ∧
    rdv (.rdv k) (.rdv k.toNat) ∧ rdv .chSync .chSync

/-- R173, R181, R184, R185: SQKILL waits from its cut-off, one distance on, until every party has halted; BTAG compares
the tag of the next waiting word, without taking it unless its register is s30, and transfers when they are equal; SEND
reserves room in a mailbox ring for its words, which the mailbox unit writes later, and waits at a full ring with the
header it has read. Where it goes beyond the manual's words it rests on the model's choices of logs 21 and 35. -/
def Obligations.SquadsPortsMailboxes : Prop :=
  ∀ (p : Pred) (a b : Reg) (i : BitVec 15),
    let named (s : State) (y : Thread) := s.coreNamed? y.ctx ((y.readS a.toNat).toNat % 2 ^ 15)
    let mk := { Meta.scalar [a.toNat] [] with quiet := true }
    let mt := { Meta.scalar [a.toNat] [] with noPort := true }
    let ms := { Meta.scalar [a.toNat, b.toNat] [] with notMast := true }
    let target (y : Thread) : Word := y.pc + 4 * i.signExtend 64
    let head (s : State) (y : Thread) (h : PortWord) : Prop := a ≠ 30 ∧ y.member = false ∧ y.inEn = true ∧ y.inq.head? = some h ∧ h.avail ≤ s.beat
    let pair (s : State) (y : Thread) (w h : PortWord) : Prop := a = 30 ∧ y.member = false ∧ y.inEn = true ∧ y.inq.take 2 = [w, h] ∧
      w.avail ≤ s.beat ∧ h.avail ≤ s.beat
    let popped (y : Thread) : Thread := { y with inq := y.inq.tail, portTag := setBits y.portTag 7 0 ((y.inq.head?.map (·.tag.toNat)).getD 0) }
    Gated (.sqkill p a) mk p ∧
    Traps (.sqkill p a) mk p (fun s y => named s y = none) .subRange (fun _ => 0) (fun y => ofN ((y.readS a.toNat).toNat % 2 ^ 15)) ∧
    Blocks (.sqkill p a) mk p (fun s y => named s y ≠ none)
      (fun s y => .sqkill ((named s y).getD 0) (s.beat + distance s.cur.core ((named s y).getD 0)) none) (fun _ => BitVec.allOnes 64)
      (fun s y => s.effectOut y) ∧
    LocalTo (.btag p a i) mt p (fun _ y => y.member = true ∨ y.inEn = false) (fun _ y => y) (fun y => nextPc y.pc) ∧
    LocalTo (.btag p a i) mt p (fun s y => ∃ h, head s y h ∧ h.tag.toNat = wbits (y.readS a.toNat) 7 0 ∧ canonical (target y) = true)
      (fun _ y => y) target ∧
    LocalTo (.btag p a i) mt p (fun s y => ∃ h, head s y h ∧ h.tag.toNat ≠ wbits (y.readS a.toNat) 7 0) (fun _ y => y) (fun y => nextPc y.pc) ∧
    LocalTo (.btag p a i) mt p (fun s y => ∃ w h, pair s y w h ∧ h.tag.toNat = wbits w.data 7 0 ∧ canonical (target y) = true)
      (fun _ y => popped y) target ∧
    LocalTo (.btag p a i) mt p (fun s y => ∃ w h, pair s y w h ∧ h.tag.toNat ≠ wbits w.data 7 0) (fun _ y => popped y) (fun y => nextPc y.pc) ∧
    Traps (.btag p a i) mt p (fun s y => ∃ h, head s y h ∧ h.tag.toNat = wbits (y.readS a.toNat) 7 0 ∧ canonical (target y) = false)
      .access target (fun _ => 0) ∧
    Traps (.btag p a i) mt p (fun s y => ∃ w h, pair s y w h ∧ h.tag.toNat = wbits w.data 7 0 ∧ canonical (target y) = false)
      .access target (fun _ => 0) ∧
    Waits (.btag p a i) mt p (fun s y => y.member = false ∧ y.inEn = true ∧ (∀ w, y.inq.head? = some w → s.beat < w.avail)) .port ∧
    Waits (.btag p a i) mt p (fun s y => a = 30 ∧ y.member = false ∧ y.inEn = true ∧ ∀ w, y.inq[1]? = some w → s.beat < w.avail) .port ∧
    (∀ n h ws at_ tail pad,
      let sent (s : State) (y : Thread) : Prop :=
        let va := y.readS b.toNat
        s.coreNamed? y.ctx (y.readS a.toNat).toNat = some n ∧ va.toNat % 8 = 0 ∧ s.sendWord s.cur y va = .ok h ∧ wbits h 6 0 ≤ 63 ∧
        (s.core n).placeable (wbits h 6 0 + 1) = true
      let room (s : State) := (s.core n).reserve? (s.core n).mboxHead (wbits h 6 0 + 1)
      Gives (.send p a b) ms p (fun s y => sent s y ∧ s.sendWords s.cur y (y.readS b.toNat + 8) (wbits h 6 0) = .ok ws ∧
          room s = some (at_, tail, pad))
        (fun s y t z => MemoryKept s t ∧ OthersGoOn s t ∧ z.pc = nextPc y.pc ∧ z.s = y.s ∧ (t.core n).mboxTail = tail ∧
          ∃ d, (t.core n).deliveries = (s.core n).deliveries ++ [d] ∧ d.scope = y.scopeD ∧ d.sender = some s.cur ∧
            d.words.map Prod.snd = (match pad with | some (_, q) => [ofN (q + 128)] | none => []) ++ ws ++
              [mboxHeader h (s.idCore y.ctx s.cur.core) s.cur.slot] ∧
            d.words.getLast?.map Prod.fst = some at_) ∧
      Blocks (.send p a b) ms p (fun s y => sent s y ∧ room s = none) (fun _ y => .send n (wbits h 6 0 + 1) (y.readS b.toNat) h)
        (fun _ => BitVec.allOnes 64) (fun s y => s.effectOut y)) ∧
    Ends (.send p a b) ms p (fun s y r => s.coreNamed? y.ctx (y.readS a.toNat).toNat ≠ none ∧ (y.readS b.toNat).toNat % 8 = 0 ∧
      s.sendWord s.cur y (y.readS b.toNat) = .error r) ∧
    (∀ n h, Traps (.send p a b) ms p (fun s y => s.coreNamed? y.ctx (y.readS a.toNat).toNat = some n ∧ (y.readS b.toNat).toNat % 8 = 0 ∧
        s.sendWord s.cur y (y.readS b.toNat) = .ok h ∧ (63 < wbits h 6 0 ∨ (s.core n).placeable (wbits h 6 0 + 1) = false))
      .msgTooLarge (fun y => y.readS b.toNat) (fun y => ofN (wbits h 6 0 + (y.readS a.toNat).toNat % 2 ^ 15 * 2 ^ 8))) ∧
    (∀ n h, Ends (.send p a b) ms p fun s y r => s.coreNamed? y.ctx (y.readS a.toNat).toNat = some n ∧ (y.readS b.toNat).toNat % 8 = 0 ∧
      s.sendWord s.cur y (y.readS b.toNat) = .ok h ∧ wbits h 6 0 ≤ 63 ∧ (s.core n).placeable (wbits h 6 0 + 1) = true ∧
      (s.core n).reserve? (s.core n).mboxHead (wbits h 6 0 + 1) ≠ none ∧
      (s.effectOut y).sendWords s.cur y (y.readS b.toNat + 8) (wbits h 6 0) = .error r) ∧
    Traps (.send p a b) ms p (fun s y => s.coreNamed? y.ctx (y.readS a.toNat).toNat = none) .subRange (fun _ => 0)
      (fun y => ofN ((y.readS a.toNat).toNat % 2 ^ 15)) ∧
    Traps (.send p a b) ms p (fun s y => s.coreNamed? y.ctx (y.readS a.toNat).toNat ≠ none ∧ (y.readS b.toNat).toNat % 8 ≠ 0) .align
      (fun y => y.readS b.toNat) (fun _ => 0)

/-! ## The term array and the drain path -/

/-- R232, R233, R236: HRESV reserves a slot of the band that holds no thread and answers its number, or all ones; MX.DRAIN
and MX.DRAIN.RAW need the reservation, an aligned canonical handler and a done word they may fill, and enter the queue;
ROWOUT, for the row dispatched to its handler, hands the 1,024 bytes of v0-v7 to the drain, and ends the handler with the
last row. R217-R228, R238: a term-array command is checked at issue, in the order the manual gives, and then enters its
core's queue with its fields, operands and the format context in force; while 16 commands have not begun it waits. MX.CTX
sets the context at issue; MX.CNT opens a window on its v register; MX.BATCH numbers the thread's commands that no batch
holds; MX.WAIT goes on once the commands of the batches it names have completed, and until then has not issued (R272).
Where it goes beyond the manual's words it rests on the model's choices of logs 8, 13 and 15. -/
def Obligations.ArrayInstructions : Prop :=
  (∀ (p : Pred) (x y : Reg) (l g : BitVec 4) (k : BitVec 5) (q : BitVec 2) (w : BitVec 1),
    let core (s : State) := s.core s.cur.core
    let free (s : State) := ((core s).mxQueue.filter fun c => !c.begun).length < 16
    let owned (s : State) (z : Thread) : Prop := (s.cluster (clusterOf s.cur.core)).owner = some z.ctx
    let queues (i : Instr) (m : Meta) (pre : State → Thread → Prop) (maj fx fn : Nat) (sx sy : Thread → Word)
        (fmt : State → Thread → Word) (outs : State → Thread → List Out) : Prop :=
      Gives i m p (fun s z => pre s z ∧ free s) (fun s z t u => MemoryKept s t ∧ OthersGoOn s t ∧
        u = { z.pop m z with pc := nextPc z.pc, outs := z.outs ++ outs s z } ∧ (core t).mxCtx = fmt s z ∧
        ∃ c, (core t).mxQueue = (core s).mxQueue ++ [c] ∧ c.id = s.serial ∧ c.maj = maj ∧ c.fx = fx ∧ c.fn = fn ∧ c.sx = sx z ∧ c.sy = sy z ∧
          c.fmt = fmt s z ∧ c.slot = s.cur.slot ∧ c.ctx = z.ctx ∧ c.pc = z.pc ∧ c.batch = none ∧ c.begun = false) ∧
      Waits i m p (fun s z => pre s z ∧ ¬free s) .room
    let traps (i : Instr) (m : Meta) (pre : State → Thread → Prop) (c : Cause) (addr : Thread → Word) : Prop :=
      ∀ s th, Ready m p s th → pre (begun m s th) (th.begin_ 1) →
        exec i s = .next ((s.forgetFailures s.cur).raise s.cur c (addr (th.begin_ 1)) (ofN s.ir.toNat) th.ipc)
    let now (s : State) (_ : Thread) : Word := (core s).mxCtx
    let nothing (_ : State) (_ : Thread) : List Out := []
    let plane (s : State) : Plane := ((s.cluster (clusterOf s.cur.core)).planes[q.toNat]?).getD Plane.blank
    let sX (z : Thread) := z.readS x.toNat
    let sY (z : Thread) := z.readS y.toNat
    let ldbOk (s : State) (z : Thread) : Prop := owned s z ∧ (sY z).toNat % 8 = 0 ∧
      s.rangeBad s.cur z (sY z) (mxImageBytes (mxB (core s).mxCtx)) = none
    let mmaOk (s : State) (z : Thread) : Prop := mmaBad (sX z) (core s).mxCtx = false ∧ owned s z ∧
      (plane s).tag = some (mxB (core s).mxCtx, mxTside (core s).mxCtx) ∧ (sY z).toNat % 8 = 0 ∧
      s.mmaOffends s.cur z (sX z) (core s).mxCtx (sY z) = none
    let m2 := Meta.mx [x.toNat, y.toNat]
    queues (.mxCtx p x) (.mx [x.toNat]) (fun _ z => mxValid (sX z) = true) 0x70 x.toNat 0 sX (fun _ => 0) (fun _ z => sX z) nothing ∧
    traps (.mxCtx p x) (.mx [x.toNat]) (fun _ z => mxValid (sX z) = false) .mxFormat (fun _ => 0) ∧
    queues (.mxLdb p y k) (.mx [y.toNat]) ldbOk 0x71 0 k.toNat (fun _ => 0) sY now nothing ∧
    traps (.mxLdb p y k) (.mx [y.toNat]) (fun s z => ¬owned s z) .mxRange sY ∧
    Traps (.mxLdb p y k) (.mx [y.toNat]) p (fun s z => owned s z ∧ (sY z).toNat % 8 ≠ 0) .align sY (fun _ => 4) ∧
    (∀ e, Traps (.mxLdb p y k) (.mx [y.toNat]) p (fun s z => owned s z ∧ (sY z).toNat % 8 = 0 ∧
      s.rangeBad s.cur z (sY z) (mxImageBytes (mxB (core s).mxCtx)) = some e) .access (fun _ => e) (fun _ => 4)) ∧
    queues (.mxSetb p q k) (.mx []) owned 0x72 q.toNat k.toNat (fun _ => 0) (fun _ => 0) now nothing ∧
    traps (.mxSetb p q k) (.mx []) (fun s z => ¬owned s z) .mxRange (fun _ => 0) ∧
    queues (.mxMma p x y q w) m2 mmaOk 0x73 x.toNat (2 * q.toNat + w.toNat) sX sY now nothing ∧
    traps (.mxMma p x y q w) m2 (fun s z => mmaBad (sX z) (core s).mxCtx = true ∨ ¬owned s z) .mxRange sY ∧
    traps (.mxMma p x y q w) m2 (fun s z => mmaBad (sX z) (core s).mxCtx = false ∧ owned s z ∧
      (plane s).tag ≠ some (mxB (core s).mxCtx, mxTside (core s).mxCtx)) .mxFormat sY ∧
    let judged (s : State) (z : Thread) : Prop := mmaBad (sX z) (core s).mxCtx = false ∧ owned s z ∧
      (plane s).tag = some (mxB (core s).mxCtx, mxTside (core s).mxCtx)
    Traps (.mxMma p x y q w) m2 p (fun s z => judged s z ∧ (sY z).toNat % 8 ≠ 0) .align sY (fun _ => 4) ∧
    (∀ e, Traps (.mxMma p x y q w) m2 p (fun s z => judged s z ∧ (sY z).toNat % 8 = 0 ∧
      s.mmaOffends s.cur z (sX z) (core s).mxCtx (sY z) = some e) .access (fun _ => e) (fun _ => 4)) ∧
    queues (.mxZero p w) (.mx []) (fun _ _ => True) 0x74 0 w.toNat (fun _ => 0) (fun _ => 0) now nothing ∧
    queues (.mxCnt p x l g) { Meta.mx [] with vs := [x.toNat], window := true } (fun _ _ => True) 0x77 x.toNat g.toNat (fun _ => 0)
      (fun _ => 0) now (fun s z => [⟨s.serial, .v, x.toNat, l.toNat, 0, z.pc, 0, .pending⟩]) ∧
    Gives (.mxBatch p x l) { Meta.scalar [] [x.toNat] with notMast := true, window := true } p (fun _ _ => True)
      (fun s z t u => MemoryKept s t ∧ u.mxBatch = z.mxBatch + 1 ∧ u.pc = nextPc z.pc ∧ u.s = z.s ∧
        u.outs = z.outs ++ [⟨s.serial, .s, x.toNat, l.toNat, 0, z.pc, 0, .word (ofN (z.mxBatch + 1))⟩] ∧
        (core t).mxQueue = (core s).mxQueue.map fun c =>
          if c.slot = s.cur.slot ∧ c.ident = z.ident ∧ c.ended = false ∧ c.batch = none then { c with batch := some (z.mxBatch + 1) } else c) ∧
    let isOver (s : State) (z : Thread) : Prop := ∀ c ∈ s.cmdsOf s.cur, ∀ n, c.batch = some n → min (sX z).toNat z.mxBatch < n
    Runs (.mxWait p x) (.mx [x.toNat]) p isOver (fun s _ => s) ∧
      Waits (.mxWait p x) (.mx [x.toNat]) p (fun s z => ¬isOver s z) .batch) ∧
  ∀ (p : Pred) (x y : Reg) (l : BitVec 4) (w : BitVec 1),
    let core (s : State) := s.core s.cur.core
    let m2 := Meta.mx [x.toNat, y.toNat]
    let mr := { Meta.mx [x.toNat, y.toNat] with vs := [0, 1, 2, 3, 4, 5, 6, 7] }
    let addr (z : Thread) (row : Word) : Word := z.readS x.toNat + row * z.readS y.toNat
    let placed (s : State) (z : Thread) (row : Word) : Prop := z.handler = some ⟨true, row⟩ ∧ (z.readS x.toNat).toNat % 8 = 0 ∧
      (z.readS y.toNat).toNat % 8 = 0 ∧ s.rangeBad s.cur z (addr z row) 1024 = none ∧ z.settled = true
    let drains (raw : Bool) (i : Instr) : Prop :=
      let done (z : Thread) := z.readS x.toNat
      let pc (z : Thread) := z.readS y.toNat
      Gives i m2 p (fun s z => (core s).reservation ≠ none ∧ (pc z).toNat % 4 = 0 ∧ (done z).toNat % 8 = 0 ∧ canonical (pc z) = true ∧
          (∃ key e, s.resolve s.cur z (done z) (accEngineFe true) (.thread s.cur) = .ok key e) ∧
          ((core s).mxQueue.filter fun c => !c.begun).length < 16)
        (fun s z t u => MemoryKept s t ∧ u = { z.pop m2 z with pc := nextPc z.pc } ∧
          ∃ c, (core t).mxQueue = (core s).mxQueue ++ [c] ∧ c.maj = 0x75 ∧ c.fn = 2 * (if raw then 1 else 0) + w.toNat ∧ c.sx = done z ∧
            c.sy = pc z ∧ c.fmt = (core s).mxCtx ∧ c.batch = none ∧ c.begun = false) ∧
      (∀ s th, Ready m2 p s th → (core s).reservation = none →
        exec i s = .next ((s.forgetFailures s.cur).raise s.cur .mxRange (done (th.begin_ 1)) (ofN s.ir.toNat) th.ipc)) ∧
      let kept (s : State) : Prop := (core s).reservation ≠ none
      let asks (s : State) (z : Thread) : Prop := kept s ∧ (pc z).toNat % 4 = 0 ∧ (done z).toNat % 8 = 0 ∧ canonical (pc z) = true
      let at_ (s : State) (z : Thread) := s.resolve s.cur z (done z) (accEngineFe true) (.thread s.cur)
      Traps i m2 p (fun s z => kept s ∧ (pc z).toNat % 4 ≠ 0) .align pc (fun _ => 4) ∧
      Traps i m2 p (fun s z => kept s ∧ (pc z).toNat % 4 = 0 ∧ (done z).toNat % 8 ≠ 0) .align done (fun _ => 7) ∧
      Traps i m2 p (fun s z => kept s ∧ (pc z).toNat % 4 = 0 ∧ (done z).toNat % 8 = 0 ∧ canonical (pc z) = false) .access pc (fun _ => 4) ∧
      (∀ c info, Traps i m2 p (fun s z => asks s z ∧ at_ s z = .fault c info) c done (fun _ => info)) ∧
      Ends i m2 p (fun s z r => asks s z ∧ at_ s z = .miss ∧ r = .miss (done z) 3) ∧
      Waits i m2 p (fun s z => asks s z ∧ (∃ key e, at_ s z = .ok key e) ∧ 16 ≤ ((core s).mxQueue.filter fun c => !c.begun).length) .room
    Gives (.hresv p x l) { Meta.scalar [] [x.toNat] with notMast := true, window := true } p (fun _ _ => True)
      (fun s z t u => MemoryKept s t ∧ OthersGoOn s t ∧ (core t).reservation = (s.handlerSlot? s.cur.core z).or (core s).reservation ∧
        u = { z with
          pc := nextPc z.pc
          outs := z.outs ++ [⟨s.serial, .s, x.toNat, l.toNat, 0, z.pc, 0,
            .word (match s.handlerSlot? s.cur.core z with | some i => ofN i | none => BitVec.allOnes 64)⟩] }) ∧
    (∀ (s : State) (z : Thread) (i : Nat), s.handlerSlot? s.cur.core z = some i → (core s).reservation ≠ some i →
      i < 8 ∧ (s.slot ⟨s.cur.core, i⟩).thread = none ∧ (s.slot ⟨s.cur.core, i⟩).grant = some z.bandRef) ∧
    drains false (.mxDrain p x y w) ∧ drains true (.mxDrainRaw p x y w) ∧
    (∀ row d, Gives (.rowout p x y) mr p (fun s z => placed s z row ∧ (core s).drain = some d ∧ d.placed + 1 < d.h)
      (fun s z t u => MemoryKept s t ∧ OthersGoOn s t ∧ u = { z.pop mr z with pc := nextPc z.pc, outs := [], handler := some ⟨false, row⟩ } ∧
        ∃ ws, (core t).drain = some { d with placed := d.placed + 1, placedAt := s.beat, writes := d.writes ++ ws } ∧ ws.length = 128 ∧
          ∀ i, i < 128 → ws[i]? = some (addr z row + ofN (8 * i),
            ofN ((z.readLane (i / 16) (2 * (i % 16))).toNat + (z.readLane (i / 16) (2 * (i % 16) + 1)).toNat * 2 ^ 32)))) ∧
    (∀ row d, Gives (.rowout p x y) mr p (fun s z => placed s z row ∧ (core s).drain = some d ∧ d.placed + 1 = d.h)
      (fun _ z _ u => u.halted = true ∧ u.s = z.s ∧ u.v = z.v ∧ u.pc = nextPc z.pc)) ∧
    (∀ row, let mine (z : Thread) : Prop := z.handler = some ⟨true, row⟩
      let even (z : Thread) : Prop := mine z ∧ (z.readS x.toNat).toNat % 8 = 0 ∧ (z.readS y.toNat).toNat % 8 = 0
      Traps (.rowout p x y) mr p (fun _ z => mine z ∧ (z.readS x.toNat).toNat % 8 ≠ 0) .align (fun z => z.readS x.toNat) (fun _ => 5) ∧
      Traps (.rowout p x y) mr p (fun _ z => mine z ∧ (z.readS x.toNat).toNat % 8 = 0 ∧ (z.readS y.toNat).toNat % 8 ≠ 0) .align
        (fun z => z.readS y.toNat) (fun _ => 5) ∧
      (∀ e, Traps (.rowout p x y) mr p (fun s z => even z ∧ s.rangeBad s.cur z (addr z row) 1024 = some e) .access (fun _ => e) (fun _ => 5)) ∧
      Waits (.rowout p x y) mr p (fun s z => even z ∧ s.rangeBad s.cur z (addr z row) 1024 = none ∧ z.settled = false) .windows) ∧
    (∀ s th, Ready mr p s th → (∀ row, th.handler ≠ some ⟨true, row⟩) →
      exec (.rowout p x y) s = .next ((s.forgetFailures s.cur).raise s.cur .mxRange 0 (ofN s.ir.toNat) th.ipc))

/-- R219-R231: what the array's own steps do: a context applies, MX.ZERO empties its tile, MX.LDB loads its image word by
word and its slot becomes valid with the last, the array grants one ready command at a time, of those ready in the first
cycle the one that follows the last granted core most closely, unless power is held, which changes no grant's order, and a
finished MX.SETB or MX.MMA replaces the plane or the tile and counts its work; MX.CNT writes the counters of its group to
the lowest eight lanes. Where it goes beyond the manual's words it rests on the model's choices of logs 12 and 13. -/
def Obligations.ArrayEvents : Prop :=
  ∀ (s : State) (n : Nat),
    let cl := clusterOf n
    (∀ c, (s.core n).nextCmd? = some c →
      (c.maj = 0x70 → ∃ t, exec (.mxCtxApply n) s = .next t ∧ (t.core n).mxApplied = c.sx ∧ (t.core n).mxCtx = (s.core n).mxCtx ∧
        (t.core n).mxQueue = eraseFirst (fun x => x.id == c.id) (s.core n).mxQueue ∧ MemoryKept s t) ∧
      (c.maj = 0x74 → s.mayBegin n c = true → ∃ t, exec (.mxZeroBegin n) s = .next t ∧ (t.core n).tile (c.fn % 2) = Tile.blank ∧
        (t.core n).tile (1 - c.fn % 2) = (s.core n).tile (1 - c.fn % 2) ∧
        (t.core n).mxQueue = eraseFirst (fun x => x.id == c.id) (s.core n).mxQueue ∧ MemoryKept s t) ∧
      (c.maj = 0x77 → s.mayBegin n c = true → ∀ th o, s.thread? ⟨n, c.slot⟩ = some th → th.outs = [o] → o.id = c.id → o.cls = .v →
        o.reg < 32 → o.due ≤ s.beat → s.flight? c.id = none → th.trapPend = none →
        ∃ t z, exec (.mxCntWrite n) s = .next t ∧ t.thread? ⟨n, c.slot⟩ = some z ∧ z.s = th.s ∧
          ∀ i, i < 32 → z.readLane o.reg i =
            if i < 8 then BitVec.ofNat 32 (((s.core n).tc[4 * (c.fn % 16) + i / 2]?).getD 0 / 2 ^ (32 * (i % 2))) else 0) ∧
      (c.maj = 0x71 → s.mayBegin n c = true → ((s.core n).mxQueue.find? fun x => x.maj == 0x71 && x.begun) = none →
        ∃ t, exec (.mxLdbLoad n) s = .next t ∧ ((t.cluster cl).weight (c.fn % 32)).state = .loading ∧
          ((t.cluster cl).weight (c.fn % 32)).tag = mxB c.fmt ∧ MemoryKept s t)) ∧
    (∀ c key e, ((s.core n).mxQueue.find? fun x => x.maj == 0x71 && x.begun) = some c → c.record = none →
      s.engineResolve ⟨n, c.slot⟩ (engineThread c.ctx c.priv) (c.sy + ofN (8 * c.prog)) accEngineRead false c.id = .ok key e →
      s.held key = false → s.grantSaved c.ctx key = false →
      ∃ t, exec (.mxLdbLoad n) s = .next t ∧ MemoryKept s t ∧
        let w := ((s.cluster cl).weight (c.fn % 32)).put (8 * c.prog) (leBytes 8
          (s.readAs (s.cipherFor (engineThread c.ctx c.priv) e) key 8))
        (t.cluster cl).weight (c.fn % 32) =
          if 8 * (c.prog + 1) < mxImageBytes (mxB c.fmt) then w else { w with state := .valid }) ∧
    (∀ x c at_, s.arrayFree cl = true → s.arbitrate cl = some (x, c, at_) → at_ ≤ 8 * s.beat + 7 →
      let back (j : Nat) : Nat := (j + 127 - (s.cluster cl).lastGrant % 64) % 64
      let w := (s.cluster cl).weight (c.fn % 32)
      s.readyArray? x = some c ∧ at_ = max (max (s.cluster cl).freeAt (8 * s.beat)) (s.core x).mxFreeAt ∧
      ((s.cluster cl).holdFor = none → ∀ j y, j < 64 → s.readyArray? (cl * 64 + j) = some y →
        at_ ≤ s.grantFrom cl (cl * 64 + j) ∧ (s.grantFrom cl (cl * 64 + j) = at_ → back (x % 64) ≤ back j)) ∧
      (∃ t g, exec (.arrayGrant cl 0) s = .next t ∧ (t.cluster cl).stepping = some g ∧ g.core = x ∧ g.cmd = c ∧ g.grant = at_ ∧
        (c.maj = 0x72 → g.d = (if mxB c.fmt = 6 then 16 else 64) ∧ g.valid = (w.state == .valid && w.tag == mxB c.fmt)) ∧
        (t.cluster cl).lastGrant = x % 64 ∧ (t.cluster cl).freeAt = at_ + g.d ∧ (t.core x).mxLast = some c.id ∧
        (t.cluster cl).finishing = (s.cluster cl).finishing ++ (s.cluster cl).stepping.toList ∧ MemoryKept s t) ∧
      ∀ h, 0 < h → h ≤ 64 → (s.cluster cl).holdFor = none →
        ∃ t, exec (.arrayGrant cl h) s = .next t ∧ (t.cluster cl).hold = some (at_ + h) ∧ (t.cluster cl).holdFor = some x ∧ (t.cluster cl).stepping = (s.cluster cl).stepping) ∧
    (∀ e, (s.cluster cl).hold = some e → e ≤ 8 * s.beat + 7 →
      ∃ t, exec (.powerHold cl) s = .next t ∧ (t.cluster cl).hold = none ∧ (t.cluster cl).freeAt = max (s.cluster cl).freeAt e) ∧
    (∀ x, (s.cluster cl).stepping = some x → x.cmd.maj = 0x72 → x.grant + x.d ≤ 8 * s.beat + 8 →
      let w := (s.cluster cl).weight (x.cmd.fn % 32)
      ∃ t z, exec (.mxSetbComplete cl) s = .next t ∧ (t.cluster cl).stepping = none ∧ (t.cluster cl).planes[x.cmd.fx % 4]? = some z ∧
        (x.valid = true → z.tag = some (mxB x.cmd.fmt, mxTside x.cmd.fmt) ∧ z.image = w.image ∧ z.nospec = mxNospec x.cmd.fmt) ∧
        (x.valid = false → z.tag = none)) ∧
    ∀ x, (s.cluster cl).oldest? = some x → x.cmd.maj = 0x73 → x.grant + x.d + 39 ≤ 8 * s.beat + 7 →
      ∃ t, exec (.mxMmaComplete cl) s = .next t ∧ MemoryKept s t ∧
        (t.core x.core).tile (x.cmd.fn % 2) = mmaTile x ((s.core x.core).tile (x.cmd.fn % 2)) ∧
        (t.core x.core).tile (1 - x.cmd.fn % 2) = (s.core x.core).tile (1 - x.cmd.fn % 2) ∧
        (t.core x.core).tc = mmaCounters x (s.core x.core).tc

/-- R233-R237: a drain begins with its tile's H, SAT and ERR; rows enter its buffer in rising order while it holds fewer
than eight; the oldest goes to the handler, with its row, done word and status, which the first row creates with the
band's start values (R297) in the slot that stays the drain's; the writes of a placed row are performed one word at a
time, the last row's after the rotation of its ROWOUT (R272); after the last the done word is filled, and full. A drain
whose write failed, or whose handler is gone, fills it with FAIL. Where it goes beyond the manual's words it rests on the
model's choices of logs 14 and 15. -/
def Obligations.DrainEvents : Prop :=
  ∀ (s : State) (n : Nat),
    (∀ d, (s.core n).drain = some d → d.next < d.h → (s.core n).drainBuf.length < 8 → d.failed = none →
      ∃ t, exec (.drainRowEnter n) s = .next t ∧ (t.core n).drain = some { d with next := d.next + 1 } ∧ MemoryKept s t ∧
        (t.core n).drainBuf = (s.core n).drainBuf ++ [(d.next, (List.range 256).map fun i => ((s.core n).tile d.tile).slot d.next i)]) ∧
    (∀ c, (s.core n).drain = none → (s.core n).nextCmd? = some c → c.isDrain = true → s.mayBegin n c = true →
      ((s.core n).tile (c.fn % 2)).h = 0 →
      ∃ t d, exec (.drainRowEnter n) s = .next t ∧ (t.core n).drain = some d ∧ d.h = 0 ∧ d.cmd = c.id ∧ d.done = c.sx ∧ d.handlerPc = c.sy ∧
        d.sat = ((s.core n).tile (c.fn % 2)).sat ∧ d.err = ((s.core n).tile (c.fn % 2)).err ∧ d.next = 0 ∧ MemoryKept s t) ∧
    (∀ d r row rest k th, (s.core n).drain = some d → (s.core n).drainBuf = (r, row) :: rest → d.failed = none →
      d.slot.or (s.core n).reservation = some k → k < 8 → s.drainSaved d = false →
      (0 < d.dispatched ∧ s.thread? ⟨n, k⟩ = some th ∧ (∃ q, th.handler = some ⟨false, q⟩) ∧ th.halted = false ∧ th.stopped = false ∧
        th.busy = 0 ∧ s.stopping th = false) ∨
      (d.dispatched = 0 ∧ s.thread? ⟨n, k⟩ = none ∧ th = newHandler s n d ∧ s.savingBand th = false) →
      ∃ t z, exec (.drainDispatch n) s = .next t ∧ t.thread? ⟨n, k⟩ = some z ∧ MemoryKept s t ∧ z.pc = pcOf d.handlerPc ∧
        z.handler = some ⟨true, ofN r⟩ ∧ z.readS 3 = ofN r ∧ z.readS 4 = d.done ∧ z.readS 5 = d.status ∧ z.f = th.f ∧
        z.tileOrg = th.tileOrg ∧ z.tileExt = th.tileExt ∧ z.trapVec = th.trapVec ∧
        (∀ j i, j < 8 → i < 32 → z.readLane j i = drainLane d row.toArray j i) ∧
        (∀ j i, 9 ≤ j → z.readLane j i = th.readLane j i) ∧
        (t.core n).drainBuf = rest ∧ (t.core n).drain = some { d with dispatched := d.dispatched + 1, slot := some k }) ∧
    (∀ d a w ws key e, (s.core n).drain = some d → d.writes = (a, w) :: ws → (d.writes.length ≤ 128 → d.placedAt < s.beat) →
      s.engineResolve ⟨n, d.issuer⟩ d.thread a accEngineWrite false d.cmd = .ok key e → s.held key = false →
      s.grantSaved (d.ident.getD 3 0) key = false → Clear s (s.cipherFor d.thread e) key 8 →
      ∃ t, exec (.drainDoneFill n) s = .next t ∧ (t.core n).drain = some { d with writes := ws } ∧ t.readMem key 8 = w.toNat ∧
        (∀ b, b < key ∨ key + 8 ≤ b → t.readByte b = s.readByte b) ∧ t.feFlips = s.feFlips) ∧
    (∀ d key e, (s.core n).drain = some d → d.writes = [] → d.failed = none → d.h ≤ d.placed →
      s.engineResolve ⟨n, d.issuer⟩ d.thread d.done (accEngineFe true) false d.cmd = .ok key e → s.held key = false →
      s.grantSaved (d.ident.getD 3 0) key = false → Clear s (s.cipherFor d.thread e) key 8 → Unwaited s key →
      ∃ t, exec (.drainDoneFill n) s = .next t ∧ (t.core n).drain = none ∧ t.full key = true ∧
        t.readMem key 8 = (d.word false 0).toNat ∧ ∀ b, b < key ∨ key + 8 ≤ b → t.readByte b = s.readByte b) ∧
    (∀ d cause key e, (s.core n).drain = some d → d.writes = [] → d.failed = some cause → s.thread? ((s.core n).handlerRef n) = none →
      s.engineResolve ⟨n, d.issuer⟩ d.thread d.done (accEngineFe true) false d.cmd = .ok key e → s.held key = false →
      s.grantSaved (d.ident.getD 3 0) key = false → Clear s (s.cipherFor d.thread e) key 8 → Unwaited s key →
      ∃ t, exec (.drainFail n) s = .next t ∧ (t.core n).drain = none ∧ t.full key = true ∧ t.readMem key 8 = (d.word true cause).toNat) ∧
    (∀ d b l, s.band? d.band = some b → s.launch? d.band.ctx d.band.launch = some l → n ∈ b.cores →
      let x := newHandler s n d
      let tile := tileOf l.rec_.divs (d.band.band * b.cores.length + b.cores.idxOf n)
      x.tileOrg = tile.1 ∧ x.tileExt = tile.2 ∧ x.s = Thread.blank.s ∧ x.f = Thread.blank.f ∧ x.launch = d.ident.getD 0 0 ∧
        x.band = d.ident.getD 1 0 ∧ x.ctx = d.ident.getD 3 0 ∧ x.privileged = false) ∧
    (∀ d, (s.core n).drain = some d → d.failed = none → s.handlerGone ((s.core n).handlerRef n) d = true → d.placed < d.h →
      d.placed < d.dispatched →
      ∃ t, exec (.drainFail n) s = .next t ∧ (t.core n).drain = some { d with failed := some 0xFE } ∧ (t.core n).drainBuf = [] ∧
        MemoryKept s t) ∧
    ∀ (d : Drain) (f : Bool) (c : Nat), d.placed < 256 → c < 256 →
      wbits (d.word f c) 7 0 = d.placed ∧ wbit (d.word f c) 8 = d.sat ∧ wbit (d.word f c) 9 = d.err ∧ wbit (d.word f c) 10 = f ∧
      wbits (d.word f c) 23 16 = c

/-! ## Launches, bands and migration -/

/-- R296, R298: LAUNCH, once its address has passed and its thread's older accesses are over: a record whose header is
full is refused with reason 9 and left alone; a record that breaks R296 is refused with the lowest reason, in STATUS and
in the register; any other is posted, its header filled and its STATUS emptied, and the thread waits for its acceptance.
Where it goes beyond the manual's words it rests on the model's choices of logs 8 and 49. -/
def Obligations.LaunchPosts : Prop :=
  ∀ (p : Pred) (d a : Reg),
    let m := Meta.scalar [a.toNat] [d.toNat]
    let va (y : Thread) := y.readS a.toNat
    let ready (s : State) (y : Thread) (key : Nat) (c : Keying) : Prop := (va y).toNat % 64 = 0 ∧ windowOf (va y) = .global ∧
      (∃ e, s.resolve s.cur y (va y) (accEngineFe true) (.thread s.cur) = .ok key e ∧ s.cipherFor y e = c) ∧
      s.allPerformed s.cur s.serial true = true ∧ (∀ i, i < 8 → s.held (key + 8 * i) = false) ∧
      ∀ i, i < 7 → s.eccAt (key + 8 * i) = false
    let words (s : State) (y : Thread) (key : Nat) : List Word :=
      setBits ((s.recordWords .plain key).getD 0 0) 27 16 y.ctx :: (s.recordWords .plain key).tail
    let divs (s : State) (y : Thread) (key : Nat) := division ((words s y key).getD 5 0) (s.threadWord s.cur y)
    let reason (s : State) (y : Thread) (key : Nat) :=
      recReason (match s.context? y.ctx with | some c => c.plim | none => 0) (words s y key) (divs s y key).isSome
    let at_ (s : State) (y : Thread) := s.resolve s.cur y (va y) (accEngineFe true) (.thread s.cur)
    let older (s : State) (key : Nat) : Prop := s.allPerformed s.cur s.serial true = false ∨ ∃ i, i < 8 ∧ s.held (key + 8 * i) = true
    let read (s : State) (y : Thread) (key : Nat) : Prop := s.divMiss? s.cur y ((words s y key).getD 5 0) = none ∧
      ∀ k ∈ s.divKeys s.cur y ((words s y key).getD 5 0), s.held k = false
    Traps (.launch p d a) m p (fun _ y => (va y).toNat % 64 ≠ 0) .align va (fun _ => 7) ∧
    (∀ c info, Traps (.launch p d a) m p (fun s y => (va y).toNat % 64 = 0 ∧ at_ s y = .fault c info) c va (fun _ => info)) ∧
    Ends (.launch p d a) m p (fun s y r => (va y).toNat % 64 = 0 ∧ at_ s y = .miss ∧ r = .miss (va y) 3) ∧
    (∀ key e,
      Traps (.launch p d a) m p (fun s y => (va y).toNat % 64 = 0 ∧ at_ s y = .ok key e ∧ windowOf (va y) ≠ .global) .access va (fun _ => 7) ∧
      Waits (.launch p d a) m p (fun s y => (va y).toNat % 64 = 0 ∧ at_ s y = .ok key e ∧ windowOf (va y) = .global ∧ older s key) .older ∧
      ∀ i tier, i < 7 → Traps (.launch p d a) m p (fun s y => (va y).toNat % 64 = 0 ∧ at_ s y = .ok key e ∧ windowOf (va y) = .global ∧
        ¬older s key ∧ (∀ j, j < i → s.eccAt (key + 8 * j) = false) ∧ s.eccAt (key + 8 * i) = true ∧ s.eccTier (key + 8 * i) = tier)
        .eccUncorrectable (fun y => va y + ofN (8 * i)) (fun _ => tier)) ∧
    (∀ key c x, Ends (.launch p d a) m p fun s y r => ready s y key c ∧ Clear s c key 64 ∧ s.full key = false ∧
      s.divMiss? s.cur y ((words s y key).getD 5 0) = some x ∧ r = .miss x 0) ∧
    (∀ key c, Waits (.launch p d a) m p (fun s y => ready s y key c ∧ Clear s c key 64 ∧ s.full key = false ∧
      s.divMiss? s.cur y ((words s y key).getD 5 0) = none ∧
      ∃ k ∈ s.divKeys s.cur y ((words s y key).getD 5 0), s.held k = true) .older) ∧
    (∀ key c, Gives (.launch p d a) m p (fun s y => ready s y key c ∧ s.full key = true)
      (fun s y t z => MemoryKept s t ∧ z = { (y.writeS d.toNat 0x902 s.beat).pop m y with pc := nextPc y.pc })) ∧
    (∀ key c, Gives (.launch p d a) m p (fun s y => ready s y key c ∧ Clear s c key 64 ∧ s.full key = false ∧
        read s y key ∧ reason s y key ≠ 0 ∧ Unwaited s (key + 56))
      (fun s y t z => z = { (y.writeS d.toNat (ofN (2 + reason s y key * 2 ^ 8)) s.beat).pop m y with pc := nextPc y.pc } ∧
        t.full (key + 56) = true ∧ t.readMem (key + 56) 8 = 2 + reason s y key * 2 ^ 8 ∧ t.full key = false ∧ t.posted = s.posted)) ∧
    ∀ key c, key % 64 = 0 → Gives (.launch p d a) m p (fun s y => ready s y key c ∧ Clear s c key 64 ∧ s.full key = false ∧
        read s y key ∧ reason s y key = 0 ∧ Unwaited s key)
      (fun s y t z => z = { y.pop m y with wait := some ⟨.launch (va y) d.toNat, s.beat, BitVec.allOnes 64⟩ } ∧
        t.full key = true ∧ t.full (key + 56) = false ∧ t.readMem key 8 = ((words s y key).getD 0 0).toNat ∧
        t.posted = s.posted ++ [⟨y.ctx, LaunchRec.parse (words s y key) (key + 56) ((divs s y key).getD []), some s.cur⟩])

/-- R293, R307: GO to a place its thread may migrate to makes the thread leave, at the next instruction; to any other
place it has no effect but on band.OUT (R308). IDEM.BEGIN, which reads s1-s15, takes the snapshot of its thread and the
window it names, in a launch that allows it; IDEM.END ends the region. Where it goes beyond the manual's words it rests on
the model's choices of log 48. -/
def Obligations.GoAndRegions : Prop :=
  ∀ (p : Pred) (a : Reg),
    let mg := { Meta.scalar [a.toNat] [] with notMast := true, leaveOff := true }
    let m := Meta.scalar (a.toNat :: range 1 15) []
    let va (y : Thread) := y.readS a.toNat
    (∀ key e n, Gives (.go p a) mg p (fun s y => y.handler = none ∧ windowOf (va y) ≠ .fabric ∧
        s.resolve s.cur y (va y) accGo (.thread s.cur) = .ok key e ∧ s.arrival? s.cur y (va y) key = some n)
      (fun s y t z => MemoryKept s t ∧ z.wait = some ⟨.depart n (nextPc y.pc) 0, s.beat, 0⟩ ∧ z.pc = y.pc ∧ z.s = y.s ∧
        z.sq = if y.member then .fetching else y.sq)) ∧
    (∀ key e, Gives (.go p a) mg p (fun s y => y.handler = none ∧ windowOf (va y) ≠ .fabric ∧
        s.resolve s.cur y (va y) accGo (.thread s.cur) = .ok key e ∧ s.arrival? s.cur y (va y) key = none)
      (fun s y t z => MemoryKept s t ∧ z = { y.pop mg y with pc := nextPc y.pc })) ∧
    Runs (.go p a) mg p (fun s y => y.handler = none ∧ windowOf (va y) = .fabric ∧ s.fabWindow? y.ctx (va y) 0 ≠ none)
      (fun s y => s.effectOut y) ∧
    Traps (.go p a) mg p (fun s y => y.handler = none ∧ windowOf (va y) = .fabric ∧ s.fabWindow? y.ctx (va y) 0 = none) .access va
      (fun _ => 0) ∧
    (∀ s th, Ready mg p s th → th.handler ≠ none →
      exec (.go p a) s = .next ((s.forgetFailures s.cur).raise s.cur .mxRange 0 (ofN s.ir.toNat) th.ipc)) ∧
    (∀ c info, Traps (.go p a) mg p (fun s y => y.handler = none ∧ windowOf (va y) ≠ .fabric ∧
      s.resolve s.cur y (va y) accGo (.thread s.cur) = .fault c info) c va (fun _ => info)) ∧
    Ends (.go p a) mg p (fun s y r => y.handler = none ∧ windowOf (va y) ≠ .fabric ∧
      s.resolve s.cur y (va y) accGo (.thread s.cur) = .miss ∧ r = .miss (va y) 0) ∧
    Traps (.idemBegin p a) m p (fun _ y => (va y).toNat % 8 ≠ 0) .align va (fun _ => 0) ∧
    Ends (.idemBegin p a) m p (fun s y r => (va y).toNat % 8 = 0 ∧ s.sendWords s.cur y (va y) 2 = .error r) ∧
    (∀ base size, windowBad base size = true → Traps (.idemBegin p a) m p (fun s y => (va y).toNat % 8 = 0 ∧
      s.sendWords s.cur y (va y) 2 = .ok [base, size]) .access (fun _ => base) (fun _ => 0)) ∧
    (∀ base size, windowBad base size = false →
      Gives (.idemBegin p a) m p (fun s y => (va y).toNat % 8 = 0 ∧ s.sendWords s.cur y (va y) 2 = .ok [base, size] ∧ s.idemLaunch y = true)
        (fun s y t z => MemoryKept s t ∧ z.pc = nextPc y.pc ∧ z.s = y.s ∧ ∃ r, z.region = some r ∧ r.pc = nextPc y.pc ∧ r.base = base ∧
          r.size = size ∧ (∀ i, i < 15 → r.s[i]? = y.s[i + 1]?) ∧ ∀ i, i < 12 → r.f[i]? = some (y.readF i)) ∧
      Gives (.idemBegin p a) m p (fun s y => (va y).toNat % 8 = 0 ∧ s.sendWords s.cur y (va y) 2 = .ok [base, size] ∧ s.idemLaunch y = false)
        (fun s y t z => MemoryKept s t ∧ z = { y.pop m y with pc := nextPc y.pc })) ∧
    Local (.idemEnd p) .plain p fun _ y => { y with region := none }

/-- R287-R292: a thread departs once everything older is over and its destination has room; its slot is vacant then. A
packet joins its core's arrival queue, or the overflow ring behind the packets already there, in the first entry from the
ring's next one on that holds none, and waits while that entry is not mapped; the ring's packets move on as room comes;
and a core installs its oldest packet in its lowest free slot of the context, once in a rotation. R65, R290, R292: a
packet carries its thread's PC, s1 to s15, f0 to f11, its identity, tile and the special registers of the carry set; the
thread that is installed from it has exactly these, and every other register at its reset value. Where it goes beyond the
manual's words it rests on the model's choices of logs 48 and 50.
-/
def Obligations.Migration : Prop :=
  (∀ (s : State) (r : ThreadRef) (th : Thread) (n : Nat) (pc : Word) (reason beat : Nat),
    let y := (packetFrom s r th n pc reason).thread beat
    y.pc = pc ∧ y.mode = .run ∧ (∀ i, 1 ≤ i → i ≤ 15 → y.s[i]? = th.s[i]?) ∧ (∀ i, 16 ≤ i → i < 32 → y.s[i]? = some 0) ∧ y.f = th.f ∧
    y.v = Thread.blank.v ∧ y.k = Thread.blank.k ∧ y.launch = th.launch ∧ y.band = th.band ∧ y.tib = th.tib ∧ y.ctx = th.ctx ∧
    y.tileOrg = th.tileOrg ∧ y.tileExt = th.tileExt ∧ y.scopeD = th.scopeD ∧ y.feBudget = th.feBudget ∧ y.chBudget = th.chBudget ∧
    y.barBudget = th.barBudget ∧ y.fpCtl = th.fpCtl ∧ y.fpFlags = th.fpFlags ∧ y.rng = th.rng ∧ y.lmask = th.lmask ∧ y.trapVec = th.trapVec ∧
    y.portCfg = 0 ∧ y.portTag = 0 ∧ y.sq = .fetching ∧ y.rotIssued = 0 ∧ y.region = none ∧ y.storeQ = [] ∧ y.outs = [] ∧ y.notBefore = beat + 1) ∧
  (∀ (s : State) (r : ThreadRef) (th : Thread) (n since : Nat) (pc b : Word) (reason : Nat), s.thread? r = some th →
    th.wait = some ⟨.depart n pc reason, since, b⟩ → s.undelivered r = false →
    (s.savingBand th = true → ∃ t, exec (.migrationDeparture r) s = .next t ∧ t.thread? r = some { th with wait := none, pc := pc } ∧
      t.packets = s.packets ∧ MemoryKept s t) ∧
    (s.savingBand th = false → s.departReady r th = true → s.queueRoom n = true →
      ∃ t, exec (.migrationDeparture r) s = .next t ∧ t.thread? r = none ∧ t.packets = s.packets ++ [packetFrom s r th n pc reason])) ∧
  (∀ (s : State) (k : Packet), (s.packets.find? fun x => x.id == k.id) = some k →
    (∀ x ∈ s.packets, x.dest = k.dest → k.id ≤ x.id) → (s.core k.dest).arrivals.length < 16 → s.ringFor k.dest = [] →
    ∃ t, exec (.migrationArrival k.id) s = .next t ∧ (t.core k.dest).arrivals = (s.core k.dest).arrivals ++ [k] ∧
      t.packets = eraseFirst (fun x => x.id == k.id) s.packets ∧ MemoryKept s t) ∧
  (∀ (s : State) (k : Packet), (s.packets.find? fun x => x.id == k.id) = some k →
    (∀ x ∈ s.packets, x.dest = k.dest → k.id ≤ x.id) → ((s.core k.dest).arrivals.length = 16 ∨ s.ringFor k.dest ≠ []) →
    let d := s.die (dieOf k.dest)
    ∀ i, d.nextEntry? = some i →
    (d.entryMapped i = true →
      ∃ t, exec (.migrationArrival k.id) s = .next t ∧ (t.die (dieOf k.dest)).ring = d.ring ++ [{ k with entry := i }] ∧
        t.packets = eraseFirst (fun x => x.id == k.id) s.packets ∧ t.cores = s.cores) ∧
    (d.entryMapped i = false →
      ∃ t, exec (.migrationArrival k.id) s = .next t ∧ (t.die (dieOf k.dest)).ring = d.ring ∧ t.packets = s.packets ∧ MemoryKept s t)) ∧
  (∀ (s : State) (d : Nat) (k : Packet), ((s.die d).ring.find? fun x => decide ((s.core x.dest).arrivals.length < 16)) = some k →
    ∃ t, exec (.overflowRefill d) s = .next t ∧ (t.core k.dest).arrivals = (s.core k.dest).arrivals ++ [k] ∧
      (t.die d).ring = eraseFirst (fun x => x.dest == k.dest) (s.die d).ring ∧ MemoryKept s t) ∧
  ∀ (s : State) (n i : Nat) (k : Packet) (rest : List Packet), (s.core n).arrivals = k :: rest → (s.core n).installAt ≠ some s.beat →
    i < 8 → s.arrivalSlot n k.ctx i = true → (∀ j, j < i → s.arrivalSlot n k.ctx j = false) →
    ∃ t, exec (.migrationInstall n) s = .next t ∧ t.thread? ⟨n, i⟩ = some (k.thread s.beat) ∧ (t.core n).arrivals = rest ∧
      (t.core n).installAt = some s.beat

/-- R298, R299, R301, R315-R317, R324: the host's post and the dispatcher's acceptance make a record the context's next
launch; the dispatcher places the next band, and a placed band starts: each thread at its record's entry, in run mode,
with s3 the argument and rng of its place, issuing from the next rotation; a running band that is over gives back all that
it held; a launch that is over has its STATUS filled. Where it goes beyond the manual's words it rests on the model's
choices of logs 22 and 49. -/
def Obligations.LaunchEvents : Prop :=
  (∀ (s : State) (ctx : Nat) (a : Word), s.powered = true →
    (∀ st, s.postCheck ctx a = .bad st → ∃ t, exec (.post ctx 8 a) s = .next t ∧ lookupD t.postStat ctx 0 = ofN st ∧ MemoryKept s t ∧
      t.launches = s.launches) ∧
    (∀ key r, key % 64 = 0 → s.postCheck ctx a = .ok key r → Unwaited s key → ∃ t l, exec (.post ctx 8 a) s = .next t ∧
      lookupD t.postStat ctx 0 = ofN (s.nextLaunch ctx * 2 ^ 32) ∧ t.launches = s.launches ++ [l] ∧ l.ctx = ctx ∧ l.num = s.nextLaunch ctx ∧
      l.rec_ = r ∧ l.nextBand = 0 ∧ l.ended = 0 ∧ t.full key = true ∧ t.full (key + 56) = false) ∧
    (∀ key reason, s.postCheck ctx a = .refused key reason → reason < 16 → Unwaited s (key + 56) → ∃ t, exec (.post ctx 8 a) s = .next t ∧
      lookupD t.postStat ctx 0 = ofN (4 + reason * 2 ^ 8) ∧ t.full (key + 56) = true ∧ t.readMem (key + 56) 8 = 2 + reason * 2 ^ 8 ∧
      t.launches = s.launches) ∧
    (s.postCheck ctx a = .wait → ∃ t, exec (.post ctx 8 a) s = .next t ∧ t.postStat = s.postStat ∧ t.launches = s.launches ∧ MemoryKept s t)) ∧
  (∀ (s : State) (x : Posted) (r : ThreadRef) (th : Thread) (va : Word) (d since : Nat) (b : Word),
    s.posted.find? (fun p => !s.atCapacity p.ctx) = some x → x.poster = some r → s.thread? r = some th →
    th.wait = some ⟨.launch va d, since, b⟩ →
    ∃ t l, exec .launchAccept s = .next t ∧ t.posted = s.posted.erase x ∧ t.launches = s.launches ++ [l] ∧ l.ctx = x.ctx ∧
      l.num = s.nextLaunch x.ctx ∧ l.rec_ = x.rec_ ∧ MemoryKept s t ∧
      t.thread? r = some { th.writeS d (ofN (s.nextLaunch x.ctx * 2 ^ 32)) s.beat with wait := none, pc := nextPc th.pc }) ∧
  (∀ (s : State) (l : Launch) (b : Nat) (rs : List Region) (f : Fit), s.nextMove = some (.place l b rs f) →
    ∃ t x, exec .bandPlace s = .next t ∧ t.bands = s.bands ++ [x] ∧ x.ref = ⟨l.ctx, l.num, b⟩ ∧ x.state = .placed ∧ x.cores = f.cores ∧
      x.cluster = f.cluster ∧ x.restart = rs ∧ x.saved = none ∧ x.slots.length = l.rec_.threads) ∧
  (∀ (s : State) (b : BandRef) (x : Band) (l : Launch), s.band? b = some x → s.launch? b.ctx b.launch = some l → x.state = .placed →
    x.slots.Nodup → (∀ r ∈ x.slots, r.slot < 8) →
    ∃ t, exec (.bandStart b) s = .next t ∧ t.band? b = some { x with state := .running, restart := [], out := false } ∧
      ∀ i r, x.slots[i]? = some r → x.restart[i]? = none → ∃ z, t.thread? r = some z ∧ z.pc = l.rec_.entry ∧ z.mode = .run ∧
        z.s[3]? = some l.rec_.args ∧ z.s[1]? = some 0 ∧ z.launch = l.num ∧ z.band = b.band ∧ z.tib = i ∧ z.ctx = l.ctx ∧
        z.rng = rngSeed l.num b.band i ∧ z.notBefore = s.beat + 1 ∧ z.trapVec = 0 ∧ z.fpCtl = 0 ∧ z.portCfg = 0 ∧ z.v = Thread.blank.v) ∧
  (∀ (s : State) (b : BandRef) (x : Band) (l : Launch), s.band? b = some x → s.launch? b.ctx b.launch = some l → x.state = .running →
    s.bandDone x = true →
    ∃ t, exec (.bandEnd b) s = .next t ∧ t.band? b = none ∧ t.launch? b.ctx b.launch = some { l with ended := l.ended + 1 } ∧
      ∀ n, ∀ g ∈ (t.core n).grants, g.band ≠ b) ∧
  ∀ (s : State) (q : LaunchRef) (l : Launch) (code : Nat), s.launch? q.ctx q.launch = some l → l.code? = some code → s.bandsOf q = [] →
    s.held l.rec_.status = false → Unwaited s l.rec_.status → q.launch < 2 ^ 32 →
    ∃ t, exec (.launchEnd q) s = .next t ∧ t.launch? q.ctx q.launch = none ∧ t.full l.rec_.status = true ∧
      t.readMem l.rec_.status 8 = code + q.launch * 2 ^ 32

/-! ## Translation entries, ports and registers by event, saving, rotations -/

/-- R128, R281-R284: TLBW, whose four rows share one word and act by the OP in s(A): an invalid target raises ACCESS with
0x100; OP 0 writes the entry, first of its unit's second level, and releases the page's misses, but does not move a pinned
page; OP 2 fails the misses of the page; OP 1 and OP 3 remove the entries of the page or of the context, and a pinned page
raises ACCESS with 0x200. Where it goes beyond the manual's words it rests on the model's choices of logs 26 and 66. -/
def Obligations.TranslationWrites : Prop :=
  ∀ (p : Pred) (a b : Reg),
    let m := { Meta.scalar [a.toNat, b.toNat] [] with priv := true }
    let x (z : Thread) := z.readS a.toNat
    let y (z : Thread) := z.readS b.toNat
    let u (s : State) := unitOf s.cur.core
    let valid (s : State) (z : Thread) : Prop := tlbInvalid (roleOf s.cur.core) (x z) (y z) = false
    let op (z : Thread) := wbits (x z) 1 0
    let g (z : Thread) := tlbTarget (x z)
    let inPage (z : Thread) (q : Miss) : Prop := q.failed = none ∧ q.ctx = (g z).ctx ∧ (g z).within (q.vpn * 2 ^ 16) = true
    let tlbw (i : Instr) : Prop :=
      Traps i m p (fun s z => ¬valid s z) .access x (fun _ => 0x100) ∧
      Traps i m p (fun s z => valid s z ∧ op z = 0 ∧ s.movesPinned (u s) (g z) (tlbEntry (g z) (y z)) = true) .access x (fun _ => 0x200) ∧
      Gives i m p (fun s z => valid s z ∧ op z = 0 ∧ s.movesPinned (u s) (g z) (tlbEntry (g z) (y z)) = false)
        (fun s z t w => MemoryKept s t ∧ w.pc = nextPc z.pc ∧ w.s = z.s ∧ (t.unit (u s)).tlb.head? = some (tlbEntry (g z) (y z)) ∧
          (∀ e ∈ (t.unit (u s)).tlb.tail, e ∈ (s.unit (u s)).tlb ∧ (g z).overlaps e = false) ∧
          ∀ q, q ∈ (t.unit (u s)).misses ↔ q ∈ (s.unit (u s)).misses ∧ ¬inPage z q) ∧
      Gives i m p (fun s z => valid s z ∧ op z = 2)
        (fun s z t w => MemoryKept s t ∧ w.pc = nextPc z.pc ∧ w.s = z.s ∧ (t.unit (u s)).tlb = (s.unit (u s)).tlb ∧
          ∀ q ∈ (t.unit (u s)).misses, q.ctx = (g z).ctx → q.vpn = (g z).va / 2 ^ 16 → q.failed ≠ none) ∧
      (Gives i m p (fun s z => valid s z ∧ (op z = 1 ∨ op z = 3) ∧ s.pinnedIn (g z) = false ∧
          roleOf s.cur.core ≠ .dieCtl ∧ s.usesRange [u s] (g z) = false)
        (fun s z t w => MemoryKept s t ∧ w.pc = nextPc z.pc ∧ w.s = z.s ∧
          (t.unit (u s)).tlb = (s.unit (u s)).tlb.filter (fun e => !(g z).overlaps e) ∧
          ∀ n, unitOf n = u s → ∀ e ∈ (t.core n).utlb, (g z).overlaps e = false)) ∧
      let units (s : State) (z : Thread) := tlbUnits s.cur.core (op z)
      Runs i m p (fun s z => valid s z ∧ (op z = 1 ∨ op z = 3) ∧ s.pinnedIn (g z) = false ∧ s.usesRange (units s z) (g z) = false)
        (fun s z => (units s z).foldl (fun t v => t.removeEntries v (g z)) s) ∧
      (∀ s th, Ready m p s th → let z := th.begin_ 1
        valid (begun m s th) z → op z = 1 ∨ op z = 3 → (begun m s th).pinnedIn (g z) = false →
        (begun m s th).usesRange (units s z) (g z) = true →
        exec i s = .next (((units s z).foldl (fun t v => t.removeEntries v (g z)) s).await s.cur .older)) ∧
      ∀ s th, Ready m p s th → th.wait = none → valid (begun m s th) (th.begin_ 1) → op (th.begin_ 1) = 1 ∨ op (th.begin_ 1) = 3 →
        (begun m s th).pinnedIn (g (th.begin_ 1)) = true →
        exec i s = .next ((s.forgetFailures s.cur).raise s.cur .access (x (th.begin_ 1)) 0x200 th.ipc)
    tlbw (.tlbwWriteEntry p a b) ∧ tlbw (.tlbwInvalidatePage p a b) ∧ tlbw (.tlbwFailMiss p a b) ∧ tlbw (.tlbwInvalidateContext p a b)

/-- R63, R64: s0 reads zero and ignores writes; in inbound port mode s30 reads the head of its queue and discards writes;
in outbound mode s31 reads zero and a write is pushed with OTAG; any other register reads what was written last. R73,
R179: PORTCFG and an MTS of port.cfg write the register with its reserved fields zero, name a core of the context for each
direction that they enable or raise SUB_RANGE, and wait for the outbound queue to empty before DN changes. Where it goes
beyond the manual's words it rests on the model's choices of log 30. -/
def Obligations.RegistersAndPorts : Prop :=
  (∀ (th : Thread) (r q : Nat) (w : Word) (at_ : Nat),
    th.readS 0 = 0 ∧ th.writeS 0 w at_ = th ∧
    (th.inEn = true → th.readS 30 = (th.inq.head?.map PortWord.data).getD 0 ∧ th.writeS 30 w at_ = th) ∧
    (th.outEn = true → th.readS 31 = 0 ∧ th.writeS 31 w at_ = { th with outq := th.outq ++ [⟨w, BitVec.ofNat 8 (wbits th.portTag 15 8), at_⟩] }) ∧
    (r < 32 → r ≠ 0 → ¬(r = 30 ∧ th.inEn = true) → ¬(r = 31 ∧ th.outEn = true) → (th.writeS r w at_).readS r = w ∧
      (th.writeS r w at_).outq = th.outq) ∧
    (q ≠ r → (th.writeS r w at_).readS q = th.readS q)) ∧
  ∀ (p : Pred) (a : Reg),
    let cfg (i : Instr) (m : Meta) : Prop :=
      let v (y : Thread) := y.readS a.toNat &&& 0x0003FFFF03FFFF03#64
      let up (s : State) (y : Thread) : Prop := wbit (v y) 0 = true → s.coreNamed? y.ctx (wbits (v y) 22 8) ≠ none
      let dn (s : State) (y : Thread) : Prop := wbit (v y) 1 = true → s.coreNamed? y.ctx (wbits (v y) 46 32) ≠ none
      let turns (y : Thread) : Prop := wbits (v y) 49 32 ≠ wbits y.portCfg 49 32 ∨ y.outEn = true ∧ wbit (v y) 1 = false
      Gives i m p (fun s y => up s y ∧ dn s y ∧ (turns y → y.outq = []))
        (fun s y t z => MemoryKept s t ∧ OthersGoOn s t ∧ z.portCfg = v y ∧ z.pc = nextPc y.pc ∧ z.s = y.s ∧ z.outq = y.outq) ∧
      Blocks i m p (fun s y => up s y ∧ dn s y ∧ turns y ∧ y.outq ≠ []) (fun _ y => .work (.portCfg (v y)))
        (fun _ => BitVec.allOnes 64) (fun s _ => s) ∧
      Traps i m p (fun s y => ¬up s y) .subRange (fun _ => 0) (fun y => ofN (wbits (v y) 22 8)) ∧
      Traps i m p (fun s y => up s y ∧ ¬dn s y) .subRange (fun _ => 0) (fun y => ofN (wbits (v y) 46 32))
    cfg (.portcfg p a) (.scalar [a.toNat] []) ∧ cfg (.mts p a 0x024) (mtsMeta a 0x024)


/-- R120, R179, R182, R334: the rows that name one effect of an MTS or MFS take place as that instruction's step, in its
slot's cycle (R155); a write to mbox.base or mbox.size that waited for a delivery takes effect after it. Where it goes
beyond the manual's words it rests on the model's choices of log 39. -/
def Obligations.RegisterEvents : Prop :=
  ∀ (s : State) (r : ThreadRef) (th : Thread) (w : BitVec 32) (d : Nat) (v : Word), s.thread? r = some th →
    s.fetchFor r = .word w → s.inTurn r = true →
    let s' := { s.turnTo r with cur := r, ir := w }
    let writes (n : BitVec 15) : Prop := s.atSreg r 0x21 n.toNat = some d ∧ th.readS d = v ∧ Ready (mtsMeta (.ofNat 5 d) n) .always s' th
    (writes 0x028 → ∃ t z, exec (.rngWrite r v) s = .next t ∧ t.thread? r = some z ∧ z.rng = if v = 0 then 1 else v) ∧
    (writes 0x024 → v &&& 3 = 0 → th.outq = [] → ∃ t z, exec (.portCfgWrite r v) s = .next t ∧ t.thread? r = some z ∧
      z.portCfg = v &&& 0x0003FFFF03FFFF03#64) ∧
    (writes 0x4001 → ∃ t, exec (.ctlEvpendClear r v) s = .next t ∧ (t.slot r).evpend = (s.slot r).evpend &&& ~~~v) ∧
    (writes 0x4003 → ∃ t, exec (.ctlTimerWrite r v) s = .next t ∧ (t.slot r).timer = v ∧ (t.slot r).timerFired = false) ∧
    (writes 0x062 → r.slot < 8 → (∀ j, j < r.slot → s.atSreg ⟨r.core, j⟩ 0x21 0x062 = none) → v.toNat < (s.core r.core).mboxSize →
      ∃ t, exec (.mboxHeadWrite r.core v) s = .next t ∧ (t.core r.core).mboxHead = wbits v 17 3 * 8) ∧
    (∀ (x : Reg) (un : Bool), let n : BitVec 15 := if un then 0x4051 else 0x4050
      s.atSreg r 0x20 n.toNat = some x.toNat → Ready { Meta.scalar [] [x.toNat] with priv := true } .always s' th → x ≠ 0 → x ≠ 30 → x ≠ 31 →
      let q := s.die (dieOf r.core)
      ∃ t z, exec (.errCountRead r un x) s = .next t ∧ t.thread? r = some z ∧ z.readS x.toNat = ofN (if un then q.errUncorr else q.errCorr) ∧
        (t.die (dieOf r.core)).errUncorr = (if un then 0 else q.errUncorr) ∧ (t.die (dieOf r.core)).errCorr = if un then q.errCorr else 0) ∧
    ∀ (n : Nat) (x : Bool × Nat) (rest : List (Bool × Nat)), (s.core n).mboxPend = x :: rest → (s.core n).deliveries = [] →
      ∃ t, exec (.mboxBaseWrite n) s = .next t ∧ (t.core n).mboxPend = rest ∧ (t.core n).mboxHead = 0 ∧ (t.core n).mboxTail = 0 ∧
        (t.core n).mboxBase = (if x.1 then x.2 else (s.core n).mboxBase) ∧ (t.core n).mboxSize = if x.1 then (s.core n).mboxSize else x.2

/-- R80, R81: a thread's save image, written back over any thread, gives the thread's registers again: every bit of every
field that the image holds, reserved fields zero (R11, R71-R73) and the PC canonical (R63); control mode, and trap.cause's
bit 8, come back only where the thread has control privilege already (R68). Where it goes beyond the manual's words it
rests on the model's choices of log 28. -/
def Obligations.ImageRestores : Prop :=
  ∀ (s : State) (r : ThreadRef) (th base : Thread) (beat : Nat),
    let y := base.restore (s.imageOf r th) beat
    y.pc = pcOf th.pc ∧ (th.mode ≠ .control ∨ base.privileged = true → y.mode = th.mode) ∧
    (base.privileged = false → y.mode ≠ .control) ∧ y.halted = th.halted ∧ (∀ i, 1 ≤ i → i < 32 → y.s[i]? = th.s[i]?) ∧ y.f = th.f ∧ y.k = th.k ∧ y.v = th.v ∧
    (scopeOk th.scopeD = true → y.scopeD = th.scopeD) ∧ y.feBudget = th.feBudget ∧ y.chBudget = th.chBudget ∧ y.barBudget = th.barBudget ∧
    y.portCfg = th.portCfg &&& 0x0003FFFF03FFFF03#64 ∧ y.portTag = th.portTag &&& 0xFFFF#64 ∧
    y.fpCtl = fpCtlMask base.fpCtl th.fpCtl ∧ y.fpFlags = th.fpFlags &&& 0x1F#64 ∧ (th.rng ≠ 0 → y.rng = th.rng) ∧ y.lmask = th.lmask ∧
    y.trapVec = th.trapVec &&& ~~~(0xFFF#64) ∧ y.trapCause = th.trapCause ∧ y.trapCtl = (base.privileged && th.trapCtl) ∧ y.trapPc = th.trapPc ∧
    y.trapAddr = th.trapAddr ∧ y.trapInfo = th.trapInfo ∧ y.sqLeftpc = th.sqLeftpc ∧ y.sq = th.sq ∧ y.sqRdv = th.sqRdv % 32 ∧
    y.sqCh = th.sqCh % 2 ^ 15 ∧ y.sqDepth = th.sqDepth % 16 ∧ y.copyBatch = th.copyBatch % 2 ^ 32 ∧ y.mxBatch = th.mxBatch % 2 ^ 32 ∧
    (base = th → (∀ o ∈ th.outs, o.reg < 32 ∧ o.left < 16) → y.outs = th.outs) ∧
    (th.outs.length ≤ 4 → base.outs.length ≤ 4 → (∀ o ∈ th.outs, o.reg < 32 ∧ o.left < 16) →
      y.outs.map (fun o => (o.reg, o.cls, o.left)) = th.outs.map fun o => (o.reg, o.cls, o.left)) ∧
    (th.heldTakes.length ≤ 4 → (∀ a ∈ th.heldTakes, a.toNat % 8 = 0) → y.heldTakes = th.heldTakes) ∧
    (th.inq.length ≤ 8 → y.inq.map (fun p => (p.data, p.tag)) = th.inq.map fun p => (p.data, p.tag)) ∧
    (th.inq.length ≤ 8 → th.outq.length ≤ 8 → y.outq.map (fun p => (p.data, p.tag)) = th.outq.map fun p => (p.data, p.tag)) ∧
    (th.region = none → y.region = none) ∧
    ∀ q, th.region = some q → q.s.length = 15 → q.f.length = 12 → y.region = some { q with pc := pcOf q.pc }

/-- R303-R305, R309-R312: at a beat boundary, a band that is chosen for pre-emption is being saved with its closed set, a
victim whose record no save area can take being passed over and, when there is no other, told of; once at rest it is
saved, its record at a place of its context's save area and its slots vacant, or discarded, if it still may be, and
pending again with its snapshots; a saved band resumes in its slots from its images, and one whose record has another
version or an uncorrectable error is lost. Where it goes beyond the manual's words it rests on the model's choices of logs
22 and 28. -/
def Obligations.BandsSave : Prop :=
  (∀ s : State, s.boundary = false → exec .preempt s = .next s) ∧
  (∀ (s : State) (v : Band), s.boundary = true → s.nextMove = none → (s.bands.any fun b => b.state == .saving) = false →
    let first : Option Band := priorities.findSome? fun p => (s.victimAt p).filter s.canTake
    (first = some v → s.closedSet v = [v] →
      ∃ t, exec .preempt s = .next t ∧ t.band? v.ref = some { v with state := .saving, discard := s.discards v, group := 0 }) ∧
    (first = some v → 1 < (s.closedSet v).length → ∃ t, exec .preempt s = .next t ∧ ∀ x ∈ s.closedSet v,
      t.band? x.ref = some { x with state := .saving, discard := s.discards x, group := s.serial + 1 }) ∧
    (first = none → priorities.findSome? s.victimAt = some v → exec .preempt s = .next (s.postDie (v.cluster / 16) 9))) ∧
  (∀ (s : State) (b : BandRef) (x : Band), s.band? b = some x → x.state = .saving →
    (∀ y ∈ s.groupOf x, y.state = .saving → s.bandRests y = true) →
    (s.discarding x = true → ∀ l, s.launch? b.ctx b.launch = some l →
      ∃ t, exec (.bandSave b) s = .next t ∧ t.band? b = none ∧
        t.launch? b.ctx b.launch = some { l with redo := insertKey l.redo b.band (s.snapshots x) } ∧
        ∀ q ∈ s.threadsOf b, t.thread? q.1 = none) ∧
    (∀ c o, s.discarding x = false → s.context? b.ctx = some c →
      (∀ f ∈ s.flights, ∀ tib, f.of (s.member x tib).1 = true → f.stage.entry? = none) →
      freePart? c (s.savedParts c) (planOf x (s.barriersOf x).length (s.sections x)).bytes = some o →
      ∃ t v, exec (.bandSave b) s = .next t ∧ t.band? b = some { x with state := .saved, saved := some v } ∧ v.key = c.save + o ∧
        v.beat = s.beat ∧ t.readWord v.key = 0x0001444E4142 ∧ (∀ q ∈ s.threadsOf b, t.thread? q.1 = none)) ∧
    (∀ c, s.discarding x = false → s.context? b.ctx = some c →
      freePart? c (s.savedParts c) (planOf x (s.barriersOf x).length (s.sections x)).bytes = none →
      ∃ t, exec (.bandSave b) s = .next t ∧
        t.band? b = some (if x.discard then { x with state := .running, discard := false, group := 0 } else x))) ∧
  (∀ (s : State) (b : BandRef) (x : Band) (v : SavedBand), s.nextMove = some (.resume b) → s.band? b = some x → s.groupOf x = [x] →
    x.saved = some v →
    let secs := s.savedSections x v
    let r := planOf x v.bars.length secs
    (s.recordSpoilt v = true ∨ s.versionsOk x v r = false → ∀ l, s.launch? b.ctx b.launch = some l →
      ∃ t, exec (.bandResume b) s = .next t ∧ t.band? b = some { x with state := .lost } ∧ MemoryKept s t ∧
        t.launch? b.ctx b.launch = some { l with lost := true }) ∧
    (s.recordSpoilt v = false → s.versionsOk x v r = true → v.detached = [] → v.pubs = [] → v.records = [] → v.queues = [] → v.handlers = [] → s.parkedIn secs = [] →
      (v.threads.map fun q => q.2.1).Nodup → (∀ q ∈ v.threads, q.2.1.slot < 8) →
      ∃ t, exec (.bandResume b) s = .next t ∧ t.band? b = some { x with state := .running, saved := none, group := 0 } ∧
        ∀ q ∈ v.threads, t.thread? q.2.1 =
          some (q.2.2.resumeAt (fun j => s.readWord (v.key + r.b4 + 6144 * q.1 + 8 * j)) s.beat (s.beat - v.beat)))) ∧
  ∀ (s : State) (prio : Nat), prio ∈ s.feReports →
    let s0 := { s with feReports := s.feReports.erase prio }
    ((∀ b ∈ s.bands, b.saved = none) → exec (.feTimeoutReport prio) s = .next s0) ∧
    ∀ x v, s.bands = [x] → x.saved = some v → x.state = .saved → s0.bandPrio x.ref < prio → s0.resumable x = true →
      s0.wanted (s0.bandPrio x.ref) v = false → exec (.feTimeoutReport prio) s = .next (s0.resumeGroup x)

/-- R7, R155, R157, R158, R174: a rotation ends once nothing that belongs to it is left (R162, R194, R264, R387): every
slot is counted in exactly one class, a slot that issued in class issued, each core's histogram counts the slots that
issued, and the beat goes on by one; the next rotation begins at slot 0's cycle. A package without power stands still, and
so does one whose beat has not started (R356). Where it goes beyond the manual's words it rests on the model's choices of
logs 12, 51 and 65. -/
def Obligations.RotationTurns : Prop :=
  (∀ s : State, s.powered = false ∨ s.beatRuns = false ∨ s.overdue = true → exec .rotation s = .next s) ∧
  (∀ s : State, s.powered = true → s.beatRuns = true → s.overdue = false → exec .rotation s =
    .next (State.beginRotation
      { s with cores := s.cores.map fun p => (p.1, s.turnCore p.1 p.2), beat := s.beat + 1, cycle := 0, turned := [] })) ∧
  (∀ (s : State) (n i : Nat) (sl : Slot) (th : Thread), sl.thread = some th → th.bornAt ≠ some s.beat →
    ∃ y, (s.turnSlot n (sl, i)).thread = some y ∧ y.issued = false ∧ y.pc = th.pc ∧ y.s = th.s ∧
      y.rotIssued + y.rotMem + y.rotMsg + y.rotVacant = th.rotIssued + th.rotMem + th.rotMsg + th.rotVacant + 1 ∧
      (th.issued = true → y.rotIssued = th.rotIssued + 1) ∧ (th.issued = false → th.live = false → y.rotVacant = th.rotVacant + 1) ∧
      (th.live = true → (y.rotIssued = th.rotIssued + 1 ↔ (th.issued = true ∨ th.busy ≠ 0)) ∧ y.rotVacant = th.rotVacant) ∧
      (th.member = true → (y.sq = .held ↔ ∃ e ∈ th.subBuf, e.rot + th.sqDepth ≤ s.beat))) ∧
  (∀ (s : State) (n i : Nat) (sl : Slot), sl.thread = none → s.turnSlot n (sl, i) =
    { sl with vacantCount := sl.vacantCount + (if sl.used then 0 else 1), used := false }) ∧
  ∀ (s : State) (n : Nat) (c : Core), s.issuedSlots n ≤ 8 ∧
    ∀ k, k < 9 → (s.turnCore n c).rotHist[k]? = some ((c.rotHist[k]?).getD 0 + if k = s.issuedSlots n then 1 else 0)

/-! ## Events of channels, ports and mailboxes -/

/-- R162, R165-R168, R171, R178: a published word becomes due to a member one depth after its rotation; a PUB that waited
opens the free channel, and a SUB that waited for it is answered; a rendezvous that is met releases the JOINs of its id
and lets the publisher go on from the next rotation; each wait ends so only within its budget, and one that is exhausted
raises CH_TIMEOUT (R387); a member whose publication has ended leaves for the resume PC once it has executed everything,
and no earlier. Where it goes beyond the manual's words it rests on the model's choices of log 27. -/
def Obligations.ChannelEvents : Prop :=
  ∀ (s : State) (t : ThreadRef) (th : Thread), s.thread? t = some th →
    let waits (k : WaitKind) (since : Nat) (b : Word) : Prop := th.wait = some ⟨k, since, b⟩
    (∀ e, th.subBuf[th.subDue]? = some e → th.member = true → e.rot + th.sqDepth ≤ s.beat →
      exec (.channelInstructionDue t) s = .next (s.setThread t { th with subDue := th.subDue + 1 })) ∧
    (∀ d a b, waits (.pub d) a b → exhausted a b s.beat = false → (s.core t.core).pub = none →
      (∀ q x k, s.thread? q = some x → x.wait.map Wait.kind ≠ some (.sub k)) →
      ∃ u z, exec (.pubAccept t) s = .next u ∧ u.thread? t = some z ∧ z.sq = .publishing ∧ z.sqDepth = d ∧ z.wait = none ∧
        z.pc = nextPc th.pc ∧ z.s = th.s ∧ (u.core t.core).pub = some ⟨s.serial, t.slot, d, th.ctx, [], [], [], false, none⟩) ∧
    (∀ d a b q x c a' b', waits (.pub d) a b → exhausted a b s.beat = false → (s.core t.core).pub = none → s.thread? q = some x →
      x.wait = some ⟨.sub c, a', b'⟩ → exhausted a' b' s.beat = false →
      (∀ r y k, r ≠ q → s.thread? r = some y → y.wait.map Wait.kind ≠ some (.sub k)) →
      s.physical? x.ctx c = some t.core → x.ctx = th.ctx → roleOf q.core = .compute → distance t.core q.core ≤ d →
      ∃ u y, exec (.pubAccept t) s = .next u ∧ u.thread? q = some y ∧ y.sq = .subscribed ∧ y.sqCh = c ∧ y.sqDepth = d ∧
        y.subBuf = [] ∧ y.wait = none ∧ y.pc = nextPc x.pc ∧ y.s = x.s) ∧
    (∀ i id t0 b k, i = .rdvComplete t ∧ k = .rdv id ∨ i = .chSyncComplete t ∧ k = .chSync ∧ id = 0 →
      waits k t0 b → ∀ p, (s.core t.core).pub = some p → t0 + p.depth ≤ s.beat → s.syncMet p t0 = true →
      id = 0 ∨ ((s.core t.core).away[id]?).getD 0 = 0 → exhausted t0 b s.beat = false →
      ∃ u, exec i s = .next u ∧ u.thread? t = some { th with wait := none, pc := nextPc th.pc, notBefore := s.beat + 1 } ∧
        ∀ q x a c, s.thread? q = some x → x.wait = some ⟨.join id, a, c⟩ → exhausted a c s.beat = false → x.publication = p.serial →
          s.physical? x.ctx x.sqCh = some t.core →
          ∃ y, u.thread? q = some y ∧ y.sq = .subscribed ∧ y.subBuf = [] ∧ y.wait = none ∧ y.pc = nextPc x.pc ∧ y.s = x.s) ∧
    (∀ w, th.wait = some w → w.budget ≠ BitVec.allOnes 64 → w.since + w.budget.toNat < s.beat →
      let raised (info : Word) (x : State) : Prop := exec (.chTimeout t) s = .next (x.raise t .chTimeout 0 info th.pc)
      ((w.kind = .chSync ∨ (∃ d, w.kind = .pub d) ∨ ∃ c, w.kind = .sub c) → raised 0 s) ∧
      (∀ id, w.kind = .rdv id → raised (ofN id) s) ∧ (w.kind = .join 0 → raised 0 s) ∧
      ∀ id, id ≠ 0 → w.kind = .join id → raised (ofN id) (s.modAway th id (· + 1))) ∧
    ∀ n,
      let mayGo : Prop := th.member = true ∧ th.subBuf = [] ∧ th.busy = 0 ∧ th.wait = none ∧ th.killAt = none ∧ th.halted = false
      (∀ pc, th.endAt = some pc → mayGo → s.physical? th.ctx th.sqCh = some n →
        ∃ u x, exec (.publicationEnd n) s = .next u ∧ MemoryKept s u ∧ u.thread? t = some x ∧ x.sq = .fetching ∧ x.pc = pc ∧
          x.sqLeftpc = pc ∧ x.endAt = none ∧ x.s = th.s) ∧
      (th.endAt = none ∨ ¬mayGo → ∃ u, exec (.publicationEnd n) s = .next u ∧ u.thread? t = some th)

/-- R173, R180, R184, R185, R279, R280: a target of SQKILL halts at its boundary, and the killer goes on once its targets
have; a port word moves from the sender's queue to the queue of the thread that takes it, the words a thread that is gone
has left behind before those of its successor; a SEND that waited, its header read already, reads the words that follow
and reserves its room; the mailbox unit writes a message's words, the header last, each set-full, and posts MBOX; a
translation unit sends a miss message of two words after its header to its service core. Where it goes beyond the manual's
words it rests on the model's choices of logs 9, 21, 23 and 38. -/
def Obligations.MessageEvents : Prop :=
  ∀ (s : State) (t : ThreadRef) (th : Thread), s.thread? t = some th →
    let halts (r : Nat) : Prop := th.killAt = some r ∧ r ≤ s.beat ∧ th.halted = false ∧ th.busy = 0 ∧
      (∀ n c o, th.wait.map Wait.kind ≠ some (.sqkill n c o)) ∧ (th.member = true → th.subBuf = [])
    (∀ r, halts r →
      (∃ u z, exec (.sqkillTargetHalt t) s = .next u ∧ u.thread? t = some z ∧ z.halted = true ∧ z.wait = none ∧ z.outs = [] ∧ z.s = th.s) ∧
      ∀ k y n c a b, k ≠ t → s.thread? k = some y → y.wait = some ⟨.sqkill n c (some [t]), a, b⟩ →
        (∀ p, (s.core t.core).pub = some p → k ∉ p.members) →
        ∃ u, exec (.sqkillTargetHalt t) s = .next u ∧ u.thread? k = some { y with wait := none, pc := nextPc y.pc }) ∧
    (∀ w rest n x, th.outq = w :: rest → (s.core t.core).left = [] → s.physical? th.ctx (wbits th.portCfg 46 32) = some n →
      let r : ThreadRef := ⟨n, wbits th.portCfg 49 47⟩
      s.thread? r = some x → x.halted = false → x.ctx = th.ctx → x.inEn = true → wbits x.portCfg 22 8 = s.idCore th.ctx t.core →
      wbits x.portCfg 25 23 = t.slot → x.inq.length < 8 →
      ∃ u y z, exec (.portWordAccept t) s = .next u ∧ MemoryKept s u ∧ u.thread? t = some z ∧ z.outq = rest ∧ u.thread? r = some y ∧
        y.inq = x.inq ++ [⟨w.data, w.tag, max (w.avail + distance t.core n) s.beat⟩] ∧ y.pc = x.pc ∧ y.s = x.s) ∧
    (∀ ctx cfg w rest r x, (s.core t.core).left = [(t.slot, ctx, cfg, w :: rest)] → s.portTaker? t ctx cfg = some r → s.thread? r = some x →
      ∃ u y, exec (.portWordAccept t) s = .next u ∧ MemoryKept s u ∧ u.thread? r = some y ∧ y.s = x.s ∧
        y.inq = x.inq ++ [⟨w.data, w.tag, max (w.avail + distance t.core r.core) s.beat⟩] ∧
        (u.core t.core).left = if rest = [] then [] else [(t.slot, ctx, cfg, rest)]) ∧
    (∀ n va a b h ws at_ tail pad, th.wait = some ⟨.send n (ws.length + 1) va h, a, b⟩ → s.heldBy n th.ctx = true →
      s.sendWords t th (va + 8) ws.length = .ok ws → (s.core n).reserve? (s.core n).mboxHead (ws.length + 1) = some (at_, tail, pad) →
      ∃ u d, exec (.mboxReserve t) s = .next u ∧ MemoryKept s u ∧ u.thread? t = some { th with wait := none, pc := nextPc th.pc } ∧
        (u.core n).mboxTail = tail ∧ (u.core n).deliveries = (s.core n).deliveries ++ [d] ∧ d.sender = some t ∧
        d.words.map Prod.snd = (match pad with | some (_, q) => [ofN (q + 128)] | none => []) ++ ws ++
          [mboxHeader h (s.idCore th.ctx t.core) t.slot]) ∧
    (∀ n d rest o w, (s.core n).deliveries = d :: rest →
      let k := scratchKey n ((s.core n).mboxBase + o)
      s.held k = false → s.eccAt k = false → Unwaited s k →
      (d.words = [(o, w)] → (∀ q, d.sender = some q → s.allPerformed q d.upTo true = true) →
        ∃ u, exec (.mboxDelivery n) s = .next u ∧ u.readWord k = w ∧ u.full k = true ∧ (u.core n).deliveries = rest ∧
          ∀ j x, s.thread? ⟨n, j⟩ = some x → x.privileged = true → wbit (u.slot ⟨n, j⟩).evpend 0 = true) ∧
      ∀ q r, d.words = (o, w) :: q :: r → ∃ u, exec (.mboxDelivery n) s = .next u ∧ u.readWord k = w ∧ u.full k = true ∧
        (u.core n).deliveries = { d with words := q :: r } :: rest) ∧
    ∀ n m, ((s.unit n).misses.find? fun x => !x.sent && x.failed.isNone) = some m →
      let c := if 384 ≤ n then mastBase + 16 * (n - 384) else tsvcBase + n
      ∀ at_ tail pad, (s.core c).reserve? (s.core c).mboxHead 3 = some (at_, tail, pad) →
        ∃ u d, exec (.tlbMiss n) s = .next u ∧ MemoryKept s u ∧ (u.core c).mboxTail = tail ∧
          (u.core c).deliveries = (s.core c).deliveries ++ [d] ∧ d.sender = none ∧
          d.words.map Prod.snd = (match pad with | some (_, q) => [ofN (q + 128)] | none => []) ++
            [ofN (m.kind + m.ctx * 2 ^ 4 + m.vpn * 2 ^ 16), m.va,
             ofN (2 + 2 ^ 8 + s.idCore m.ctx m.first.core % 2 ^ 15 * 2 ^ 16 + m.first.slot * 2 ^ 31)] ∧
          (u.unit n).misses = modFirst (fun x => !x.sent && x.failed.isNone) (fun x => { x with sent := true }) (s.unit n).misses

/-! ## Events of threads, stores, results and copies -/

/-- R21, R25, R117, R156, R194, R204-R206: an instruction word is fetched from the word its address names, or its fault is
taken at the target; an undelivered record brings STORE_FAULT, in its slot's cycle (R155), with the lowest SEQ's address
and the number of records, all of them marked; a store leaves its queue in order, ten rotations later its piece is
written, or its fault recorded; a result is written to its register, or pushed to the port in issue order (R64), and one
that faulted is not. Where it goes beyond the manual's words it rests on the model's choices of logs 6, 10, 11, 31 and 60. -/
def Obligations.ThreadEvents : Prop :=
  ∀ (s : State) (t : ThreadRef) (th : Thread), s.thread? t = some th →
    (th.live = true → th.member = false → th.wait = none → s.nextWord? t th = none → s.stopping th = false →
      (∀ key e, s.resolve t th th.pc accFetch (.thread t) = .ok key e → s.eccAt key = false → s.held key = false →
        let w := BitVec.ofNat 32 (s.readAs (s.cipherFor th e) key 4)
        ∃ u, exec (.instructionFetch t) s = .next u ∧ MemoryKept s u ∧ u.thread? t = some { th with fetched := some (th.pc, w) } ∧
          (u.core t.core).icache = (th.ctx, th.pc, w) :: (s.core t.core).icache) ∧
      (∀ c info, s.resolve t th th.pc accFetch (.thread t) = .fault c info → s.canIssue t = true →
        exec (.instructionFetch t) s = .next ((s.forgetFailures t).raise t c th.pc info th.pc))) ∧
    (s.canIssue t = true → s.inTurn t = true → th.mode ≠ .trap → th.wait = none → th.trapDue = false → s.storeFaultPending t = true →
      let rs := (s.recordsOf t).filter fun r => !(s.core t.core).recNew.contains r.1
      exec (.storeFault t) s = .next ((s.turnTo t).deliverStoreFault t th.ipc) ∧
      ∀ r ∈ rs, (∀ q ∈ rs, q.1 ≠ r.1 → wbits r.2 63 32 < wbits q.2 63 32) → th.settled = true →
        (∀ c, s.context? th.ctx = some c → c.trace = false) →
        ∃ u z, exec (.storeFault t) s = .next u ∧ u.thread? t = some z ∧ z.mode = .trap ∧ z.trapCause = 9 ∧
          z.trapAddr = ofN (0xFFFFFFFFFFFBFF00 + 32 * r.1) ∧ z.trapInfo = ofN rs.length ∧ z.trapPc = th.ipc ∧
          z.pc = pcOf (th.trapVec + 576) ∧ z.s = th.s ∧ ∀ q ∈ rs, u.readWord (recordKey t.core (32 * q.1)) = q.2 ||| 0x80000#64) ∧
    (∀ q1 e q2, th.storeQ = q1 ++ e :: q2 → (∀ x ∈ q1, x.leftAt ≠ none ∧ x.id ≠ e.id) → e.leftAt = none → e.at_ < s.beat →
      (∀ x ∈ th.storeQ, x.leftAt ≠ some s.beat) →
      exec (.storeLeave t) s = .next (s.setThread t { th with storeQ := q1 ++ { e with leftAt := some s.beat } :: q2 })) ∧
    (∀ e q r va n data, th.storeQ = e :: q → e.leftAt = some r → r + 10 ≤ s.beat → e.pieces = [(va, n, data)] → e.failed = none →
      (∀ key cipher, s.checkPiece t th e va n = .ok key cipher → s.held key = false → s.grantSaved th.ctx key = false →
        s.blockedBy t e.id key false true false = false →
        ∃ u, exec (.storeCheck t) s = .next u ∧ u.thread? t = some { th with storeQ := q } ∧ u.flights = s.flights ∧ u.feFlips = s.feFlips ∧
          (Clear s cipher key n → ∀ i, i < n → u.readByte (key + i) = BitVec.ofNat 8 (data.toNat / 256 ^ i)) ∧
          (Clear s cipher key n → ∀ a, a < key ∨ key + n ≤ a → u.readByte a = s.readByte a) ∧
          ∀ k, cipher = .sealed k → ∀ a, u.readByte a = s.readByte a) ∧
      (∀ c i, s.checkPiece t th e va n = .bad c → e.vec = false → th.halted = false → s.freeRecord? t.core = some i →
        let k := recordKey t.core (32 * i)
        ∃ u, exec (.storeCheck t) s = .next u ∧ u.thread? t = some { th with storeQ := q } ∧ u.full k = true ∧
          u.readWord k = recordHeader t.slot c.code 0 false false n.log2 ((s.core t.core).recSeq + 1) ∧
          u.readWord (k + 8) = e.pc ∧ u.readWord (k + 16) = va ∧ u.readWord (k + 24) = data)) ∧
    ∀ id o, (th.outs.find? fun x => x.id == id) = some o →
      let mine := { th with outs := (modFirst (fun x => x.id == id) (fun x => { x with value := .written }) th.outs).filter fun x =>
        !(x.left == 0 && x.value == .written) }
      (∀ v, o.value = .word v → o.due ≤ s.beat → (o.reg = 31 → o.cls = .s → th.outEn = true →
          ∀ x ∈ th.outs, x.id < o.id → x.cls = .s → x.reg = 31 → x.value = .written) →
        ∃ u z, exec (.resultWrite t id) s = .next u ∧ MemoryKept s u ∧ OthersGoOn { s with cur := t } u ∧ u.thread? t = some z ∧
          z.outs = mine.outs ∧ z.pc = th.pc ∧ z.v = th.v ∧ z.f = th.f ∧
          z.outq = th.outq ++ (if o.reg = 31 ∧ th.outEn = true then [⟨v, BitVec.ofNat 8 (wbits th.portTag 15 8), s.beat⟩] else []) ∧
          (o.reg ≠ 0 → o.reg < 30 → z.readS o.reg = v) ∧
          ∀ r, r ≠ o.reg → z.readS r = th.readS r) ∧
      (∀ ls, o.value = .lanes ls → o.due ≤ s.beat → o.cls = .v → s.flight? id = none →
        ∃ u, exec (.resultWrite t id) s = .next u ∧ MemoryKept s u ∧
          u.thread? t = some (ls.foldl (fun a l => a.writeLane o.reg l.1 l.2) mine)) ∧
      ∀ c a info, o.value = .fault c a info → exec (.resultWrite t id) s = .next s

/-- R209: a copy whose turn it is moves its next word, the data and, by its mode, the bit: COPY gives the destination the
source's bit, FILL sets it, TAKE clears the source's; the copy then stands one word on, or is over; a NEED that finds its
source empty ends the copy with a record, KIND 2, that says so. A copy issued in control mode, and no other, between
frames of one confidential slot is decrypted and encrypted on its way (R338). Where it goes beyond the manual's words it
rests on the model's choices of logs 16 and 37. -/
def Obligations.CopyMoves : Prop :=
  ∀ (s : State) (n : Nat) (c : Copy), ((s.core n).copies.find? fun x => x.id == c.id) = some c → (s.core n).copyTurn c = true →
    c.record = none →
    let t : ThreadRef := ⟨n, c.slot⟩
    let th := engineThread c.ctx c.priv
    let sa := c.src + ofN (8 * c.w)
    let da := c.dst + ofN (8 * c.w)
    let sacc := if c.mode = 1 ∨ c.mode = 3 ∨ c.mode = 4 then accEngineFe (c.mode == 4) else accEngineRead
    let dacc := if c.mode = 1 ∨ c.mode = 2 then accEngineFe true else accEngineWrite
    ∀ sk se, s.engineResolve t th sa sacc true c.id = .ok sk se → s.held sk = false → s.grantSaved c.ctx sk = false →
      (c.mode = 3 → s.full sk = false → c.ended = false → ∀ i, s.freeRecord? n = some i →
        let k := recordKey n (32 * i)
        ∃ u, exec (.copyWord n c.id) s = .next u ∧ (u.core n).copies = eraseFirst (fun x => x.id == c.id) (s.core n).copies ∧
          u.full k = true ∧ u.readWord k = recordHeader c.slot 0 2 true false 3 ((s.core n).recSeq + 1) ∧ u.readWord (k + 8) = c.pc ∧
          u.readWord (k + 16) = sa ∧ u.readWord (k + 24) = ofN (8 * c.w)) ∧
      ∀ dk de, (c.mode = 3 → s.full sk = true) → s.engineResolve t th da dacc false c.id = .ok dk de → s.held dk = false →
        s.grantSaved c.ctx dk = false → Unwaited s sk → Unwaited s dk →
        let x := copyKeying c.priv (s.cipherFor th se) (s.cipherFor th de)
        Clear s x.2 dk 8 →
        ∃ u, exec (.copyWord n c.id) s = .next u ∧ u.flights = s.flights ∧
          u.readMem dk 8 = s.readAs x.1 sk 8 ∧
          (∀ a, a < dk ∨ dk + 8 ≤ a → u.readByte a = s.readByte a) ∧
          (∀ a, wordKey a ≠ wordKey sk → wordKey a ≠ wordKey dk → u.full a = s.full a) ∧
          (c.mode = 1 → u.full dk = s.full sk) ∧ (c.mode = 2 → u.full dk = true) ∧ (c.mode = 4 → u.full sk = false) ∧
          (c.mode ≠ 4 → wordKey sk ≠ wordKey dk → u.full sk = s.full sk) ∧
          (c.mode ≠ 1 → c.mode ≠ 2 → wordKey sk ≠ wordKey dk → u.full dk = s.full dk) ∧
          (8 * (c.w + 1) < c.n → (u.core n).copies = modFirst (fun x => x.id == c.id) (fun x => { x with w := c.w + 1 }) (s.core n).copies) ∧
          (c.n ≤ 8 * (c.w + 1) → (u.core n).copies = eraseFirst (fun x => x.id == c.id) (s.core n).copies)

/-! ## The fabric, tensor transfers and gangs -/

/-- R357-R360, R363: a link that comes up starts its counts afresh; a flit that mkFlit makes is good and has its fields,
and a transaction's flits read back as the transaction; a good data flit in order is accepted and acknowledged, any other
dropped with one NAK; a NAK brings the flits after ACK again; a link that makes no progress fails, and every request
outstanding on it is sent again. Where it goes beyond the manual's words it rests on the model's choices of logs 55 and
75. -/
def Obligations.FabricLinks : Prop :=
  (crc32c [0x31, 0x32, 0x33, 0x34, 0x35, 0x36, 0x37, 0x38, 0x39] = 0xE3069283) ∧
  (∀ (q k a : Nat) (x : List Byte), x.length = 56 → q < 4096 → k < 16 → a < 4096 →
    flitGood (mkFlit q k a x) = true ∧ flitSeq (mkFlit q k a x) = q ∧ flitKind (mkFlit q k a x) = k ∧ flitAck (mkFlit q k a x) = a ∧
      ((mkFlit q k a x).drop 4).take 56 = x) ∧
  (∀ tx : FabTx, tx.payload.length < 256 → ∃ r, ({ Link.blank with received := txFlits tx } : Link).head? = some r ∧ r.op = tx.op ∧
    r.src = tx.src ∧ r.ctx = tx.ctx ∧ r.operand = tx.operand ∧ r.tag = tx.tag ∧ r.stream = tx.stream ∧ r.addr = tx.addr ∧
    r.payload = tx.payload) ∧
  ∀ (s : State) (p : Nat), let l := s.link p
    (∀ peer, p < 32 → s.powered = true → l.up = false → ∃ t, exec (.linkInit p peer) s = .next t ∧ (t.link p).up = true ∧
      (t.link p).peer = peer ∧ (t.link p).sendSeq = 0 ∧ (t.link p).recvSeq = 0 ∧ (t.link p).replay = [] ∧ MemoryKept s t ∧
      ∀ q, q ≠ p → t.link q = s.link q) ∧
    (l.up = true → ∀ f : List Byte,
      (flitGood f = false → (l.nakSent = true → exec (.flitReceive p f) s = .next s) ∧
        (l.nakSent = false → ∃ t, exec (.flitReceive p f) s = .next t ∧
          t.link p = { l with nakSent := true, sent := l.sent ++ [bareFlit 2 l.ack] })) ∧
      (flitGood f = true → flitKind f = 1 → flitSeq f ≠ l.recvSeq → l.nakSent = false →
        ∃ t, exec (.flitReceive p f) s = .next t ∧ (t.link p).received = l.received ∧ (t.link p).recvSeq = l.recvSeq ∧
          (t.link p).nakSent = true ∧ (t.link p).sent = l.sent ++ [bareFlit 2 l.ack]) ∧
      (flitGood f = true → flitKind f = 1 → flitSeq f = l.recvSeq → s.fabOut = [] →
        (∀ g, (l.received ++ [(f.drop 4).take 56]).head? = some g → opClass (headOp g) ≠ none) →
        ∃ t, exec (.flitReceive p f) s = .next t ∧ (t.link p).received = l.received ++ [(f.drop 4).take 56] ∧
          (t.link p).recvSeq = (l.recvSeq + 1) % 4096 ∧ (t.link p).nakSent = false ∧ (t.link p).sent = l.sent ++ [bareFlit 0 l.recvSeq]) ∧
      ∀ pre a g post, l.replay = pre ++ (a, g) :: post → (∀ x ∈ pre ++ post, x.1 ≠ a) →
        (flitGood f = true → flitKind f = 2 → flitAck f = a → ∃ t, exec (.flitReceive p f) s = .next t ∧ (t.link p).replay = post ∧
          (t.link p).sent = l.sent ++ post.map Prod.snd) ∧
        (flitGood f = true → flitKind f = 0 → flitAck f = a → s.fabOut = [] → ∃ t, exec (.flitReceive p f) s = .next t ∧
          (t.link p).replay = post ∧ (t.link p).sent = l.sent) ∧
        ∀ n : BitVec 12, n.toNat = a → ∃ t, exec (.nak p n) s = .next t ∧ (t.link p).replay = post ∧
          (t.link p).sent = l.sent ++ post.map Prod.snd) ∧
    (l.up = true → l.replay ≠ [] → l.progressAt + 2 ^ 20 ≤ s.beat → ∃ t, exec (.linkFail p) s = .next t ∧ (t.link p).up = false ∧
      (t.link p).failed = true ∧ MemoryKept s t ∧ ∀ r ∈ s.fabReqs, r.port = p →
        (r.alt.getD p, if r.withdrawSent then { r.tx with op := 11, payload := [] } else r.tx) ∈ t.fabOut)

/-- R361-R363, R366, R368: a request that reaches its home is performed there once, and answered by the port it came by;
one that has been answered is answered again and not performed; one that no grant covers is refused with the cause and
trap.info. A withdraw takes a parked request away. At the source a reply gives the thread its result or its fault: the
data of a load or LD.W, the old word of an LD.T, which joins the held words, or of an atomic, whose thread goes on as that
of an ST.F does; a reduction is pending no longer; the failure of a store, ST.S, FE.CLR or reduction is recorded (R366). A
request without a reply is sent again, and given up the second time. Where it goes beyond the manual's words it rests on
the model's choices of logs 42 and 56. -/
def Obligations.FabricRequests : Prop :=
  (∀ (s : State) (tx : FabTx) (port : Nat), s.headOf tx = some port →
    (∀ h ∈ s.homeReqs, s.flight? h.flight ≠ none ∧ h.flight ≠ s.serial) →
    let s1 := (s.consume port tx).freeReplies tx
    let same (h : HomeReq) : Prop := h.tx.src = tx.src ∧ h.tx.stream = tx.stream ∧ h.tx.tag = tx.tag
    let fresh : Prop := s1.doneReply? tx = none ∧ ∀ h ∈ s.homeReqs, ¬same h
    let reply (status : Nat) (data : Word) : FabTx := { tx with
      op := 16, src := s.fabricId, ctx := tx.sctx, sctx := tx.ctx, operand := BitVec.ofNat 8 status, oldest := 0, payload := [data] }
    let answered (t : State) (r : FabTx) : Prop := t.fabOut.getLast? = some (port, r) ∧
      ((s.fabDone.filter fun d => d.1 == tx.src.toNat && d.2.1 == tx.stream.toNat).length < 4096 →
        t.fabDone.getLast? = some (tx.src.toNat, tx.stream.toNat, tx.tag.toNat, r))
    let alone (key : Nat) : Prop := s.held key = false ∧ s.grantSaved tx.ctx.toNat key = false ∧ Unwaited s key ∧ (∀ f ∈ s.flights, f.id ≠ s.serial) ∧
      s.thread? ⟨coreCount + s.serial, 0⟩ = none
    let performs (i : Instr) (op bit : Nat) (a : Acc) (cond : Nat → Prop) (v : Nat → Keying → Word)
        (post : Nat → Keying → State → Prop) : Prop := tx.op.toNat = op →
      (∀ r, s1.doneReply? tx = some r → exec i s = .next { s1 with fabOut := s1.fabOut ++ [(port, r)] }) ∧
      (fresh → ∀ c, s.homeResolve port tx.addr tx bit a = .bad c → c ≠ .eccUncorrectable →
        ∃ t, exec i s = .next t ∧ answered t (reply c.code a.info) ∧ MemoryKept s t) ∧
      (fresh → ∀ key e, s.homeResolve port tx.addr tx bit a = .ok key e → cond key → alone key →
        let c := s.cipherFor (homeThread tx) e
        ∃ t, exec i s = .next t ∧ answered t (reply 0 (v key c)) ∧ t.flights = s.flights ∧ post key c t)
    let n := 2 ^ (tx.operand.toNat % 4)
    let word (key : Nat) (c : Keying) : Word := ofN (s.readAs c (wordKey key) 8)
    let d := tx.payload.getD 0 0
    let kept (t : State) : Prop := t.mem = s.mem ∧ t.feFlips = s.feFlips
    let puts (key : Nat) (c : Keying) (w : Word) (t : State) : Prop := Clear s c (wordKey key) 8 → t.readMem (wordKey key) 8 = w.toNat
    let full (key : Nat) : Prop := s.full key = true
    performs (.fabLoad tx) 1 28 (accLoad n) (fun _ => True) (fun key c => ofN (s.readAs c key n)) (fun _ _ t => kept t) ∧
    performs (.fabStore tx) 2 29 (accStore n) (fun _ => True) (fun _ _ => 0) (fun key c t =>
      (Clear s c key n → (∀ i, i < n → t.readByte (key + i) = BitVec.ofNat 8 (d.toNat / 256 ^ i)) ∧
        ∀ a, a < key ∨ key + n ≤ a → t.readByte a = s.readByte a) ∧ t.feFlips = s.feFlips) ∧
    performs (.fabLdW tx) 3 30 accFeRead full word (fun _ _ t => kept t) ∧
    performs (.fabLdT tx) 4 30 accFeTake full word (fun key _ t => t.mem = s.mem ∧ t.full (wordKey key) = false) ∧
    performs (.fabStF tx) 5 30 accFeWrite (fun key => s.full key = false) (fun _ _ => 0)
      (fun key c t => puts key c d t ∧ t.full (wordKey key) = true) ∧
    performs (.fabStS tx) 6 30 accFeWrite (fun _ => True) (fun _ _ => 0) (fun key c t => puts key c d t ∧ t.full (wordKey key) = true) ∧
    performs (.fabFeClr tx) 7 30 accFeTake (fun _ => True) (fun _ _ => 0) (fun key _ t => t.mem = s.mem ∧ t.full (wordKey key) = false) ∧
    performs (.fabFeProbe tx) 8 30 accFeRead (fun _ => True) (fun key _ => ofN (b2n (s.full (wordKey key)))) (fun _ _ t => kept t) ∧
    performs (.fabAmo tx) 9 30 accFeWrite full word (fun key c t =>
      puts key c (amoOp tx.operand.toNat (word key c) d (tx.payload.getD 1 0)) t ∧ t.full (wordKey key) = true) ∧
    performs (.fabRed tx) 10 30 accFeWrite full (fun _ _ => 0) (fun key c t =>
      puts key c (amoOp (redOp tx.operand.toNat) (word key c) d 0) t ∧ t.feFlips = s.feFlips) ∧
    (tx.op = 11 → let s2 := s.consume port tx
      (∀ r, s2.doneReply? tx = some r → exec (.fabWithdraw tx) s = .next { s2 with fabOut := s2.fabOut ++ [(port, r)] }) ∧
      (s2.doneReply? tx = none → (∀ h ∈ s.homeReqs, ¬same h) →
        ∃ t, exec (.fabWithdraw tx) s = .next t ∧ answered t (reply 255 0) ∧ MemoryKept s t) ∧
      ∀ h f, s2.doneReply? tx = none → s.homeReqs = [h] → same h → s.flight? h.flight = some f → f.stage = .queued none →
        (∀ g ∈ s.flights, g.kind ≠ .bqPop ∧ ∀ k, g.stage ≠ .queued (some k)) →
        ∃ t, exec (.fabWithdraw tx) s = .next t ∧ answered t (reply 255 0) ∧ t.homeReqs = [] ∧ t.mem = s.mem ∧ t.feFlips = s.feFlips ∧
          t.flights = eraseFirst (fun x => x.id == f.id) s.flights)) ∧
  (∀ (s : State) (tx : FabTx) (port : Nat) (r : FabReq), s.headOf tx = some port → tx.op = 16 → s.reqOf tx = some r → r.xfer = none →
    let isOver (t : State) : Prop := t.mem = s.mem ∧ t.fabReqs = eraseFirst (fun x => x.id == r.id && x.tx.tag == r.tx.tag) s.fabReqs
    let bad : Prop := tx.operand = 3 ∨ tx.operand = 4 ∨ tx.operand = 7
    let cause : Cause := if tx.operand = 4 then .unmapped else if tx.operand = 7 then .feUnsupported else .access
    (∀ f th, r.flight = some f.id → s.flight? f.id = some f → f.orphan = false → f.detached = none → f.home = false →
      s.thread? f.thread = some th →
      let gets (v : OutValue) : Prop := ∃ t, exec (.fabReply tx) s = .next t ∧ isOver t ∧
        t.thread? f.thread = some { th with outs := modFirst (fun o => o.id == f.id) (fun o => { o with value := v }) th.outs } ∧
        t.flights = eraseFirst (fun x => x.id == f.id) s.flights
      let data := tx.payload.getD 0 0
      let with_ (v : OutValue) : Thread := { th with outs := modFirst (fun o => o.id == f.id) (fun o => { o with value := v }) th.outs }
      let faults (info : Word) : Prop := (bad → gets (.fault cause f.va info)) ∧ (tx.operand = 16 → gets (.fault .eccUncorrectable f.va data))
      let ends (t : State) : Prop := exec (.fabReply tx) s = .next t ∧ isOver t ∧ t.flights = eraseFirst (fun x => x.id == f.id) s.flights
      let waits : Prop := th.wait.map Wait.kind = some (.fill f.id)
      (∀ k sg, f.kind = .load k sg → (tx.operand = 0 → gets (.word (extend k sg data.toNat))) ∧ faults 0) ∧
      (f.kind = .ldW ∨ f.kind = .feProbe → (tx.operand = 0 → gets (.word data)) ∧ faults 2) ∧
      (f.kind = .ldT → (tx.operand = 0 → ∃ t, ends t ∧ t.thread? f.thread = some ((with_ (.word data)).noteTake f.va f.key)) ∧ faults 3) ∧
      (∀ op, f.kind = .amo op → tx.operand = 0 → waits → ∃ t, ends t ∧
        t.thread? f.thread = some { with_ (.word data) with wait := none, pc := nextPc th.pc }) ∧
      (f.kind = .stF → tx.operand = 0 → waits → ∃ t z, ends t ∧ t.thread? f.thread = some z ∧ z.wait = none ∧ z.pc = nextPc th.pc ∧
        z.heldTakes = th.heldTakes.filter fun a => !s.sameWord f.thread th a f.va f.key) ∧
      (f.kind = .stF ∨ (∃ op, f.kind = .amo op) → bad → waits → th.mode ≠ .trap → (∀ o ∈ th.outs, o.id = f.id) → ∃ t z,
        exec (.fabReply tx) s = .next t ∧ t.thread? f.thread = some z ∧ z.mode = .trap ∧ z.trapCause = BitVec.ofNat 8 cause.code ∧
          z.trapAddr = f.va ∧ z.trapInfo = 3 ∧ z.trapPc = f.pc ∧ z.s = th.s ∧ t.flights = eraseFirst (fun x => x.id == f.id) s.flights) ∧
      (f.kind = .stS ∨ f.kind = .feClr → tx.operand = 0 → ∃ t, ends t ∧ t.thread? f.thread = some th) ∧
      (∀ op, f.kind = .red op → tx.operand = 0 → ∃ t, ends t ∧ t.thread? f.thread = some { th with pending := th.pending - 1 }) ∧
      (bad → th.halted = false →
        let records (kind : Nat) (w : Word) (n : Nat) : Prop := ∀ u,
          s.writeRecord f.thread.core f.thread.slot cause.code kind false 3 f.pc f.va w = some u →
          ∃ t, exec (.fabReply tx) s = .next t ∧ t.mem = u.mem ∧ t.feFlips = u.feFlips ∧
            t.flights = eraseFirst (fun x => x.id == f.id) s.flights ∧ t.thread? f.thread = some { th with pending := n }
        (f.kind = .stS → records 0 f.data th.pending) ∧ (f.kind = .feClr → records 0 0 th.pending) ∧
        ∀ op, f.kind = .red op → records 1 f.data (th.pending - 1)) ∧
      (tx.operand = 255 → ∃ t, exec (.fabReply tx) s = .next t ∧ isOver t ∧ t.thread? f.thread = some th ∧
        t.flight? f.id = some { f with stage := .withdrawn })) ∧
    (r.flight = none → tx.operand = 0 ∨ r.store = none → ∃ t, exec (.fabReply tx) s = .next t ∧ isOver t) ∧
    ∀ q u, r.flight = none → r.store = some q → bad → (∀ th, s.thread? q = some th → th.halted = false) →
      s.writeRecord q.core q.slot cause.code 0 false (r.tx.operand.toNat % 4) r.pc r.va (r.tx.payload.getD 0 0) = some u →
      ∃ t, exec (.fabReply tx) s = .next t ∧ t.mem = u.mem ∧ t.feFlips = u.feFlips ∧ t.flights = s.flights ∧
        t.fabReqs = eraseFirst (fun x => x.id == r.id && x.tx.tag == r.tx.tag) s.fabReqs) ∧
  ∀ (s : State) (r : FabReq), (s.fabReqs.find? fun x => x.id == r.id && decide (x.sentAt + x.tmo < s.beat)) = some r →
    (r.expired = 0 → ∃ t, exec (.fabTmo r.id) s = .next t ∧ MemoryKept s t ∧
      (r.alt.getD r.port, if r.withdrawSent then { r.tx with op := 11, payload := [] } else r.tx) ∈ t.fabOut ∧
      ∃ q ∈ t.fabReqs, q.id = r.id ∧ q.tx.tag = r.tx.tag ∧ q.sentAt = s.beat ∧ q.expired = 1) ∧
    ∀ f th k sg, r.expired ≠ 0 → r.xfer = none → r.flight = some f.id → s.flight? f.id = some f → f.orphan = false → f.detached = none →
      f.home = false → f.kind = .load k sg → s.thread? f.thread = some th →
      ∃ t, exec (.fabTmo r.id) s = .next t ∧ t.mem = s.mem ∧
        t.thread? f.thread = some { th with outs := modFirst (fun o => o.id == f.id) (fun o => { o with value := .fault .access f.va 8 }) th.outs } ∧
        t.fabReqs = eraseFirst (fun x => x.id == r.id && x.tx.tag == r.tx.tag) s.fabReqs

/-- R370-R374, R384: XFER checks its address, resolves its descriptor, is refused with the lowest reason of R371, waits
while its engine holds 64 transfers of the context, and otherwise goes to the engine, the thread going on. The engine
begins a transfer only after the earlier ones of its thread, and moves elements: data, each page's part at its own place,
and by FEMODE the bit; an element in the FABRIC window is asked for when it lies whole within its window, and fails at its
first byte beyond it otherwise (R366); a transfer that is over fills FADDR with FVAL when FLAG is set, and one that failed
is recorded in the fault queue, SIZE its ESIZE (R205). Bulk reads and writes are performed at their home. Where it goes
beyond the manual's words it rests on the model's choices of logs 42 and 57. -/
def Obligations.Transfers : Prop :=
  (∀ (p : Pred) (x : Reg),
    let m := Meta.scalar [x.toNat] []
    let va (y : Thread) := y.readS x.toNat
    let i := Instr.xfer p x
    let read (s : State) (y : Thread) (ks : List (Nat × Keying)) : Prop := (va y).toNat % 64 = 0 ∧
      s.xfResolve s.cur y (va y) (xfParts (va y)) = .ok ks ∧ ∀ k ∈ ks, ∀ j, j < 8 → s.eccAt (k.1 + 8 * j) = false
    let engine (s : State) (y : Thread) (ks : List (Nat × Keying)) := s.xfEngine s.cur.core y.ctx (s.xfWords ks)
    let room (s : State) (y : Thread) (ks : List (Nat × Keying)) : Prop :=
      (s.xfers.filter fun z => z.ctx == y.ctx && z.engine == engine s y ks).length < 64
    Traps i m p (fun _ y => (va y).toNat % 64 ≠ 0) .align va (fun _ => 4) ∧
    Ends i m p (fun s y r => (va y).toNat % 64 = 0 ∧ s.xfResolve s.cur y (va y) (xfParts (va y)) = .error r) ∧
    ∀ ks,
      (∀ w tier, Traps i m p (fun s y => (va y).toNat % 64 = 0 ∧ s.xfResolve s.cur y (va y) (xfParts (va y)) = .ok ks ∧
        ((xfAddrs (va y) ks).find? fun q => s.eccAt q.2) = some w ∧ s.eccTier w.2 = tier) .eccUncorrectable (fun _ => w.1) (fun _ => tier)) ∧
      (∀ r, r ≠ 0 → Traps i m p (fun s y => read s y ks ∧ s.xfReason y.ctx (s.xfWords ks) = r) .access va (fun _ => ofN (4 + r * 2 ^ 8))) ∧
      Waits i m p (fun s y => read s y ks ∧ s.xfReason y.ctx (s.xfWords ks) = 0 ∧ ¬room s y ks) .room ∧
      Gives i m p (fun s y => read s y ks ∧ s.xfReason y.ctx (s.xfWords ks) = 0 ∧ room s y ks)
        (fun s y t z => MemoryKept s t ∧ OthersGoOn s t ∧ z = { y.pop m y with pc := nextPc y.pc } ∧
          ∃ q, t.xfers = s.xfers ++ [q] ∧ q.engine = engine s y ks ∧ q.ctx = y.ctx ∧ q.desc = s.xfWords ks ∧ q.next = 0 ∧
            q.got = [] ∧ q.writes = [] ∧ q.failed = none ∧ q.pc = y.pc ∧ q.core = s.cur.core ∧ q.slot = s.cur.slot ∧
              q.who = y.ident)) ∧
  (∀ (s : State) (x : Xfer), (s.xfers.find? fun y => y.id == x.id) = some x → x.waiting = none → x.filling = false →
    let gone (t : State) : Prop := t.xfers = eraseFirst (fun y => y.id == x.id) s.xfers
    let w0 := x.word 0
    let n := 2 ^ xfLg w0
    let a := x.srcAt x.next
    let b := x.dstAt x.next
    let free (ps : List Piece) : Prop := ∀ k ∈ pieceWords ps, s.held k = false
    (s.xferHeld x = true → exec (.xferElement x.id) s = .next s) ∧
    (∀ pa pb, s.xferHeld x = false → x.failed = none → x.got = [] → x.writes = [] → xfQuant w0 = false → x.next < x.total →
      windowOf a ≠ .fabric → windowOf b ≠ .fabric →
      s.xferPlaces x (xfReadAcc (xfMode w0)) a (xfLg w0) = .ok pa → free pa →
      s.xferPlaces x (xfWriteAcc (xfMode w0 == 1 || xfMode w0 == 2)) b (xfLg w0) = .ok pb → free pb →
      let data := s.readPieces pa
      let moved (t : State) : Prop := exec (.xferElement x.id) s = .next t ∧ t.flights = s.flights ∧
        t.xfers = modFirst (fun y => y.id == x.id) (fun y => { y with next := y.next + 1, begun := true }) s.xfers ∧
        (xfMode w0 ≠ 1 → xfMode w0 ≠ 2 → t.feFlips = s.feFlips)
      (∀ kb c, pb = [(kb, n, c)] → Clear s c kb n → Unwaited s kb →
        ∃ t, moved t ∧ t.readMem kb n = ofLeBytes data ∧ (∀ k, k < kb ∨ kb + n ≤ k → t.readByte k = s.readByte k) ∧
          (xfMode w0 = 1 → t.full kb = s.pieceFull pa) ∧ (xfMode w0 = 2 → t.full kb = true)) ∧
      ∀ k1 m1 k2 m2 c, pb = [(k1, m1, c), (k2, m2, c)] → k1 + m1 ≤ k2 ∨ k2 + m2 ≤ k1 → Clear s c k1 m1 → Clear s c k2 m2 → Unwaited s k1 →
        ∃ t, moved t ∧ t.readMem k1 m1 = ofLeBytes (data.take m1) ∧ t.readMem k2 m2 = ofLeBytes ((data.drop m1).take m2) ∧
          ∀ k, k < k1 ∨ k1 + m1 ≤ k → k < k2 ∨ k2 + m2 ≤ k → t.readByte k = s.readByte k) ∧
    (∀ w, s.xferHeld x = false → x.failed = none → x.got = [] → x.writes = [] → x.next < x.total → windowOf a = .fabric →
      s.fabWindow? x.ctx a 4 = some w →
      (∀ c, s.beyondWindow? x.ctx w a n = some c → ∃ t, exec (.xferElement x.id) s = .next t ∧ MemoryKept s t ∧ t.xfers =
        modFirst (fun y => y.id == x.id) (fun y => { y with begun := true, failed := some (x.next, 3, c) }) s.xfers) ∧
      (s.beyondWindow? x.ctx w a n = none → s.streamFull w.port = false → ∃ t tx, exec (.xferElement x.id) s = .next t ∧ MemoryKept s t ∧
        t.fabOut = s.fabOut ++ [(w.port, tx)] ∧ tx.op = 21 ∧ tx.addr = w.addr ∧
        t.xfers = modFirst (fun y => y.id == x.id) (fun y => { y with begun := true, waiting := some x.id }) s.xfers)) ∧
    (x.failed = none → x.got = [] → x.writes = [] → x.total ≤ x.next →
      (xfFlag w0 = false → ∃ t, exec (.xferComplete x.id) s = .next t ∧ gone t ∧ MemoryKept s t) ∧
      ∀ k e, xfFlag w0 = true → windowOf (x.word 3) ≠ .fabric →
        s.engineResolve x.seat x.agent (x.word 3) (accEngineFe true) false x.id = .ok k e → s.held k = false →
        Clear s (s.cipherFor x.agent e) k 8 → Unwaited s k →
        ∃ t, exec (.xferComplete x.id) s = .next t ∧ gone t ∧ t.readMem k 8 = (x.word 4).toNat ∧ t.full k = true) ∧
    ∀ e c va q, x.failed = some (e, c, va) → xfFlag w0 = false → c ≠ 16 → s.context? x.ctx = some q → q.fqN ≠ 0 →
      let k := q.fq + 64 * (q.fqNext % q.fqN)
      s.full k = false → s.held k = false →
      ∃ t, exec (.xferFail x.id) s = .next t ∧ gone t ∧ t.full k = true ∧
        t.readWord k = recordHeader x.slot (if c = 0xFD then 3 else c) 2 false false (xfLg w0) ((s.core x.core).recSeq + 1) ∧
        t.readWord (k + 8) = x.pc ∧ t.readWord (k + 16) = va ∧ t.readWord (k + 24) = ofN (e * 2 ^ xfLg w0)) ∧
  ∀ (s : State) (tx : FabTx) (port : Nat), s.headOf tx = some port → (∀ h ∈ s.homeReqs, s.flight? h.flight ≠ none) →
    ((s.consume port tx).freeReplies tx).doneReply? tx = none →
    (∀ h ∈ s.homeReqs, ¬(h.tx.src = tx.src ∧ h.tx.stream = tx.stream ∧ h.tx.tag = tx.tag)) →
    let lg := tx.operand.toNat % 8
    let bit : Bool := tx.operand.toNat / 8 % 2 == 1
    let answered (t : State) (op : Nat) (data : List Word) : Prop := t.fabOut.getLast? = some (port, { tx with
      op := BitVec.ofNat 6 op, src := s.fabricId, ctx := tx.sctx, sctx := tx.ctx, operand := 0, oldest := 0, payload := data })
    let n := 2 ^ lg
    let lies (acc : Machine.Acc) (ps : List Piece) : Prop :=
      s.places (fun va => s.homeResolve port va tx 31 acc) (s.cipherFor (homeThread tx)) tx.addr n = .ok ps ∧
        ∀ k ∈ pieceWords ps, s.held k = false
    (tx.op = 20 → ∀ key c, lies (xfWriteAcc bit) [(key, n, c)] → Clear s c key n → Unwaited s key →
      ∃ t, exec (.xferWrite tx) s = .next t ∧ answered t 16 [0] ∧
        t.readMem key n = ofLeBytes ((tx.payload.flatMap fun w => leBytes 8 w.toNat).take n) ∧
        (∀ k, k < key ∨ key + n ≤ k → t.readByte k = s.readByte k) ∧ t.flights = s.flights ∧
        (bit = false → t.feFlips = s.feFlips) ∧ (bit = true → t.full key = (tx.operand.toNat / 16 % 2 == 1))) ∧
    (tx.op = 21 → ∀ ps, lies (xfReadAcc (tx.operand.toNat / 8 % 2)) ps →
      ∃ t, exec (.xferRead tx) s = .next t ∧ MemoryKept s t ∧ answered t 22 (wordsOfBytes (s.readPieces ps) ++ [ofN (b2n (s.pieceFull ps))])) ∧
    ∀ r x, tx.op = 22 → s.reqOf tx = some r → r.xfer = some x.id → (s.xfers.find? fun y => y.id == x.id) = some x → x.filling = false →
      x.writes = [] → tx.operand = 0 →
      ∃ t, exec (.xferReadData tx) s = .next t ∧ MemoryKept s t ∧ t.xfers = modFirst (fun y => y.id == x.id) (fun y =>
        { y with waiting := none, next := y.next + 1, got := y.got ++ [(tx.payload.dropLast, tx.payload.getLastD 0 != 0)] }) s.xfers

/-- R377, R379-R382: the masthead dispatcher takes the word in MHPOST and makes a good record a launch; the gang unit
takes the word in GPOST; each leaves its word while a page of the record is missing or an atomic holds it; the gang unit
sends every member a prepare, and decides once: commit when all have acknowledged OK, abort when one cannot or the time is
over. A member keeps a record that it has checked and answers; it acts on the decision once, and acknowledges it; without
one it asks, and the leader answers. Where it goes beyond the manual's words it rests on the model's choices of logs 38,
44 and 58. -/
def Obligations.Gangs : Prop :=
  (∀ (s : State) (c : Context), s.context? c.num = some c → c.fwin ≠ 0 → s.bootStage = 4 →
    (∀ key r, s.full (c.fwin + 24) = true → s.held (c.fwin + 24) = false → key % 64 = 0 → Unwaited s (c.fwin + 24) → Unwaited s key →
      (∀ i, i < 8 → wordKey (c.fwin + 24) ≠ key + 8 * i) → s.postCheck c.num (s.readWord (c.fwin + 24)) = .ok key r →
      s.mastheadBad c.num r = false →
      ∃ t l, exec (.mastheadPost c.num) s = .next t ∧ t.full (c.fwin + 24) = false ∧ t.full key = true ∧ t.full (key + 56) = false ∧
        t.launches = s.launches ++ [l] ∧ l.ctx = c.num ∧ l.num = s.nextLaunch c.num ∧ l.rec_ = r ∧ l.masthead = true) ∧
    (s.postCheck c.num (s.readWord (c.fwin + 24)) = .wait →
      ∃ t, exec (.mastheadPost c.num) s = .next t ∧ MemoryKept s t ∧ t.launches = s.launches) ∧
    (∀ x, (s.readWord (c.fwin + 8)).toNat % 64 = 0 → s.gangMiss? c.num (s.readWord (c.fwin + 8)) = some x →
      ∃ t, exec (.gangPost c.num) s = .next t ∧ MemoryKept s t ∧ t.gangs = s.gangs) ∧
    ∀ key, s.full (c.fwin + 8) = true → s.held (c.fwin + 8) = false → Unwaited s (c.fwin + 8) →
      let a := s.readWord (c.fwin + 8)
      let ms := s.gangMembers c.num a
      a.toNat % 64 = 0 → s.gangMiss? c.num a = none → (∀ k ∈ s.gangKeys c.num a, s.held k = false) → s.gangGone c.num a = false →
      s.deviceKey? c.num a .wr = some key → s.gangBad c.num a = false → s.gangWord c.num a 3 = 0 →
      (∃ x ∈ ms, x.ack = none) → (∀ x ∈ ms, x.ack = none) → (∀ g ∈ s.gangs, g.num ≠ s.gangCount % 2 ^ 32) →
      ∃ t g, exec (.gangPost c.num) s = .next t ∧ t.full (c.fwin + 8) = false ∧ t.gangs = s.gangs ++ [g] ∧ g.num = s.gangCount % 2 ^ 32 ∧
        g.members = ms ∧ g.decision = none ∧ g.addr = a ∧
        ∀ i x, ms[i]? = some x → ∃ w tx, s.gangWindow? c.num x.win = some w ∧ (w.port, tx) ∈ t.fabOut ∧ tx.op = 24 ∧
          tx.addr = gangTag s.fabricId g.num ∧ tx.payload = [x.rec_, ofN g.timeout, ofN i]) ∧
  (∀ (s : State) (g : Gang), (s.gangs.find? fun x => x.num == g.num) = some g →
    let decides (i : Instr) (d : Word) : Prop := ∀ key, s.deviceKey? g.ctx (g.addr + 16) .wr = some key → s.held key = false →
      Unwaited s key → (∀ p ∈ s.prepared, p.is s.fabricId g.num g.members.length = false) →
      ∃ t, exec i s = .next t ∧ t.readMem key 8 = d.toNat ∧ t.full key = true ∧
        ∃ z, (t.gangs.find? fun x => x.num == g.num) = some z ∧ z.decision = some d
    (g.decision = none → g.startedAt + g.timeout < s.beat → g.failure? = none → g.allOk = false →
      decides (.gangTimeout g.num) (abortWord g.num (g.members.findIdx fun x => x.ack.isNone, 2, 0))) ∧
    (∀ tx port m x, s.headOf tx = some port → s.gangOf tx.addr = some g → g.members[m]? = some x → m < 256 →
      (tx.op = 25 → tx.payload = [ofN m, 0] → g.startedAt + g.timeout < s.beat →
        ∃ t, exec (.acknowledge tx) s = .next t ∧ MemoryKept s t ∧ t.gangs = s.gangs) ∧
      (tx.op = 25 → tx.payload = [ofN m, 0] → x.ack = none → g.decision = none → s.beat ≤ g.startedAt + g.timeout →
        let note (v : Nat) : Gang := { g with members := g.members.set m { x with ack := some v } }
        (∀ r, tx.operand = r → r ≠ 0 → (∀ y ∈ g.members, y.ack = none ∨ y.ack = some 0) →
          decides (.acknowledge tx) (abortWord g.num (m, 1, r.toNat))) ∧
        (tx.operand = 0 → (note 0).allOk = true → decides (.acknowledge tx) (commitWord g.num)) ∧
        (tx.operand = 0 → (note 0).allOk = false → (note 0).failure? = none →
          ∃ t, exec (.acknowledge tx) s = .next t ∧ MemoryKept s t ∧ (t.gangs.find? fun y => y.num == g.num) = some (note 0))) ∧
      (tx.op = 25 → tx.payload = [ofN m, 1] → ∃ t, exec (.acknowledge tx) s = .next t ∧ MemoryKept s t ∧
        (t.gangs.find? fun y => y.num == g.num) = some { g with members := g.members.set m { x with told := true } })) ∧
    (∀ tx port, s.headOf tx = some port → tx.op = 28 → s.gangOf tx.addr = some g →
      ∃ t r, exec (.query tx) s = .next t ∧ MemoryKept s t ∧ t.fabOut = s.fabOut ++ [(port, r)] ∧ r.op = 29 ∧ r.addr = tx.addr ∧
        r.payload = [tx.payload.getD 0 0, g.decision.getD 0]) ∧
    ∀ d m x w, g.decision = some d → g.members[m]? = some x → x.told = false → x.sentAt + g.timeout < s.beat →
      s.gangWindow? g.ctx x.win = some w →
      ∃ t r, exec (.decisionRepeat g.num m) s = .next t ∧ MemoryKept s t ∧ t.fabOut = s.fabOut ++ [(w.port, r)] ∧
        r.op = (if wbits d 7 0 = 1 then 26 else 27) ∧ r.addr = gangTag s.fabricId g.num ∧ r.payload = [ofN m]) ∧
  (∀ (s : State) (tx : FabTx) (port : Nat), s.headOf tx = some port →
    let s1 := s.consume port tx
    let acks (t : State) (m status phase : Nat) : Prop := ∃ r, t.fabOut.getLast? = some (port, r) ∧ r.op = 25 ∧ r.addr = tx.addr ∧
      r.operand = BitVec.ofNat 8 status ∧ r.payload = [ofN m, ofN phase]
    let discards (p : Prepared) : Prop := p.decided = none ∧ p.answer = 0 ∧ s.memberReady p.ctx p.rec_ = true ∧
      ∀ key, s.deviceKey? p.ctx p.rec_ .wr = some key → Unwaited s (key + 56)
    let discarded (p : Prepared) (t : State) : Prop := t.launches = s.launches ∧
      ∀ key, p.rec_.toNat % 64 = 0 → s.deviceKey? p.ctx p.rec_ .wr = some key → t.full (key + 56) = true ∧
        t.readMem (key + 56) 8 = (refusal 10).toNat
    (∀ m a tmo, m < 2 ^ 64 → tx.op = 24 → tx.payload = [a, tmo, ofN m] →
      (s.inbound tx 29 = false → exec (.prepare tx) s = .next s1) ∧
      (s.inbound tx 29 = true → s.preparedOf tx m = none → s.memberWaits tx.ctx.toNat a = true →
        ∃ t, exec (.prepare tx) s = .next t ∧ MemoryKept s t ∧ t.prepared = s.prepared ∧ t.fabOut = s.fabOut) ∧
      (s.inbound tx 29 = true → s.preparedOf tx m = none → s.memberWaits tx.ctx.toNat a = false →
        (s1.memberAnswer tx.ctx.toNat a = 0 ∨ ∀ key, s.deviceKey? tx.ctx.toNat a .wr = some key → Unwaited s (key + 56)) → ∃ t p, exec (.prepare tx) s = .next t ∧ t.prepared = s.prepared ++ [p] ∧
        p.leader = tx.src ∧ p.gang = wbits tx.addr 31 0 ∧ p.member = m ∧ p.rec_ = a ∧ p.ctx = tx.ctx.toNat ∧ p.decided = none ∧
        p.answer = s1.memberAnswer tx.ctx.toNat a ∧ acks t m p.answer 0) ∧
      ∀ p, s.inbound tx 29 = true → s.preparedOf tx m = some p → ∃ t, exec (.prepare tx) s = .next t ∧ t.prepared = s.prepared ∧
        MemoryKept s t ∧ acks t m p.answer 0) ∧
    (∀ m, m < 2 ^ 64 → tx.payload = [ofN m] →
      let decided (i : Instr) (op code : Nat) : Prop := tx.op.toNat = op →
        (s.preparedOf tx m = none → ∃ t, exec i s = .next t ∧ MemoryKept s t ∧ t.prepared = s.prepared ∧ acks t m 0 1) ∧
        ∀ p, s.preparedOf tx m = some p →
          (p.decided ≠ none → ∃ t, exec i s = .next t ∧ MemoryKept s t ∧ t.prepared = s.prepared ∧ t.launches = s.launches ∧ acks t m 0 1) ∧
          (p.decided = none → p.answer ≠ 0 → ∃ t q, exec i s = .next t ∧ MemoryKept s t ∧ t.launches = s.launches ∧
            t.preparedOf tx m = some q ∧ q.decided = some code ∧ acks t m 0 1)
      decided (.commit tx) 26 1 ∧ decided (.abort tx) 27 2 ∧
      (∀ p, tx.op = 27 → s.preparedOf tx m = some p → discards p → ∃ t q, exec (.abort tx) s = .next t ∧ t.preparedOf tx m = some q ∧
        q.decided = some 2 ∧ discarded p t ∧ acks t m 0 1) ∧
      ∀ p key, tx.op = 26 → s.preparedOf tx m = some p → p.decided = none → p.answer = 0 → s.deviceKey? p.ctx p.rec_ .wr = some key →
        key % 64 = 0 → s.memberReady p.ctx p.rec_ = true → Unwaited s key →
        ∃ t l q, exec (.commit tx) s = .next t ∧ t.launches = s.launches ++ [l] ∧ l.ctx = p.ctx ∧ l.num = s.nextLaunch p.ctx ∧
          t.full key = true ∧ t.full (key + 56) = false ∧ t.preparedOf tx m = some q ∧ q.decided = some 1 ∧ acks t m 0 1) ∧
    (∀ m d p, m < 2 ^ 64 → tx.op = 29 → tx.payload = [ofN m, d] → s.preparedOf tx m = some p →
      (wbits d 7 0 ≠ 1 → wbits d 7 0 ≠ 2 → exec (.decision tx) s = .next s1) ∧
      (wbits d 7 0 = 1 ∨ wbits d 7 0 = 2 → p.decided = none → p.answer ≠ 0 → ∃ t q, exec (.decision tx) s = .next t ∧ MemoryKept s t ∧
        t.preparedOf tx m = some q ∧ q.decided = some (wbits d 7 0)) ∧
      (wbits d 7 0 = 2 → discards p → ∃ t q, exec (.decision tx) s = .next t ∧ t.preparedOf tx m = some q ∧ q.decided = some 2 ∧
        discarded p t) ∧
      ∀ key, wbits d 7 0 = 1 → p.decided = none → p.answer = 0 → s.deviceKey? p.ctx p.rec_ .wr = some key → key % 64 = 0 →
        s.memberReady p.ctx p.rec_ = true → Unwaited s key →
        ∃ t l q, exec (.decision tx) s = .next t ∧ t.launches = s.launches ++ [l] ∧ l.ctx = p.ctx ∧ l.num = s.nextLaunch p.ctx ∧
          t.full key = true ∧ t.full (key + 56) = false ∧ t.preparedOf tx m = some q ∧ q.decided = some 1) ∧
    (tx.op = 30 → exec (.retire tx) s = .next s1)) ∧
  ∀ (s : State) (i : Nat) (p : Prepared), s.prepared[i]? = some p → p.answer = 0 → p.decided = none → p.leader ≠ s.fabricId →
    p.since + p.timeout < s.beat →
    ∃ t r, exec (.gangQueryTimer i) s = .next t ∧ MemoryKept s t ∧ t.fabOut = s.fabOut ++ [(p.port, r)] ∧ r.op = 28 ∧
      r.addr = gangTag p.leader p.gang ∧ r.payload = [ofN p.member]

/-! ## The package, its host and its debuggers -/

/-- R330, R331, R335, R353, R342, R334, R337: activation reads a context's entry and gives it its free cores, or leaves a
STATUS; deactivation is refused while the context has a band; a timer posts once; the power controller lowers the step by
one when the limit is exceeded, and a trip forces step 0, each at a beat boundary; the key unit generates and erases
slots; R355: a package reset keeps far memory, the flight recorders and the accepted launches; R346, R349: scrubbing
corrects every soft error of near and far memory, and a die's profiler sums each context. Where it goes beyond the
manual's words it rests on the model's choices of logs 30, 40, 45, 50, 51, 52, 54 and 74. -/
def Obligations.ContextsAndPower : Prop :=
  ∀ s : State,
    (∀ v, s.ctxActBusy = some v → wbit v 63 = true →
      let n := wbits v 11 0
      let c := s.readContext n
      (wbit (s.entryWord n 0) 0 = false → ∃ t, exec .ctxActivate s = .next t ∧ t.ctxActBusy = none ∧ t.contexts = s.contexts ∧ MemoryKept s t) ∧
      (wbit (s.entryWord n 0) 0 = true → s.activation c ≠ 0 →
        exec .ctxActivate s = .next { s with ctxActBusy := none, ctxActStatus := s.activation c }) ∧
      (wbit (s.entryWord n 0) 0 = true → s.activation c = 0 →
        ∃ t, exec .ctxActivate s = .next t ∧ t.ctxActBusy = none ∧ t.ctxActStatus = 0 ∧ t.context? n = some c ∧
          t.mem = s.mem ∧ t.flights = s.flights ∧ (∀ k, k ≠ n → t.context? k = s.context? k) ∧
          (c.fwin ≠ 0 → s.context? n = none → t.full (c.fwin + 8) = false ∧ t.full (c.fwin + 24) = false) ∧
          ((c.fwin = 0 ∨ s.context? n ≠ none) → t.feFlips = s.feFlips) ∧
          ∀ q ∈ c.coreTab, (∀ i, i < 8 → (s.slot ⟨q.2, i⟩).ctx = none) → s.coreIdle q.2 = true →
            ∀ i, i < 8 → (t.slot ⟨q.2, i⟩).ctx = some n)) ∧
    (∀ v, s.ctxActBusy = some v → wbit v 63 = false →
      let n := wbits v 11 0
      ((∃ b ∈ s.bands, b.ref.ctx = n) → exec .ctxDeactivate s = .next { s with ctxActBusy := none }) ∧
      ((∀ b ∈ s.bands, b.ref.ctx ≠ n) → ∃ t, exec .ctxDeactivate s = .next t ∧ t.ctxActBusy = none ∧ t.ctxActStatus = 0 ∧
        t.context? n = none ∧ MemoryKept s t ∧ (∀ k, k ≠ n → t.context? k = s.context? k) ∧ ∀ r, (t.slot r).ctx ≠ some n)) ∧
    (∀ r, (s.slot r).timer ≠ 0 → (s.slot r).timer.toNat ≤ s.beat → (s.slot r).timerFired = false →
      ∃ t, exec (.timer r) s = .next t ∧ wbit (t.slot r).evpend 1 = true ∧ (t.slot r).timerFired = true ∧ MemoryKept s t ∧
        (t.slot r).thread = (s.slot r).thread ∧ exec (.timer r) t = .next t) ∧
    (∀ n, s.fstepPend = some n → s.boundary = true →
      exec .pwrFstepWrite s = .next { s with fstep := n, fstepPend := none, fstepHeld := false }) ∧
    (∀ watts temp, s.powered = true → s.beat % 1024 = 0 → s.powerAt ≠ some s.beat → s.boundary = true →
      let s1 := { s with pwrMeas := watts, pwrTemp := temp, powerAt := some s.beat }
      (watts ≤ s.pwrLimit ∨ s.fstep = 0 → exec (.powerCheck watts temp) s = .next s1) ∧
      (s.pwrLimit < watts → 0 < s.fstep → ∃ t, exec (.powerCheck watts temp) s = .next t ∧ t.fstep = s.fstep - 1 ∧ t.pwrMeas = watts ∧
        t.pwrTemp = temp ∧ t.powerAt = some s.beat ∧ MemoryKept s t ∧
        ∀ d i, d < 24 → i < 8 → wbit (t.slot ⟨dctlBase + d, i⟩).evpend 6 = true)) ∧
    (s.powered = true → s.boundary = true → ∃ t, exec .currentTrip s = .next t ∧ t.fstep = 0 ∧ t.fstepPend = none ∧ MemoryKept s t ∧
      ∀ d i, d < 24 → i < 8 → wbit (t.slot ⟨dctlBase + d, i⟩).evpend 6 = true) ∧
    (920 ≤ s.pwrTemp → ∃ t, exec .thermalTrip s = .next t ∧ t.powered = false ∧ t.mem = [] ∧ t.cores = []) ∧
    (s.keyBusy = true →
      let k := wbits s.keyCmd 12 2
      (wbits s.keyCmd 1 0 = 0 → ∃ t, exec .keyGenerate s = .next t ∧ t.keyBusy = false ∧
        lookup? t.keys k = some (wbit s.keyCmd 13, s.fresh) ∧ (∀ j, j ≠ k → lookup? t.keys j = lookup? s.keys j) ∧ MemoryKept s t) ∧
      (wbits s.keyCmd 1 0 = 1 → ∃ t, exec .keyErase s = .next t ∧ t.keyBusy = false ∧ lookup? t.keys k = none ∧
        (∀ j, j ≠ k → lookup? t.keys j = lookup? s.keys j) ∧ MemoryKept s t)) ∧
    (s.powered = true → ∃ t, exec .packageReset s = .next t ∧ (∀ a, tierOf a = 1 → t.readByte a = s.readByte a ∧ t.full a = s.full a) ∧
      (∀ a, tierOf a ≠ 1 → t.readByte a = 0) ∧ t.cores = [] ∧ t.contexts = [] ∧ t.bands = [] ∧ t.flights = [] ∧ t.beat = 0 ∧
      t.bootStage = 0 ∧ t.dbgUnlocked = false ∧ t.fabricId = s.fabricId ∧ t.launchCounts = s.launchCounts ∧ lookup? t.keys 0 = some (false, s.fresh) ∧
      (∀ l ∈ s.launches, ∃ x ∈ t.launches, x.ctx = l.ctx ∧ x.num = l.num ∧ x.rec_ = l.rec_ ∧ x.ended = l.ended ∧ (l.lost = true → x.lost = true)) ∧
      ∀ e ∈ s.recorder.drop (s.recorder.length - 4095), e ∈ t.recorder) ∧
    ((∀ k ∈ s.eccSoft, k % 8 = 0) →
      ∃ t, exec .scrub s = .next t ∧ MemoryKept s t ∧ ∀ k, k ∈ t.eccSoft ↔ k ∈ s.eccSoft ∧ 2 ≤ tierOf k) ∧
    ∀ d, d < 28 → s.beat % 65536 = 0 → ∃ t, exec (.profilerSum d) s = .next t ∧ MemoryKept s t ∧
      (t.die d).profile = s.contexts.map fun c => (c.num, s.profileOf d c)

/-- R340, R341, R351, R355, R356: a die's reset and its fence take what the die held, and a reset starts its firmware
anew; bring-up goes stage by stage, each image verified under the fused key and each verification measured, the far memory
trained and the halyard tested, and a failed stage leaves BOOTSTAT at 15 with the stage's code. Where it goes beyond the
manual's words it rests on the model's choices of logs 36, 41, 51 and 53. -/
def Obligations.ResetsAndBringUp : Prop :=
  ∀ s : State,
    (∀ d, d < 24 → s.powered = true → (s.die d).released = true →
      ∃ t, exec (.dieReset d) s = .next t ∧ (∀ a, onDie d a = true → t.readByte a = 0) ∧
        (t.die d).released = true ∧ (t.die d).fenced = (s.die d).fenced ∧
        (∀ n ∈ firmwareCores d, ∃ th, t.thread? ⟨n, 0⟩ = some th ∧ th.mode = .control ∧ th.pc = 0) ∧
        (s.flights = [] → s.bands = [] → ∀ a, onDie d a = false → t.readByte a = s.readByte a)) ∧
    (∀ d, d < 24 → s.powered = true → (s.die d).fenced = false → ∃ t, exec (.dieFence d) s = .next t ∧
      (s.flights = [] → s.bands = [] → MemoryKept s t ∧ (t.die d).fenced = true ∧
        (t.die d).errUncorr = (s.die d).errUncorr + 1 ∧ (∀ a, tierOf a = 0 → homeDie a = d → t.eccAt a = true) ∧
        (∀ n i, dieOf n = d → t.thread? ⟨n, i⟩ = none) ∧ ∀ n i, dieOf n ≠ d → t.thread? ⟨n, i⟩ = s.thread? ⟨n, i⟩)) ∧
    ∀ (xs : List BootImage) (trained tested : Bool), s.powered = true →
      let i := Instr.bootStage xs trained tested
      let measured (m : List Byte) (ys : List BootImage) : List Byte :=
        ys.foldl (fun a x => Config.shake256 (a ++ Config.shake256 x.image)) m
      let runs (t : State) (n : Nat) : Prop := ∃ th, t.thread? ⟨n, 0⟩ = some th ∧ th.mode = .control ∧ th.pc = 0 ∧ th.notBefore = t.beat + 1
      (∀ x, s.bootStage = 0 → xs = [x] → imageOk x = true →
        exec i s = .next { s with measurement := measured s.measurement [x], bootStage := 1 }) ∧
      (s.bootStage = 0 → (∀ x, xs = [x] → imageOk x = false) → exec i s = .next { s with bootStage := 15, bootFail := 1 }) ∧
      (s.bootStage = 1 → trained = true → ∃ t, exec i s = .next t ∧ t.bootStage = 2 ∧ t.beat = 0 ∧ t.fstep = 18 ∧ MemoryKept s t ∧
        runs t chiefCore ∧ ∀ r, r ≠ ⟨chiefCore, 0⟩ → t.thread? r = s.thread? r) ∧
      (s.bootStage = 1 → trained = false → exec i s = .next { s with bootStage := 15, bootFail := 2 }) ∧
      (s.bootStage = 2 → 52 ≤ xs.length → (xs.take 52).all imageOk = true →
        ∃ t, exec i s = .next t ∧ MemoryKept s t ∧ t.measurement = measured s.measurement (xs.take 52) ∧
          (tested = true → t.bootStage = 3) ∧ (tested = false → t.bootStage = 15 ∧ t.bootFail = 3) ∧
          ∀ d, d < 28 → (t.die d).released = true ∧ ∀ n ∈ firmwareCores d, runs t n) ∧
      (s.bootStage = 2 → xs.length < 52 ∨ (xs.take 52).all imageOk = false →
        ∃ t, exec i s = .next t ∧ MemoryKept s t ∧ t.bootStage = 15 ∧ t.bootFail = 3) ∧
      (s.bootStage = 3 → exec i s = .next { s with bootStage := 4 })

/-- R322, R323, R326, R338, R341, R343, R344: the doorbell posts HOST; the aperture's plain alias writes bytes and leaves
bits alone, its fill and empty aliases write an aligned word and its bit, and every alias reads data, a confidential frame
neither written nor decrypted; BAR0 shows POSTSTAT and BOOTSTAT; firmware debug is unlocked by a valid signature of the
challenge; a debug session of a context with KDBG stops threads, none of the firmware's among them, reads and writes their
images, lets them go on, and sets breakpoints. Where it goes beyond the manual's words it rests on the model's choices of
logs 32, 36, 37, 43 and 59. -/
def Obligations.HostAndDebug : Prop :=
  ∀ s : State,
    (s.powered = true → (∃ t, exec .doorbell s = .next t ∧ MemoryKept s t ∧ ∀ i, i < 8 → wbit (t.slot ⟨chiefCore, i⟩).evpend 5 = true) ∧
      ∃ t c, exec .debugChallenge s = .next t ∧ t.challenge = some c ∧ c.length = 32 ∧ MemoryKept s t ∧
        ∀ d i, d < 24 → i < 8 → wbit (t.slot ⟨dctlBase + d, i⟩).evpend 8 = true) ∧
    (s.powered = true → ∀ port o : Nat,
      let seen (k n : Nat) : Prop := Clear s (s.hostKeying k) k n
      let shut (k : Nat) : Prop := ∃ x, s.hostKeying k = .sealed x
      let writes (i : Instr) (data : List Byte) : Prop := s.hostFree o data.length = true →
        ∃ t, exec i s = .next t ∧ t.feFlips = s.feFlips ∧ t.flights = s.flights ∧
          ((∀ k ∈ s.apertureKeys o data.length, seen k 1 ∨ shut k) →
            (∀ k, k ∉ s.apertureKeys o data.length ∨ shut k → t.readByte k = s.readByte k) ∧
            ∀ j b k, data[j]? = some b → s.apertureKey? (o + j) = some k → seen k 1 →
              (∀ l, j < l → l < data.length → s.apertureKey? (o + l) ≠ some k) → t.readByte k = b)
      let reads (i : Instr) (at_ n : Nat) : Prop := s.hostFree at_ n = true → ∃ t, exec i s = .next t ∧ MemoryKept s t ∧ t.hostRead.length = n ∧
        ∀ j k, j < n → s.apertureKey? (at_ + j) = some k → seen k 1 → t.hostRead[j]? = some (s.readByte k)
      let logged (i : Instr) : Prop := ∃ t, exec i s = .next t ∧ MemoryKept s t ∧ t.adminLog.length = s.adminLog.length + 1
      let alias_ (i : Instr) (data : List Byte) (b : Bool) : Prop :=
        (data.length ≠ 8 ∨ o % 8 ≠ 0 → logged i) ∧
        ∀ k, data.length = 8 → o % 8 = 0 → s.apertureKey? o = some k → s.held k = false →
          (shut k → logged i) ∧
          (seen k 8 → Unwaited s k →
            ∃ t, exec i s = .next t ∧ t.readMem k 8 = ofLeBytes data ∧ t.full k = b ∧ ∀ a, a < k ∨ k + 8 ≤ a → t.readByte a = s.readByte a)
      ∀ data n, writes (.hdmPlainWrite port o data) data ∧ writes (.bar2Access port o n (some data)) data ∧
        alias_ (.hdmFillWrite port o data) data true ∧ alias_ (.hdmEmptyWrite port o data) data false ∧
        reads (.hdmRead port o n) (if s.apertureSize = 0 then o else o % s.apertureSize) n ∧ reads (.bar2Access port o n none) o n) ∧
    (∀ c, c < 4096 → (s.takeInput (.barRead (0x1000000 + 64 * c + 8) 8)).hostRead = leBytes 8 (lookupD s.postStat c 0).toNat) ∧
    (s.takeInput (.barRead 0x100 8)).hostRead = leBytes 8 s.bootStat.toNat ∧
    (∀ c sig, s.challenge = some c → (sig.length = 114 → Config.ed448Valid Config.debugKey c sig = true →
        ∃ t, exec (.debugSignature sig) s = .next t ∧ t.dbgUnlocked = true ∧ t.challenge = none ∧ MemoryKept s t ∧
          t.measurement = Config.shake256 (s.measurement ++ Config.shake256 [0x64, 0x65, 0x62, 0x75, 0x67])) ∧
      (sig.length ≠ 114 ∨ Config.ed448Valid Config.debugKey c sig = false → exec (.debugSignature sig) s = .next s)) ∧
    (∀ r th, s.thread? r = some th →
      ((∀ c, s.context? th.ctx = some c → c.kdbg = false) ∨ th.privileged = true →
        let untouched (i : Instr) : Prop := ∃ t, exec i s = .next t ∧ MemoryKept s t ∧ t.hostRead = s.hostRead ∧
          ∀ q, t.thread? q = s.thread? q
        untouched (.debugStop r) ∧ untouched (.debugResume r) ∧ ∀ o w, untouched (.debugImageAccess r o w)) ∧
      ∀ c, s.context? th.ctx = some c → c.kdbg = true → th.privileged = false →
        (th.stopped = false → th.halted = false → th.busy = 0 → th.trapPend = none → th.wait = none →
          ∃ t, exec (.debugStop r) s = .next t ∧ t.thread? r = some { th with stopped := true } ∧
            (dieOf r.core < 24 → ∀ i, i < 8 → wbit (t.slot ⟨dctlBase + dieOf r.core, i⟩).evpend 8 = true)) ∧
        (th.stopped = true → th.halted = false ∨ s.band? th.bandRef ≠ none → ∃ t, exec (.debugResume r) s = .next t ∧ MemoryKept s t ∧
          t.thread? r = some { th with stopped := false, notBefore := s.beat + 1 } ∧ ∀ q, q ≠ r → t.thread? q = s.thread? q) ∧
        (th.stopped = true → th.halted = true → s.band? th.bandRef = none →
          ∃ t, exec (.debugResume r) s = .next t ∧ t.thread? r = none) ∧
        ∀ j, j < 768 → th.stopped = true → th.settled = true → th.storeQ = [] → th.pending = 0 →
          let word := leBytes 8 (s.imageOf r th j).toNat
          let block := [j / 2 * 2, j / 2 * 2 + 1].flatMap fun i => leBytes 8 (s.imageOf r th i).toNat
          (∃ t, exec (.debugImageAccess r (8 * j) none) s = .next t ∧ MemoryKept s t ∧ t.hostRead =
            (if c.conf = true then (range (8 * j) 8).map fun a => Config.cipherByte c.key (s.keyNow c.key).2 a block else word)) ∧
          ∀ v, ∃ t, exec (.debugImageAccess r (8 * j) (some v)) s = .next t ∧ MemoryKept s t ∧
            t.thread? r = some (if c.conf = true then th else th.restore (fun i => if i = j then v else s.imageOf r th i) s.beat)) ∧
    ∀ ctx i c, s.context? ctx = some c → c.kdbg = true → i < 4 →
      (∀ a, ∃ t x, exec (.breakpointSet ctx i (some a)) s = .next t ∧ t.context? ctx = some x ∧ lookup? x.breakpoints i = some a ∧
        (∀ k, k ≠ i → lookup? x.breakpoints k = lookup? c.breakpoints k) ∧ MemoryKept s t) ∧
      ∃ t x, exec (.breakpointSet ctx i none) s = .next t ∧ t.context? ctx = some x ∧ lookup? x.breakpoints i = none ∧
        (∀ k, k ≠ i → lookup? x.breakpoints k = lookup? c.breakpoints k) ∧ MemoryKept s t

/-! ## The whole machine -/

/-- R14, R38, R39, R155, R156: a listed activity is the next step. A slot's cycle comes in its turn: it runs the
instruction its word decodes to, as that slot's thread, and an undecodable word raises ILL; the word is the one at hand
for the thread's PC, and without one the thread waits for it. A listed event is carried out, an encoded instruction is not
one, and what comes from outside happens. With nothing listed the machine takes the first event that does something, then
the next slot's cycle, then the end of the rotation (DESIGN CHOICE, log 1). Where it goes beyond the manual's words it
rests on the model's choices of logs 1 and 4. -/
def Obligations.StepRunsDecoded : Prop :=
  (∀ (s : State) (t : ThreadRef) (rest : List Activity), s.agenda = .issue t :: rest →
    let s0 := { s with agenda := rest }
    let s1 := s0.turnTo t
    (s0.inTurn t = false → step s = .next s0) ∧
    (s0.inTurn t = true →
      (∀ w i, s1.fetchFor t = .word w → decode w = some i → step s = exec i { s1 with cur := t, ir := w }) ∧
      (∀ w, s1.fetchFor t = .word w → decode w = none → step s = .next (s1.illegal t w)) ∧
      (∀ a, s1.fetchFor t = .missing a → step s = .next (s1.await t (.fetch a))) ∧
      (s1.fetchFor t = .idle → step s = .next s1) ∧ (s1.fetchFor t = .storeFault → step s = exec (.storeFault t) s0) ∧
      (s1.fetchFor t = .breakpoint → step s = .next (s1.stopThread t)) ∧ (s1.fetchFor t = .trap → step s = .next (s1.settle t)) ∧
      (s1.fetchFor t = .spoiled → step s = .next (s1.spoilt t))) ∧
    ∀ th w, s.thread? t = some th → s.canIssue t = true → th.trapDue = false → th.member = false → s.storeFaultPending t = false →
      s.breakAt th = false →
      th.fetched = some (th.pc, w) ∨ (th.fetched = none ∧ ∃ r, (s.core t.core).icache = (th.ctx, th.pc, w) :: r) → s1.fetchFor t = .word w) ∧
  (∀ (s : State) (i : Instr) (rest : List Activity), s.agenda = .event i :: rest →
    (encode i = none → step s = exec i { s with agenda := rest }) ∧ (encode i ≠ none → step s = .next { s with agenda := rest })) ∧
  (∀ (s : State) (x : Outside) (rest : List Activity), s.agenda = .outside x :: rest →
    step s = .next (State.takeInput { s with agenda := rest } x)) ∧
  (∀ s : State, s.agenda = [] →
    (∀ t, s.firstEffect s.internal = some t → step s = .next t) ∧
    (∀ t, s.firstEffect s.internal = none → s.nextSlot? = some t → step s = (s.turnTo t).issueStep t) ∧
    (s.firstEffect s.internal = none → s.nextSlot? = none → step s = exec .rotation s)) ∧
  ∀ (w : BitVec 32) (i : Instr), decode w = some i → step (State.reset.withFetchWord 32 w.toNat) =
    exec i { State.turnTo { State.reset.withFetchWord 32 w.toNat with agenda := [] } ⟨0, 0⟩ with cur := ⟨0, 0⟩, ir := w }

/-- R14, R19, R28-R38: the words of some instructions, one of most families, written out from the opcode map, decode to
them, and words that R38 leaves out decode to none. -/
def Obligations.WordsDecode : Prop :=
  let al : Pred := ⟨0, 15⟩
  decode 0x78110C40#32 = some (.add al 2 3 2) ∧ decode 0x7A084001#32 = some (.mfs al 16 0x4001) ∧
  decode 0x79B87FFE#32 = some (.loop al 16 (-2)) ∧ decode 0x7A200007#32 = some (.nop al) ∧ decode 0x7A200003#32 = some (.drainSt al) ∧
  decode 0x7B36A800#32 = some (.ldW al 13 10 0 0) ∧ decode 0x7B485000#32 = some (.ldT al 16 20 0 0) ∧
  decode 0x7FE82840#32 = some (.bqPop al 16 10 1) ∧ decode 0x7FA05000#32 = some (.fenceS al 20) ∧
  decode 0x7F594400#32 = some (.mxDrain al 18 17 0) ∧ decode 0x7F631C01#32 = some (.rowout al 6 7) ∧
  decode 0x7FC1A401#32 = some (.launch al 3 9) ∧ decode 0x7FD50000#32 = some (.xfer al 10) ∧
  decode 0x00000000#32 = none ∧ decode 0x7A20000F#32 = none ∧ decode 0x7A200407#32 = none ∧ decode 0x60110C40#32 = none

/-- R14, R15, R19-R38: every well-formed instruction's word decodes to it (a TLBW row, whose operation stands in a
register, to the row of its word), and a word that decodes is the word of its instruction: no bit is dropped and no word
is two. Where it goes beyond the manual's words it rests on the model's choices of log 26. -/
def Obligations.DecodeEncode : Prop :=
  (∀ (i : Instr) (w : BitVec 32), wf i = true → encode i = some w → decode w = some (canon i)) ∧
  (∀ (w : BitVec 32) (i : Instr), decode w = some i → wf i = true ∧ encode i = some w) ∧
  ∀ (nbits w : Nat), nbits ≤ 32 → decodeTableWord nbits w = decode (BitVec.ofNat 32 w)

/-- The invariant that every step keeps: memory in canonical form, addresses rising and no byte listed that reads as an
unlisted one. -/
def Obligations.StepKeepsInv : Prop :=
  ∀ s t : State, Inv s → step s = .next t → Inv t

/-- R66, R70, R155, R182, R189, R195, R220, R320, R355, R356: a cold reset keeps nothing but the fuses; the machine right
after a cold reset meets the invariant; the rotation count is 0, no slot holds a thread, no context is active, no band
runs, the package is powered at step 18, and every word outside the RECORD areas is full (the zero bytes of log 3 and the
zero registers of log 2 are the model's choice); a thread comes to its slot with the reset values of the special
registers. Where it goes beyond the manual's words it rests on the model's choices of logs 2 and 3. -/
def Obligations.ResetState : Prop :=
  (∀ s : State, exec .coldReset s = .next { State.reset with agenda := s.agenda, fresh := s.fresh + 64, keys := [(0, false, s.fresh)] }) ∧
  Inv State.reset ∧ State.reset.beat = 0 ∧ State.reset.powered = true ∧ State.reset.fstep = 18 ∧ State.reset.bootStage = 0 ∧
  State.reset.contexts = [] ∧ State.reset.bands = [] ∧ State.reset.flights = [] ∧ State.reset.dbgUnlocked = false ∧
  (∀ r, State.reset.thread? r = none) ∧ (∀ k, State.reset.readByte k = 0 ∧ State.reset.full k = !isRecord k) ∧
  (∀ n, (State.reset.core n).mboxSize = 0 ∧ (State.reset.core n).mboxHead = 0 ∧ (State.reset.core n).mboxTail = 0) ∧
  (∀ n, (State.reset.cluster n).lastGrant = 63 ∧ (State.reset.cluster n).owner = none) ∧
  let th := Thread.blank
  th.mode = .run ∧ th.feBudget = 0x1000000 ∧ th.chBudget = 0x1000000 ∧ th.barBudget = 0x1000000 ∧ th.portCfg = 0 ∧ th.portTag = 0 ∧
  th.fpCtl = 0 ∧ th.fpFlags = 0 ∧ th.lmask = 0xFFFFFFFF ∧ th.trapVec = 0 ∧ th.sq = .fetching ∧ (∀ r, th.readS r = 0) ∧ (∀ r, th.readF r = 0)
end

