-- ==== Sys2Proof/Laws/Dispatch.lean ====
section
/-! SUPPORT. The meaning that exec gives each instruction: one equation per constructor, so that no proof unfolds exec. -/

set_option Elab.async false

namespace Sys2Proof.Machine

theorem exec_add {p d a b} (s : State) : exec (.add p d a b) s = execAdd p d a b s := rfl
theorem exec_sub {p d a b} (s : State) : exec (.sub p d a b) s = execSub p d a b s := rfl
theorem exec_and {p d a b} (s : State) : exec (.and p d a b) s = execAnd p d a b s := rfl
theorem exec_or {p d a b} (s : State) : exec (.or p d a b) s = execOr p d a b s := rfl
theorem exec_xor {p d a b} (s : State) : exec (.xor p d a b) s = execXor p d a b s := rfl
theorem exec_andn {p d a b} (s : State) : exec (.andn p d a b) s = execAndn p d a b s := rfl
theorem exec_shl {p d a b} (s : State) : exec (.shl p d a b) s = execShl p d a b s := rfl
theorem exec_shr {p d a b} (s : State) : exec (.shr p d a b) s = execShr p d a b s := rfl
theorem exec_sar {p d a b} (s : State) : exec (.sar p d a b) s = execSar p d a b s := rfl
theorem exec_ror {p d a b} (s : State) : exec (.ror p d a b) s = execRor p d a b s := rfl
theorem exec_minS64 {p d a b} (s : State) : exec (.minS64 p d a b) s = execMinS64 p d a b s := rfl
theorem exec_minZ64 {p d a b} (s : State) : exec (.minZ64 p d a b) s = execMinZ64 p d a b s := rfl
theorem exec_maxS64 {p d a b} (s : State) : exec (.maxS64 p d a b) s = execMaxS64 p d a b s := rfl
theorem exec_maxZ64 {p d a b} (s : State) : exec (.maxZ64 p d a b) s = execMaxZ64 p d a b s := rfl
theorem exec_addsS64 {p d a b} (s : State) : exec (.addsS64 p d a b) s = execAddsS64 p d a b s := rfl
theorem exec_subsS64 {p d a b} (s : State) : exec (.subsS64 p d a b) s = execSubsS64 p d a b s := rfl
theorem exec_mul {p d a b} (s : State) : exec (.mul p d a b) s = execMul p d a b s := rfl
theorem exec_mulhS64 {p d a b} (s : State) : exec (.mulhS64 p d a b) s = execMulhS64 p d a b s := rfl
theorem exec_mulhZ64 {p d a b} (s : State) : exec (.mulhZ64 p d a b) s = execMulhZ64 p d a b s := rfl
theorem exec_divS64 {p d a b} (s : State) : exec (.divS64 p d a b) s = execDivS64 p d a b s := rfl
theorem exec_divZ64 {p d a b} (s : State) : exec (.divZ64 p d a b) s = execDivZ64 p d a b s := rfl
theorem exec_remS64 {p d a b} (s : State) : exec (.remS64 p d a b) s = execRemS64 p d a b s := rfl
theorem exec_remZ64 {p d a b} (s : State) : exec (.remZ64 p d a b) s = execRemZ64 p d a b s := rfl
theorem exec_clz {p d a} (s : State) : exec (.clz p d a) s = execClz p d a s := rfl
theorem exec_ctz {p d a} (s : State) : exec (.ctz p d a) s = execCtz p d a s := rfl
theorem exec_popc {p d a} (s : State) : exec (.popc p d a) s = execPopc p d a s := rfl
theorem exec_brev {p d a} (s : State) : exec (.brev p d a) s = execBrev p d a s := rfl
theorem exec_bswap {p d a} (s : State) : exec (.bswap p d a) s = execBswap p d a s := rfl
theorem exec_bfxZ {p d a b} (s : State) : exec (.bfxZ p d a b) s = execBfxZ p d a b s := rfl
theorem exec_bfxS {p d a b} (s : State) : exec (.bfxS p d a b) s = execBfxS p d a b s := rfl
theorem exec_bfi {p d a b} (s : State) : exec (.bfi p d a b) s = execBfi p d a b s := rfl
theorem exec_extS8 {p d a} (s : State) : exec (.extS8 p d a) s = execExtS8 p d a s := rfl
theorem exec_extS16 {p d a} (s : State) : exec (.extS16 p d a) s = execExtS16 p d a s := rfl
theorem exec_extS32 {p d a} (s : State) : exec (.extS32 p d a) s = execExtS32 p d a s := rfl
theorem exec_extZ8 {p d a} (s : State) : exec (.extZ8 p d a) s = execExtZ8 p d a s := rfl
theorem exec_extZ16 {p d a} (s : State) : exec (.extZ16 p d a) s = execExtZ16 p d a s := rfl
theorem exec_extZ32 {p d a} (s : State) : exec (.extZ32 p d a) s = execExtZ32 p d a s := rfl
theorem exec_cmpEq {p d a b} (s : State) : exec (.cmpEq p d a b) s = execCmpEq p d a b s := rfl
theorem exec_cmpNe {p d a b} (s : State) : exec (.cmpNe p d a b) s = execCmpNe p d a b s := rfl
theorem exec_cmpLtS64 {p d a b} (s : State) : exec (.cmpLtS64 p d a b) s = execCmpLtS64 p d a b s := rfl
theorem exec_cmpLtZ64 {p d a b} (s : State) : exec (.cmpLtZ64 p d a b) s = execCmpLtZ64 p d a b s := rfl
theorem exec_cmpLeS64 {p d a b} (s : State) : exec (.cmpLeS64 p d a b) s = execCmpLeS64 p d a b s := rfl
theorem exec_cmpLeZ64 {p d a b} (s : State) : exec (.cmpLeZ64 p d a b) s = execCmpLeZ64 p d a b s := rfl
theorem exec_addl {p d imm} (s : State) : exec (.addl p d imm) s = execAddl p d imm s := rfl
theorem exec_addi {p d a imm} (s : State) : exec (.addi p d a imm) s = execAddi p d a imm s := rfl
theorem exec_andi {p d a imm} (s : State) : exec (.andi p d a imm) s = execAndi p d a imm s := rfl
theorem exec_ori {p d a imm} (s : State) : exec (.ori p d a imm) s = execOri p d a imm s := rfl
theorem exec_xori {p d a imm} (s : State) : exec (.xori p d a imm) s = execXori p d a imm s := rfl
theorem exec_shli {p d a c} (s : State) : exec (.shli p d a c) s = execShli p d a c s := rfl
theorem exec_shri {p d a c} (s : State) : exec (.shri p d a c) s = execShri p d a c s := rfl
theorem exec_sari {p d a c} (s : State) : exec (.sari p d a c) s = execSari p d a c s := rfl
theorem exec_rori {p d a c} (s : State) : exec (.rori p d a c) s = execRori p d a c s := rfl
theorem exec_cmpiEq {p d a imm} (s : State) : exec (.cmpiEq p d a imm) s = execCmpiEq p d a imm s := rfl
theorem exec_cmpiNe {p d a imm} (s : State) : exec (.cmpiNe p d a imm) s = execCmpiNe p d a imm s := rfl
theorem exec_cmpiLtS64 {p d a imm} (s : State) : exec (.cmpiLtS64 p d a imm) s = execCmpiLtS64 p d a imm s := rfl
theorem exec_cmpiLtZ64 {p d a imm} (s : State) : exec (.cmpiLtZ64 p d a imm) s = execCmpiLtZ64 p d a imm s := rfl
theorem exec_cmpiLeS64 {p d a imm} (s : State) : exec (.cmpiLeS64 p d a imm) s = execCmpiLeS64 p d a imm s := rfl
theorem exec_cmpiLeZ64 {p d a imm} (s : State) : exec (.cmpiLeZ64 p d a imm) s = execCmpiLeZ64 p d a imm s := rfl
theorem exec_cmpiGtS64 {p d a imm} (s : State) : exec (.cmpiGtS64 p d a imm) s = execCmpiGtS64 p d a imm s := rfl
theorem exec_cmpiGtZ64 {p d a imm} (s : State) : exec (.cmpiGtZ64 p d a imm) s = execCmpiGtZ64 p d a imm s := rfl
theorem exec_li {p d imm} (s : State) : exec (.li p d imm) s = execLi p d imm s := rfl
theorem exec_lis {p d imm} (s : State) : exec (.lis p d imm) s = execLis p d imm s := rfl
theorem exec_addpc {p d imm} (s : State) : exec (.addpc p d imm) s = execAddpc p d imm s := rfl
theorem exec_addpch {p d imm} (s : State) : exec (.addpch p d imm) s = execAddpch p d imm s := rfl
theorem exec_faddD {p d a b} (s : State) : exec (.faddD p d a b) s = execFaddD p d a b s := rfl
theorem exec_fsubD {p d a b} (s : State) : exec (.fsubD p d a b) s = execFsubD p d a b s := rfl
theorem exec_fmulD {p d a b} (s : State) : exec (.fmulD p d a b) s = execFmulD p d a b s := rfl
theorem exec_fdivD {p d a b} (s : State) : exec (.fdivD p d a b) s = execFdivD p d a b s := rfl
theorem exec_fsqrtD {p d a} (s : State) : exec (.fsqrtD p d a) s = execFsqrtD p d a s := rfl
theorem exec_fminD {p d a b} (s : State) : exec (.fminD p d a b) s = execFminD p d a b s := rfl
theorem exec_fmaxD {p d a b} (s : State) : exec (.fmaxD p d a b) s = execFmaxD p d a b s := rfl
theorem exec_fabsD {p d a} (s : State) : exec (.fabsD p d a) s = execFabsD p d a s := rfl
theorem exec_fnegD {p d a} (s : State) : exec (.fnegD p d a) s = execFnegD p d a s := rfl
theorem exec_faddF {p d a b} (s : State) : exec (.faddF p d a b) s = execFaddF p d a b s := rfl
theorem exec_fsubF {p d a b} (s : State) : exec (.fsubF p d a b) s = execFsubF p d a b s := rfl
theorem exec_fmulF {p d a b} (s : State) : exec (.fmulF p d a b) s = execFmulF p d a b s := rfl
theorem exec_fdivF {p d a b} (s : State) : exec (.fdivF p d a b) s = execFdivF p d a b s := rfl
theorem exec_fsqrtF {p d a} (s : State) : exec (.fsqrtF p d a) s = execFsqrtF p d a s := rfl
theorem exec_fminF {p d a b} (s : State) : exec (.fminF p d a b) s = execFminF p d a b s := rfl
theorem exec_fmaxF {p d a b} (s : State) : exec (.fmaxF p d a b) s = execFmaxF p d a b s := rfl
theorem exec_fabsF {p d a} (s : State) : exec (.fabsF p d a) s = execFabsF p d a s := rfl
theorem exec_fnegF {p d a} (s : State) : exec (.fnegF p d a) s = execFnegF p d a s := rfl
theorem exec_fmaD {p d a b} (s : State) : exec (.fmaD p d a b) s = execFmaD p d a b s := rfl
theorem exec_fmsD {p d a b} (s : State) : exec (.fmsD p d a b) s = execFmsD p d a b s := rfl
theorem exec_fmaF {p d a b} (s : State) : exec (.fmaF p d a b) s = execFmaF p d a b s := rfl
theorem exec_fmsF {p d a b} (s : State) : exec (.fmsF p d a b) s = execFmsF p d a b s := rfl
theorem exec_fcmpEqD {p d a b} (s : State) : exec (.fcmpEqD p d a b) s = execFcmpEqD p d a b s := rfl
theorem exec_fcmpLtD {p d a b} (s : State) : exec (.fcmpLtD p d a b) s = execFcmpLtD p d a b s := rfl
theorem exec_fcmpLeD {p d a b} (s : State) : exec (.fcmpLeD p d a b) s = execFcmpLeD p d a b s := rfl
theorem exec_fcmpUnD {p d a b} (s : State) : exec (.fcmpUnD p d a b) s = execFcmpUnD p d a b s := rfl
theorem exec_fcmpEqF {p d a b} (s : State) : exec (.fcmpEqF p d a b) s = execFcmpEqF p d a b s := rfl
theorem exec_fcmpLtF {p d a b} (s : State) : exec (.fcmpLtF p d a b) s = execFcmpLtF p d a b s := rfl
theorem exec_fcmpLeF {p d a b} (s : State) : exec (.fcmpLeF p d a b) s = execFcmpLeF p d a b s := rfl
theorem exec_fcmpUnF {p d a b} (s : State) : exec (.fcmpUnF p d a b) s = execFcmpUnF p d a b s := rfl
theorem exec_cvtFD {p d a r} (s : State) : exec (.cvtFD p d a r) s = execCvtFD p d a r s := rfl
theorem exec_cvtDF {p d a} (s : State) : exec (.cvtDF p d a) s = execCvtDF p d a s := rfl
theorem exec_cvtDS64 {p d a r} (s : State) : exec (.cvtDS64 p d a r) s = execCvtDS64 p d a r s := rfl
theorem exec_cvtDZ64 {p d a r} (s : State) : exec (.cvtDZ64 p d a r) s = execCvtDZ64 p d a r s := rfl
theorem exec_cvtS64D {p d a r} (s : State) : exec (.cvtS64D p d a r) s = execCvtS64D p d a r s := rfl
theorem exec_cvtZ64D {p d a r} (s : State) : exec (.cvtZ64D p d a r) s = execCvtZ64D p d a r s := rfl
theorem exec_cvtFS64 {p d a r} (s : State) : exec (.cvtFS64 p d a r) s = execCvtFS64 p d a r s := rfl
theorem exec_cvtS64F {p d a r} (s : State) : exec (.cvtS64F p d a r) s = execCvtS64F p d a r s := rfl
theorem exec_cvtFZ64 {p d a r} (s : State) : exec (.cvtFZ64 p d a r) s = execCvtFZ64 p d a r s := rfl
theorem exec_cvtZ64F {p d a r} (s : State) : exec (.cvtZ64F p d a r) s = execCvtZ64F p d a r s := rfl
theorem exec_fclassD {p d a} (s : State) : exec (.fclassD p d a) s = execFclassD p d a s := rfl
theorem exec_fclassF {p d a} (s : State) : exec (.fclassF p d a) s = execFclassF p d a s := rfl
theorem exec_br {p imm} (s : State) : exec (.br p imm) s = execBr p imm s := rfl
theorem exec_call {p imm} (s : State) : exec (.call p imm) s = execCall p imm s := rfl
theorem exec_jmp {p a} (s : State) : exec (.jmp p a) s = execJmp p a s := rfl
theorem exec_callr {p d a} (s : State) : exec (.callr p d a) s = execCallr p d a s := rfl
theorem exec_loop {p d imm} (s : State) : exec (.loop p d imm) s = execLoop p d imm s := rfl
theorem exec_bany {p g imm} (s : State) : exec (.bany p g imm) s = execBany p g imm s := rfl
theorem exec_ball {p g imm} (s : State) : exec (.ball p g imm) s = execBall p g imm s := rfl
theorem exec_mfs {p d c} (s : State) : exec (.mfs p d c) s = execMfs p d c s := rfl
theorem exec_mts {p d c} (s : State) : exec (.mts p d c) s = execMts p d c s := rfl
theorem exec_eret {p} (s : State) : exec (.eret p) s = execEret p s := rfl
theorem exec_brk {p} (s : State) : exec (.brk p) s = execBrk p s := rfl
theorem exec_halt {p} (s : State) : exec (.halt p) s = execHalt p s := rfl
theorem exec_drainSt {p} (s : State) : exec (.drainSt p) s = execDrainSt p s := rfl
theorem exec_fenceI {p} (s : State) : exec (.fenceI p) s = execFenceI p s := rfl
theorem exec_tlbwWriteEntry {p a b} (s : State) : exec (.tlbwWriteEntry p a b) s = execTlbwWriteEntry p a b s := rfl
theorem exec_tlbwInvalidatePage {p a b} (s : State) : exec (.tlbwInvalidatePage p a b) s = execTlbwInvalidatePage p a b s := rfl
theorem exec_tlbwFailMiss {p a b} (s : State) : exec (.tlbwFailMiss p a b) s = execTlbwFailMiss p a b s := rfl
theorem exec_tlbwInvalidateContext {p a b} (s : State) : exec (.tlbwInvalidateContext p a b) s = execTlbwInvalidateContext p a b s := rfl
theorem exec_sleep {p} (s : State) : exec (.sleep p) s = execSleep p s := rfl
theorem exec_nop {p} (s : State) : exec (.nop p) s = execNop p s := rfl
theorem exec_trap {p imm} (s : State) : exec (.trap p imm) s = execTrap p imm s := rfl
theorem exec_ld {p t b l o} (s : State) : exec (.ld p t b l o) s = execLd p t b l o s := rfl
theorem exec_ldS32 {p t b l o} (s : State) : exec (.ldS32 p t b l o) s = execLdS32 p t b l o s := rfl
theorem exec_ldZ32 {p t b l o} (s : State) : exec (.ldZ32 p t b l o) s = execLdZ32 p t b l o s := rfl
theorem exec_ldS16 {p t b l o} (s : State) : exec (.ldS16 p t b l o) s = execLdS16 p t b l o s := rfl
theorem exec_ldZ16 {p t b l o} (s : State) : exec (.ldZ16 p t b l o) s = execLdZ16 p t b l o s := rfl
theorem exec_ldS8 {p t b l o} (s : State) : exec (.ldS8 p t b l o) s = execLdS8 p t b l o s := rfl
theorem exec_ldZ8 {p t b l o} (s : State) : exec (.ldZ8 p t b l o) s = execLdZ8 p t b l o s := rfl
theorem exec_st {p t b o} (s : State) : exec (.st p t b o) s = execSt p t b o s := rfl
theorem exec_st32 {p t b o} (s : State) : exec (.st32 p t b o) s = execSt32 p t b o s := rfl
theorem exec_st16 {p t b o} (s : State) : exec (.st16 p t b o) s = execSt16 p t b o s := rfl
theorem exec_st8 {p t b o} (s : State) : exec (.st8 p t b o) s = execSt8 p t b o s := rfl
theorem exec_ldW {p t b l o} (s : State) : exec (.ldW p t b l o) s = execLdW p t b l o s := rfl
theorem exec_ldT {p t b l o} (s : State) : exec (.ldT p t b l o) s = execLdT p t b l o s := rfl
theorem exec_stF {p t b o} (s : State) : exec (.stF p t b o) s = execStF p t b o s := rfl
theorem exec_stS {p t b o} (s : State) : exec (.stS p t b o) s = execStS p t b o s := rfl
theorem exec_feProbe {p t b l o} (s : State) : exec (.feProbe p t b l o) s = execFeProbe p t b l o s := rfl
theorem exec_feClr {p b o} (s : State) : exec (.feClr p b o) s = execFeClr p b o s := rfl
theorem exec_amoAdd {p x y l} (s : State) : exec (.amoAdd p x y l) s = execAmoAdd p x y l s := rfl
theorem exec_amoAnd {p x y l} (s : State) : exec (.amoAnd p x y l) s = execAmoAnd p x y l s := rfl
theorem exec_amoOr {p x y l} (s : State) : exec (.amoOr p x y l) s = execAmoOr p x y l s := rfl
theorem exec_amoXor {p x y l} (s : State) : exec (.amoXor p x y l) s = execAmoXor p x y l s := rfl
theorem exec_amoMinS64 {p x y l} (s : State) : exec (.amoMinS64 p x y l) s = execAmoMinS64 p x y l s := rfl
theorem exec_amoMaxS64 {p x y l} (s : State) : exec (.amoMaxS64 p x y l) s = execAmoMaxS64 p x y l s := rfl
theorem exec_amoMinZ64 {p x y l} (s : State) : exec (.amoMinZ64 p x y l) s = execAmoMinZ64 p x y l s := rfl
theorem exec_amoMaxZ64 {p x y l} (s : State) : exec (.amoMaxZ64 p x y l) s = execAmoMaxZ64 p x y l s := rfl
theorem exec_amoSwap {p x y l} (s : State) : exec (.amoSwap p x y l) s = execAmoSwap p x y l s := rfl
theorem exec_amoCas {p x y l} (s : State) : exec (.amoCas p x y l) s = execAmoCas p x y l s := rfl
theorem exec_redAdd {p x y} (s : State) : exec (.redAdd p x y) s = execRedAdd p x y s := rfl
theorem exec_redAnd {p x y} (s : State) : exec (.redAnd p x y) s = execRedAnd p x y s := rfl
theorem exec_redOr {p x y} (s : State) : exec (.redOr p x y) s = execRedOr p x y s := rfl
theorem exec_redMinS64 {p x y} (s : State) : exec (.redMinS64 p x y) s = execRedMinS64 p x y s := rfl
theorem exec_redMaxS64 {p x y} (s : State) : exec (.redMaxS64 p x y) s = execRedMaxS64 p x y s := rfl
theorem exec_redMinZ64 {p x y} (s : State) : exec (.redMinZ64 p x y) s = execRedMinZ64 p x y s := rfl
theorem exec_redMaxZ64 {p x y} (s : State) : exec (.redMaxZ64 p x y) s = execRedMaxZ64 p x y s := rfl
theorem exec_rfence {p} (s : State) : exec (.rfence p) s = execRfence p s := rfl
theorem exec_cpPlain {p d a b} (s : State) : exec (.cpPlain p d a b) s = execCpPlain p d a b s := rfl
theorem exec_cpCopy {p d a b} (s : State) : exec (.cpCopy p d a b) s = execCpCopy p d a b s := rfl
theorem exec_cpFill {p d a b} (s : State) : exec (.cpFill p d a b) s = execCpFill p d a b s := rfl
theorem exec_cpNeed {p d a b} (s : State) : exec (.cpNeed p d a b) s = execCpNeed p d a b s := rfl
theorem exec_cpTake {p d a b} (s : State) : exec (.cpTake p d a b) s = execCpTake p d a b s := rfl
theorem exec_cbatch {p d} (s : State) : exec (.cbatch p d) s = execCbatch p d s := rfl
theorem exec_cwait {p a} (s : State) : exec (.cwait p a) s = execCwait p a s := rfl
theorem exec_xfence {p} (s : State) : exec (.xfence p) s = execXfence p s := rfl
theorem exec_vAdd {p d a b} (s : State) : exec (.vAdd p d a b) s = execVAdd p d a b s := rfl
theorem exec_vSub {p d a b} (s : State) : exec (.vSub p d a b) s = execVSub p d a b s := rfl
theorem exec_vMul {p d a b} (s : State) : exec (.vMul p d a b) s = execVMul p d a b s := rfl
theorem exec_vMulhS32 {p d a b} (s : State) : exec (.vMulhS32 p d a b) s = execVMulhS32 p d a b s := rfl
theorem exec_vMulhZ32 {p d a b} (s : State) : exec (.vMulhZ32 p d a b) s = execVMulhZ32 p d a b s := rfl
theorem exec_vAnd {p d a b} (s : State) : exec (.vAnd p d a b) s = execVAnd p d a b s := rfl
theorem exec_vOr {p d a b} (s : State) : exec (.vOr p d a b) s = execVOr p d a b s := rfl
theorem exec_vXor {p d a b} (s : State) : exec (.vXor p d a b) s = execVXor p d a b s := rfl
theorem exec_vShl {p d a b} (s : State) : exec (.vShl p d a b) s = execVShl p d a b s := rfl
theorem exec_vShr {p d a b} (s : State) : exec (.vShr p d a b) s = execVShr p d a b s := rfl
theorem exec_vSar {p d a b} (s : State) : exec (.vSar p d a b) s = execVSar p d a b s := rfl
theorem exec_vMinS32 {p d a b} (s : State) : exec (.vMinS32 p d a b) s = execVMinS32 p d a b s := rfl
theorem exec_vMinZ32 {p d a b} (s : State) : exec (.vMinZ32 p d a b) s = execVMinZ32 p d a b s := rfl
theorem exec_vMaxS32 {p d a b} (s : State) : exec (.vMaxS32 p d a b) s = execVMaxS32 p d a b s := rfl
theorem exec_vMaxZ32 {p d a b} (s : State) : exec (.vMaxZ32 p d a b) s = execVMaxZ32 p d a b s := rfl
theorem exec_vAddsS32 {p d a b} (s : State) : exec (.vAddsS32 p d a b) s = execVAddsS32 p d a b s := rfl
theorem exec_vSubsS32 {p d a b} (s : State) : exec (.vSubsS32 p d a b) s = execVSubsS32 p d a b s := rfl
theorem exec_vAbsS32 {p d a} (s : State) : exec (.vAbsS32 p d a) s = execVAbsS32 p d a s := rfl
theorem exec_vFaddF {p d a b} (s : State) : exec (.vFaddF p d a b) s = execVFaddF p d a b s := rfl
theorem exec_vFsubF {p d a b} (s : State) : exec (.vFsubF p d a b) s = execVFsubF p d a b s := rfl
theorem exec_vFmulF {p d a b} (s : State) : exec (.vFmulF p d a b) s = execVFmulF p d a b s := rfl
theorem exec_vFdivF {p d a b} (s : State) : exec (.vFdivF p d a b) s = execVFdivF p d a b s := rfl
theorem exec_vFsqrtF {p d a} (s : State) : exec (.vFsqrtF p d a) s = execVFsqrtF p d a s := rfl
theorem exec_vFminF {p d a b} (s : State) : exec (.vFminF p d a b) s = execVFminF p d a b s := rfl
theorem exec_vFmaxF {p d a b} (s : State) : exec (.vFmaxF p d a b) s = execVFmaxF p d a b s := rfl
theorem exec_vFabsF {p d a} (s : State) : exec (.vFabsF p d a) s = execVFabsF p d a s := rfl
theorem exec_vFnegF {p d a} (s : State) : exec (.vFnegF p d a) s = execVFnegF p d a s := rfl
theorem exec_vFmaF {p d a b} (s : State) : exec (.vFmaF p d a b) s = execVFmaF p d a b s := rfl
theorem exec_vFmsF {p d a b} (s : State) : exec (.vFmsF p d a b) s = execVFmsF p d a b s := rfl
theorem exec_vFaddH {p d a b} (s : State) : exec (.vFaddH p d a b) s = execVFaddH p d a b s := rfl
theorem exec_vFmulH {p d a b} (s : State) : exec (.vFmulH p d a b) s = execVFmulH p d a b s := rfl
theorem exec_vFmaH {p d a b} (s : State) : exec (.vFmaH p d a b) s = execVFmaH p d a b s := rfl
theorem exec_vFaddB {p d a b} (s : State) : exec (.vFaddB p d a b) s = execVFaddB p d a b s := rfl
theorem exec_vFmulB {p d a b} (s : State) : exec (.vFmulB p d a b) s = execVFmulB p d a b s := rfl
theorem exec_vFmaB {p d a b} (s : State) : exec (.vFmaB p d a b) s = execVFmaB p d a b s := rfl
theorem exec_vFaddD {p d a b} (s : State) : exec (.vFaddD p d a b) s = execVFaddD p d a b s := rfl
theorem exec_vFsubD {p d a b} (s : State) : exec (.vFsubD p d a b) s = execVFsubD p d a b s := rfl
theorem exec_vFmulD {p d a b} (s : State) : exec (.vFmulD p d a b) s = execVFmulD p d a b s := rfl
theorem exec_vFmaD {p d a b} (s : State) : exec (.vFmaD p d a b) s = execVFmaD p d a b s := rfl
theorem exec_vFminD {p d a b} (s : State) : exec (.vFminD p d a b) s = execVFminD p d a b s := rfl
theorem exec_vFmaxD {p d a b} (s : State) : exec (.vFmaxD p d a b) s = execVFmaxD p d a b s := rfl
theorem exec_vFdivD {p d a b} (s : State) : exec (.vFdivD p d a b) s = execVFdivD p d a b s := rfl
theorem exec_vFsqrtD {p d a} (s : State) : exec (.vFsqrtD p d a) s = execVFsqrtD p d a s := rfl
theorem exec_vCmpEq {p d a b} (s : State) : exec (.vCmpEq p d a b) s = execVCmpEq p d a b s := rfl
theorem exec_vCmpNe {p d a b} (s : State) : exec (.vCmpNe p d a b) s = execVCmpNe p d a b s := rfl
theorem exec_vCmpLtS32 {p d a b} (s : State) : exec (.vCmpLtS32 p d a b) s = execVCmpLtS32 p d a b s := rfl
theorem exec_vCmpLtZ32 {p d a b} (s : State) : exec (.vCmpLtZ32 p d a b) s = execVCmpLtZ32 p d a b s := rfl
theorem exec_vCmpLeS32 {p d a b} (s : State) : exec (.vCmpLeS32 p d a b) s = execVCmpLeS32 p d a b s := rfl
theorem exec_vCmpLeZ32 {p d a b} (s : State) : exec (.vCmpLeZ32 p d a b) s = execVCmpLeZ32 p d a b s := rfl
theorem exec_vFcmpEqF {p d a b} (s : State) : exec (.vFcmpEqF p d a b) s = execVFcmpEqF p d a b s := rfl
theorem exec_vFcmpLtF {p d a b} (s : State) : exec (.vFcmpLtF p d a b) s = execVFcmpLtF p d a b s := rfl
theorem exec_vFcmpLeF {p d a b} (s : State) : exec (.vFcmpLeF p d a b) s = execVFcmpLeF p d a b s := rfl
theorem exec_vFcmpUnF {p d a b} (s : State) : exec (.vFcmpUnF p d a b) s = execVFcmpUnF p d a b s := rfl
theorem exec_vCvtFS32 {p d a r} (s : State) : exec (.vCvtFS32 p d a r) s = execVCvtFS32 p d a r s := rfl
theorem exec_vCvtS32F {p d a r} (s : State) : exec (.vCvtS32F p d a r) s = execVCvtS32F p d a r s := rfl
theorem exec_vCvtHF {p d a r} (s : State) : exec (.vCvtHF p d a r) s = execVCvtHF p d a r s := rfl
theorem exec_vCvtFH {p d a} (s : State) : exec (.vCvtFH p d a) s = execVCvtFH p d a s := rfl
theorem exec_vCvtBF {p d a r} (s : State) : exec (.vCvtBF p d a r) s = execVCvtBF p d a r s := rfl
theorem exec_vCvtFB {p d a} (s : State) : exec (.vCvtFB p d a) s = execVCvtFB p d a s := rfl
theorem exec_vCvtE43F {p d a r} (s : State) : exec (.vCvtE43F p d a r) s = execVCvtE43F p d a r s := rfl
theorem exec_vCvtFE43 {p d a} (s : State) : exec (.vCvtFE43 p d a) s = execVCvtFE43 p d a s := rfl
theorem exec_vCvtE52F {p d a r} (s : State) : exec (.vCvtE52F p d a r) s = execVCvtE52F p d a r s := rfl
theorem exec_vCvtFE52 {p d a} (s : State) : exec (.vCvtFE52 p d a) s = execVCvtFE52 p d a s := rfl
theorem exec_vCvtDF {p d a} (s : State) : exec (.vCvtDF p d a) s = execVCvtDF p d a s := rfl
theorem exec_vCvtFD {p d a r} (s : State) : exec (.vCvtFD p d a r) s = execVCvtFD p d a r s := rfl
theorem exec_vMov {p d a} (s : State) : exec (.vMov p d a) s = execVMov p d a s := rfl
theorem exec_vBcast {p d a} (s : State) : exec (.vBcast p d a) s = execVBcast p d a s := rfl
theorem exec_vPerm {p d a b} (s : State) : exec (.vPerm p d a b) s = execVPerm p d a b s := rfl
theorem exec_vRev {p d a} (s : State) : exec (.vRev p d a) s = execVRev p d a s := rfl
theorem exec_vRot {p d a b} (s : State) : exec (.vRot p d a b) s = execVRot p d a b s := rfl
theorem exec_vIns {p d a b} (s : State) : exec (.vIns p d a b) s = execVIns p d a b s := rfl
theorem exec_vExt {p d a b} (s : State) : exec (.vExt p d a b) s = execVExt p d a b s := rfl
theorem exec_vFirst {p d a} (s : State) : exec (.vFirst p d a) s = execVFirst p d a s := rfl
theorem exec_vRsumF {p d a} (s : State) : exec (.vRsumF p d a) s = execVRsumF p d a s := rfl
theorem exec_vRsumS32 {p d a} (s : State) : exec (.vRsumS32 p d a) s = execVRsumS32 p d a s := rfl
theorem exec_vRminF {p d a} (s : State) : exec (.vRminF p d a) s = execVRminF p d a s := rfl
theorem exec_vRmaxF {p d a} (s : State) : exec (.vRmaxF p d a) s = execVRmaxF p d a s := rfl
theorem exec_vRminS32 {p d a} (s : State) : exec (.vRminS32 p d a) s = execVRminS32 p d a s := rfl
theorem exec_vRmaxS32 {p d a} (s : State) : exec (.vRmaxS32 p d a) s = execVRmaxS32 p d a s := rfl
theorem exec_vRand {p d a} (s : State) : exec (.vRand p d a) s = execVRand p d a s := rfl
theorem exec_vRbor {p d a} (s : State) : exec (.vRbor p d a) s = execVRbor p d a s := rfl
theorem exec_vRxor {p d a} (s : State) : exec (.vRxor p d a) s = execVRxor p d a s := rfl
theorem exec_vJ4dec {p d a b} (s : State) : exec (.vJ4dec p d a b) s = execVJ4dec p d a b s := rfl
theorem exec_vJ4enc {p d a b} (s : State) : exec (.vJ4enc p d a b) s = execVJ4enc p d a b s := rfl
theorem exec_vBaddq {p d a r} (s : State) : exec (.vBaddq p d a r) s = execVBaddq p d a r s := rfl
theorem exec_vLd {p t b l o} (s : State) : exec (.vLd p t b l o) s = execVLd p t b l o s := rfl
theorem exec_vSt {p t b o} (s : State) : exec (.vSt p t b o) s = execVSt p t b o s := rfl
theorem exec_vLds {p x y l sc} (s : State) : exec (.vLds p x y l sc) s = execVLds p x y l sc s := rfl
theorem exec_vSts {p x y sc} (s : State) : exec (.vSts p x y sc) s = execVSts p x y sc s := rfl
theorem exec_vGather {p x y l k} (s : State) : exec (.vGather p x y l k) s = execVGather p x y l k s := rfl
theorem exec_vScatter {p x y k} (s : State) : exec (.vScatter p x y k) s = execVScatter p x y k s := rfl
theorem exec_fAnd {p d a b} (s : State) : exec (.fAnd p d a b) s = execFAnd p d a b s := rfl
theorem exec_fOr {p d a b} (s : State) : exec (.fOr p d a b) s = execFOr p d a b s := rfl
theorem exec_fXor {p d a b} (s : State) : exec (.fXor p d a b) s = execFXor p d a b s := rfl
theorem exec_fAndn {p d a b} (s : State) : exec (.fAndn p d a b) s = execFAndn p d a b s := rfl
theorem exec_fNot {p d a} (s : State) : exec (.fNot p d a) s = execFNot p d a s := rfl
theorem exec_fSet {p d a} (s : State) : exec (.fSet p d a) s = execFSet p d a s := rfl
theorem exec_fGet {p d a} (s : State) : exec (.fGet p d a) s = execFGet p d a s := rfl
theorem exec_fPopc {p d a} (s : State) : exec (.fPopc p d a) s = execFPopc p d a s := rfl
theorem exec_pub {imm} (s : State) : exec (.pub imm) s = execPub imm s := rfl
theorem exec_endpub (s : State) : exec (.endpub) s = execEndpub s := rfl
theorem exec_subscribe {a} (s : State) : exec (.subscribe a) s = execSubscribe a s := rfl
theorem exec_join {k} (s : State) : exec (.join k) s = execJoin k s := rfl
theorem exec_rdv {k} (s : State) : exec (.rdv k) s = execRdv k s := rfl
theorem exec_chSync (s : State) : exec (.chSync) s = execChSync s := rfl
theorem exec_sqkill {p a} (s : State) : exec (.sqkill p a) s = execSqkill p a s := rfl
theorem exec_leave {g k imm} (s : State) : exec (.leave g k imm) s = execLeave g k imm s := rfl
theorem exec_portcfg {p a} (s : State) : exec (.portcfg p a) s = execPortcfg p a s := rfl
theorem exec_send {p a b} (s : State) : exec (.send p a b) s = execSend p a b s := rfl
theorem exec_btag {p d imm} (s : State) : exec (.btag p d imm) s = execBtag p d imm s := rfl
theorem exec_mxCtx {p x} (s : State) : exec (.mxCtx p x) s = execMxCtx p x s := rfl
theorem exec_mxLdb {p y k} (s : State) : exec (.mxLdb p y k) s = execMxLdb p y k s := rfl
theorem exec_mxSetb {p q k} (s : State) : exec (.mxSetb p q k) s = execMxSetb p q k s := rfl
theorem exec_mxMma {p x y q w} (s : State) : exec (.mxMma p x y q w) s = execMxMma p x y q w s := rfl
theorem exec_mxZero {p w} (s : State) : exec (.mxZero p w) s = execMxZero p w s := rfl
theorem exec_mxDrain {p x y w} (s : State) : exec (.mxDrain p x y w) s = execMxDrain p x y w s := rfl
theorem exec_mxDrainRaw {p x y w} (s : State) : exec (.mxDrainRaw p x y w) s = execMxDrainRaw p x y w s := rfl
theorem exec_hresv {p x l} (s : State) : exec (.hresv p x l) s = execHresv p x l s := rfl
theorem exec_rowout {p x y} (s : State) : exec (.rowout p x y) s = execRowout p x y s := rfl
theorem exec_mxBatch {p x l} (s : State) : exec (.mxBatch p x l) s = execMxBatch p x l s := rfl
theorem exec_mxWait {p x} (s : State) : exec (.mxWait p x) s = execMxWait p x s := rfl
theorem exec_mxCnt {p x l g} (s : State) : exec (.mxCnt p x l g) s = execMxCnt p x l g s := rfl
theorem exec_barCfg {p a k} (s : State) : exec (.barCfg p a k) s = execBarCfg p a k s := rfl
theorem exec_barArrive {p k} (s : State) : exec (.barArrive p k) s = execBarArrive p k s := rfl
theorem exec_barWait {p k} (s : State) : exec (.barWait p k) s = execBarWait p k s := rfl
theorem exec_barSync {p k} (s : State) : exec (.barSync p k) s = execBarSync p k s := rfl
theorem exec_ticket {p x y l} (s : State) : exec (.ticket p x y l) s = execTicket p x y l s := rfl
theorem exec_ticketBc {p x y l} (s : State) : exec (.ticketBc p x y l) s = execTicketBc p x y l s := rfl
theorem exec_fenceS {p a} (s : State) : exec (.fenceS p a) s = execFenceS p a s := rfl
theorem exec_go {p a} (s : State) : exec (.go p a) s = execGo p a s := rfl
theorem exec_launch {p d a} (s : State) : exec (.launch p d a) s = execLaunch p d a s := rfl
theorem exec_idemBegin {p a} (s : State) : exec (.idemBegin p a) s = execIdemBegin p a s := rfl
theorem exec_idemEnd {p} (s : State) : exec (.idemEnd p) s = execIdemEnd p s := rfl
theorem exec_xfer {p x} (s : State) : exec (.xfer p x) s = execXfer p x s := rfl
theorem exec_bqPop {p x y l} (s : State) : exec (.bqPop p x y l) s = execBqPop p x y l s := rfl
theorem exec_rotation (s : State) : exec (.rotation) s = execRotation s := rfl
theorem exec_channelInstructionDue {m} (s : State) : exec (.channelInstructionDue m) s = execChannelInstructionDue m s := rfl
theorem exec_resultWrite {t id} (s : State) : exec (.resultWrite t id) s = execResultWrite t id s := rfl
theorem exec_storeFault {t} (s : State) : exec (.storeFault t) s = execStoreFault t s := rfl
theorem exec_withdrawal {id} (s : State) : exec (.withdrawal id) s = execWithdrawal id s := rfl
theorem exec_withdrawalArrival {id} (s : State) : exec (.withdrawalArrival id) s = execWithdrawalArrival id s := rfl
theorem exec_feTimeout {id} (s : State) : exec (.feTimeout id) s = execFeTimeout id s := rfl
theorem exec_feTimeoutReport {prio} (s : State) : exec (.feTimeoutReport prio) s = execFeTimeoutReport prio s := rfl
theorem exec_chTimeout {t} (s : State) : exec (.chTimeout t) s = execChTimeout t s := rfl
theorem exec_barTimeout {t} (s : State) : exec (.barTimeout t) s = execBarTimeout t s := rfl
theorem exec_conditionalRequestArrival {id} (s : State) : exec (.conditionalRequestArrival id) s = execConditionalRequestArrival id s := rfl
theorem exec_parkResend {id} (s : State) : exec (.parkResend id) s = execParkResend id s := rfl
theorem exec_plainAccessArrival {id lane} (s : State) : exec (.plainAccessArrival id lane) s = execPlainAccessArrival id lane s := rfl
theorem exec_atomicTakeGrant {id} (s : State) : exec (.atomicTakeGrant id) s = execAtomicTakeGrant id s := rfl
theorem exec_atomicFillArrival {id} (s : State) : exec (.atomicFillArrival id) s = execAtomicFillArrival id s := rfl
theorem exec_reductionPerform {id} (s : State) : exec (.reductionPerform id) s = execReductionPerform id s := rfl
theorem exec_storeLeave {t} (s : State) : exec (.storeLeave t) s = execStoreLeave t s := rfl
theorem exec_storeCheck {t} (s : State) : exec (.storeCheck t) s = execStoreCheck t s := rfl
theorem exec_tlbMiss {unit} (s : State) : exec (.tlbMiss unit) s = execTlbMiss unit s := rfl
theorem exec_copyWord {core id} (s : State) : exec (.copyWord core id) s = execCopyWord core id s := rfl
theorem exec_mboxReserve {t} (s : State) : exec (.mboxReserve t) s = execMboxReserve t s := rfl
theorem exec_mboxDelivery {core} (s : State) : exec (.mboxDelivery core) s = execMboxDelivery core s := rfl
theorem exec_portWordAccept {t} (s : State) : exec (.portWordAccept t) s = execPortWordAccept t s := rfl
theorem exec_pubAccept {t} (s : State) : exec (.pubAccept t) s = execPubAccept t s := rfl
theorem exec_rdvComplete {t} (s : State) : exec (.rdvComplete t) s = execRdvComplete t s := rfl
theorem exec_chSyncComplete {t} (s : State) : exec (.chSyncComplete t) s = execChSyncComplete t s := rfl
theorem exec_publicationEnd {core} (s : State) : exec (.publicationEnd core) s = execPublicationEnd core s := rfl
theorem exec_sqkillTargetHalt {t} (s : State) : exec (.sqkillTargetHalt t) s = execSqkillTargetHalt t s := rfl
theorem exec_arrayGrant {cluster hold} (s : State) : exec (.arrayGrant cluster hold) s = execArrayGrant cluster hold s := rfl
theorem exec_powerHold {cluster} (s : State) : exec (.powerHold cluster) s = execPowerHold cluster s := rfl
theorem exec_mxCtxApply {core} (s : State) : exec (.mxCtxApply core) s = execMxCtxApply core s := rfl
theorem exec_mxZeroBegin {core} (s : State) : exec (.mxZeroBegin core) s = execMxZeroBegin core s := rfl
theorem exec_mxLdbLoad {core} (s : State) : exec (.mxLdbLoad core) s = execMxLdbLoad core s := rfl
theorem exec_mxSetbComplete {cluster} (s : State) : exec (.mxSetbComplete cluster) s = execMxSetbComplete cluster s := rfl
theorem exec_mxMmaComplete {cluster} (s : State) : exec (.mxMmaComplete cluster) s = execMxMmaComplete cluster s := rfl
theorem exec_mxCntWrite {core} (s : State) : exec (.mxCntWrite core) s = execMxCntWrite core s := rfl
theorem exec_drainRowEnter {core} (s : State) : exec (.drainRowEnter core) s = execDrainRowEnter core s := rfl
theorem exec_drainDispatch {core} (s : State) : exec (.drainDispatch core) s = execDrainDispatch core s := rfl
theorem exec_drainDoneFill {core} (s : State) : exec (.drainDoneFill core) s = execDrainDoneFill core s := rfl
theorem exec_drainFail {core} (s : State) : exec (.drainFail core) s = execDrainFail core s := rfl
theorem exec_barCfgArrival {id} (s : State) : exec (.barCfgArrival id) s = execBarCfgArrival id s := rfl
theorem exec_barrierArrival {id} (s : State) : exec (.barrierArrival id) s = execBarrierArrival id s := rfl
theorem exec_pennantRecordWrite {cluster unit} (s : State) : exec (.pennantRecordWrite cluster unit) s = execPennantRecordWrite cluster unit s := rfl
theorem exec_post {ctx size a} (s : State) : exec (.post ctx size a) s = execPost ctx size a s := rfl
theorem exec_launchAccept (s : State) : exec (.launchAccept) s = execLaunchAccept s := rfl
theorem exec_bandPlace (s : State) : exec (.bandPlace) s = execBandPlace s := rfl
theorem exec_bandStart {b} (s : State) : exec (.bandStart b) s = execBandStart b s := rfl
theorem exec_preempt (s : State) : exec (.preempt) s = execPreempt s := rfl
theorem exec_bandSave {b} (s : State) : exec (.bandSave b) s = execBandSave b s := rfl
theorem exec_bandResume {b} (s : State) : exec (.bandResume b) s = execBandResume b s := rfl
theorem exec_bandEnd {b} (s : State) : exec (.bandEnd b) s = execBandEnd b s := rfl
theorem exec_launchEnd {l} (s : State) : exec (.launchEnd l) s = execLaunchEnd l s := rfl
theorem exec_migrationDeparture {t} (s : State) : exec (.migrationDeparture t) s = execMigrationDeparture t s := rfl
theorem exec_migrationArrival {id} (s : State) : exec (.migrationArrival id) s = execMigrationArrival id s := rfl
theorem exec_migrationInstall {core} (s : State) : exec (.migrationInstall core) s = execMigrationInstall core s := rfl
theorem exec_overflowRefill {die} (s : State) : exec (.overflowRefill die) s = execOverflowRefill die s := rfl
theorem exec_portCfgWrite {t v} (s : State) : exec (.portCfgWrite t v) s = execPortCfgWrite t v s := rfl
theorem exec_rngWrite {t v} (s : State) : exec (.rngWrite t v) s = execRngWrite t v s := rfl
theorem exec_mboxBaseWrite {core} (s : State) : exec (.mboxBaseWrite core) s = execMboxBaseWrite core s := rfl
theorem exec_mboxHeadWrite {core v} (s : State) : exec (.mboxHeadWrite core v) s = execMboxHeadWrite core v s := rfl
theorem exec_ctxActivate (s : State) : exec (.ctxActivate) s = execCtxActivate s := rfl
theorem exec_ctxDeactivate (s : State) : exec (.ctxDeactivate) s = execCtxDeactivate s := rfl
theorem exec_ctlEvpendClear {t v} (s : State) : exec (.ctlEvpendClear t v) s = execCtlEvpendClear t v s := rfl
theorem exec_ctlTimerWrite {t v} (s : State) : exec (.ctlTimerWrite t v) s = execCtlTimerWrite t v s := rfl
theorem exec_timer {t} (s : State) : exec (.timer t) s = execTimer t s := rfl
theorem exec_pwrFstepWrite (s : State) : exec (.pwrFstepWrite) s = execPwrFstepWrite s := rfl
theorem exec_errCountRead {t uncorr d} (s : State) : exec (.errCountRead t uncorr d) s = execErrCountRead t uncorr d s := rfl
theorem exec_keyGenerate (s : State) : exec (.keyGenerate) s = execKeyGenerate s := rfl
theorem exec_keyErase (s : State) : exec (.keyErase) s = execKeyErase s := rfl
theorem exec_powerCheck {watts temp} (s : State) : exec (.powerCheck watts temp) s = execPowerCheck watts temp s := rfl
theorem exec_currentTrip (s : State) : exec (.currentTrip) s = execCurrentTrip s := rfl
theorem exec_thermalTrip (s : State) : exec (.thermalTrip) s = execThermalTrip s := rfl
theorem exec_coldReset (s : State) : exec (.coldReset) s = execColdReset s := rfl
theorem exec_packageReset (s : State) : exec (.packageReset) s = execPackageReset s := rfl
theorem exec_dieReset {die} (s : State) : exec (.dieReset die) s = execDieReset die s := rfl
theorem exec_bootStage {images trained tested} (s : State) : exec (.bootStage images trained tested) s = execBootStage images trained tested s := rfl
theorem exec_dieFence {die} (s : State) : exec (.dieFence die) s = execDieFence die s := rfl
theorem exec_scrub (s : State) : exec (.scrub) s = execScrub s := rfl
theorem exec_profilerSum {die} (s : State) : exec (.profilerSum die) s = execProfilerSum die s := rfl
theorem exec_debugChallenge (s : State) : exec (.debugChallenge) s = execDebugChallenge s := rfl
theorem exec_debugSignature {sig} (s : State) : exec (.debugSignature sig) s = execDebugSignature sig s := rfl
theorem exec_debugStop {t} (s : State) : exec (.debugStop t) s = execDebugStop t s := rfl
theorem exec_debugImageAccess {t off wr} (s : State) : exec (.debugImageAccess t off wr) s = execDebugImageAccess t off wr s := rfl
theorem exec_debugResume {t} (s : State) : exec (.debugResume t) s = execDebugResume t s := rfl
theorem exec_breakpointSet {ctx idx pc} (s : State) : exec (.breakpointSet ctx idx pc) s = execBreakpointSet ctx idx pc s := rfl
theorem exec_doorbell (s : State) : exec (.doorbell) s = execDoorbell s := rfl
theorem exec_hdmPlainWrite {port o data} (s : State) : exec (.hdmPlainWrite port o data) s = execHdmPlainWrite port o data s := rfl
theorem exec_hdmFillWrite {port o data} (s : State) : exec (.hdmFillWrite port o data) s = execHdmFillWrite port o data s := rfl
theorem exec_hdmEmptyWrite {port o data} (s : State) : exec (.hdmEmptyWrite port o data) s = execHdmEmptyWrite port o data s := rfl
theorem exec_hdmRead {port o size} (s : State) : exec (.hdmRead port o size) s = execHdmRead port o size s := rfl
theorem exec_bar2Access {port o size wr} (s : State) : exec (.bar2Access port o size wr) s = execBar2Access port o size wr s := rfl
theorem exec_linkInit {port peer} (s : State) : exec (.linkInit port peer) s = execLinkInit port peer s := rfl
theorem exec_flitReceive {port flit} (s : State) : exec (.flitReceive port flit) s = execFlitReceive port flit s := rfl
theorem exec_nak {port ack} (s : State) : exec (.nak port ack) s = execNak port ack s := rfl
theorem exec_linkFail {port} (s : State) : exec (.linkFail port) s = execLinkFail port s := rfl
theorem exec_fabLoad {tx} (s : State) : exec (.fabLoad tx) s = execFabLoad tx s := rfl
theorem exec_fabStore {tx} (s : State) : exec (.fabStore tx) s = execFabStore tx s := rfl
theorem exec_fabLdW {tx} (s : State) : exec (.fabLdW tx) s = execFabLdW tx s := rfl
theorem exec_fabLdT {tx} (s : State) : exec (.fabLdT tx) s = execFabLdT tx s := rfl
theorem exec_fabStF {tx} (s : State) : exec (.fabStF tx) s = execFabStF tx s := rfl
theorem exec_fabStS {tx} (s : State) : exec (.fabStS tx) s = execFabStS tx s := rfl
theorem exec_fabFeClr {tx} (s : State) : exec (.fabFeClr tx) s = execFabFeClr tx s := rfl
theorem exec_fabFeProbe {tx} (s : State) : exec (.fabFeProbe tx) s = execFabFeProbe tx s := rfl
theorem exec_fabAmo {tx} (s : State) : exec (.fabAmo tx) s = execFabAmo tx s := rfl
theorem exec_fabRed {tx} (s : State) : exec (.fabRed tx) s = execFabRed tx s := rfl
theorem exec_fabWithdraw {tx} (s : State) : exec (.fabWithdraw tx) s = execFabWithdraw tx s := rfl
theorem exec_fabReply {tx} (s : State) : exec (.fabReply tx) s = execFabReply tx s := rfl
theorem exec_fabTmo {id} (s : State) : exec (.fabTmo id) s = execFabTmo id s := rfl
theorem exec_xferWrite {tx} (s : State) : exec (.xferWrite tx) s = execXferWrite tx s := rfl
theorem exec_xferRead {tx} (s : State) : exec (.xferRead tx) s = execXferRead tx s := rfl
theorem exec_xferReadData {tx} (s : State) : exec (.xferReadData tx) s = execXferReadData tx s := rfl
theorem exec_xferComplete {id} (s : State) : exec (.xferComplete id) s = execXferComplete id s := rfl
theorem exec_xferFail {id} (s : State) : exec (.xferFail id) s = execXferFail id s := rfl
theorem exec_mastheadPost {ctx} (s : State) : exec (.mastheadPost ctx) s = execMastheadPost ctx s := rfl
theorem exec_gangPost {ctx} (s : State) : exec (.gangPost ctx) s = execGangPost ctx s := rfl
theorem exec_prepare {tx} (s : State) : exec (.prepare tx) s = execPrepare tx s := rfl
theorem exec_acknowledge {tx} (s : State) : exec (.acknowledge tx) s = execAcknowledge tx s := rfl
theorem exec_gangTimeout {gang} (s : State) : exec (.gangTimeout gang) s = execGangTimeout gang s := rfl
theorem exec_commit {tx} (s : State) : exec (.commit tx) s = execCommit tx s := rfl
theorem exec_abort {tx} (s : State) : exec (.abort tx) s = execAbort tx s := rfl
theorem exec_query {tx} (s : State) : exec (.query tx) s = execQuery tx s := rfl
theorem exec_gangQueryTimer {idx} (s : State) : exec (.gangQueryTimer idx) s = execGangQueryTimer idx s := rfl
theorem exec_decision {tx} (s : State) : exec (.decision tx) s = execDecision tx s := rfl
theorem exec_retire {tx} (s : State) : exec (.retire tx) s = execRetire tx s := rfl
theorem exec_instructionFetch {t} (s : State) : exec (.instructionFetch t) s = execInstructionFetch t s := rfl
theorem exec_hostWriteAck {id} (s : State) : exec (.hostWriteAck id) s = execHostWriteAck id s := rfl
theorem exec_xferElement {id} (s : State) : exec (.xferElement id) s = execXferElement id s := rfl
theorem exec_decisionRepeat {gang member} (s : State) : exec (.decisionRepeat gang member) s = execDecisionRepeat gang member s := rfl

end Sys2Proof.Machine
end

