-- ==== Sys2Proof/Laws/Maps.lean ====
section
/-! SUPPORT. The small lemmas of the finite maps and of the lists the state is made of. -/

namespace Sys2Proof.Machine

variable {α : Type}

@[simp] theorem lookupD_nil (k : Nat) (d : α) : lookupD [] k d = d := rfl

theorem lookupD_cons (j k : Nat) (x d : α) (r : List (Nat × α)) :
    lookupD ((j, x) :: r) k d = if j = k then x else lookupD r k d := rfl

/-- The key inserted last is found. -/
@[simp] theorem lookupD_insertKey_self (l : List (Nat × α)) (k : Nat) (x d : α) : lookupD (insertKey l k x) k d = x := by
  induction l with
  | nil => simp [insertKey, lookupD]
  | cons h r ih =>
    obtain ⟨j, y⟩ := h
    simp only [insertKey]
    split
    · simp [lookupD]
    · split
      · simp [lookupD]
      · simp [lookupD, Ne.symm ‹¬k = j›, ih]

/-- Other keys keep their values. -/
theorem lookupD_insertKey_ne (l : List (Nat × α)) {k j : Nat} (x d : α) (h : j ≠ k) :
    lookupD (insertKey l k x) j d = lookupD l j d := by
  induction l with
  | nil => simp [insertKey, lookupD, Ne.symm h]
  | cons e r ih =>
    obtain ⟨i, y⟩ := e
    simp only [insertKey]
    split
    · simp [lookupD, Ne.symm h]
    · split
      · subst_vars; simp [lookupD, Ne.symm h]
      · simp only [lookupD, ih]

/-- A lookup after an insertion. -/
theorem lookup?_insertKey (l : List (Nat × α)) (k j : Nat) (x : α) :
    lookup? (insertKey l k x) j = if k = j then some x else lookup? l j := by
  induction l with
  | nil => rfl
  | cons e r ih =>
    obtain ⟨i, y⟩ := e
    simp only [insertKey]
    split
    · rfl
    · split
      · subst_vars; simp only [lookup?]; split <;> rfl
      · simp only [lookup?, ih]
        split
        · rw [if_neg (by omega)]
        · rfl

/-- The last insertion of a key stands. -/
@[simp] theorem insertKey_insertKey_self (l : List (Nat × α)) (k : Nat) (x y : α) :
    insertKey (insertKey l k x) k y = insertKey l k y := by
  induction l with
  | nil => simp [insertKey]
  | cons h r ih =>
    obtain ⟨j, z⟩ := h
    by_cases h1 : k < j
    · simp [insertKey, h1]
    · by_cases h2 : k = j
      · simp [insertKey, h2]
      · simp [insertKey, h1, h2, ih]

/-- Removing a key leaves the others. -/
theorem lookupD_eraseKey_ne (l : List (Nat × α)) {k j : Nat} (d : α) (h : j ≠ k) :
    lookupD (eraseKey l k) j d = lookupD l j d := by
  induction l with
  | nil => rfl
  | cons e r ih =>
    obtain ⟨i, y⟩ := e
    simp only [eraseKey]
    split
    · subst_vars; simp [lookupD, Ne.symm h, ih]
    · simp only [lookupD, ih]

/-- A removed key is not listed. -/
@[simp] theorem lookupD_eraseKey_self (l : List (Nat × α)) (k : Nat) (d : α) : lookupD (eraseKey l k) k d = d := by
  induction l with
  | nil => rfl
  | cons e r ih =>
    obtain ⟨i, y⟩ := e
    simp only [eraseKey]
    split
    · exact ih
    · simp [lookupD, ‹¬i = k›, ih]

@[simp] theorem modFirst_nil (f : α → Bool) (g : α → α) : modFirst f g [] = [] := rfl

@[simp] theorem length_modFirst (f : α → Bool) (g : α → α) (l : List α) : (modFirst f g l).length = l.length := by
  induction l with
  | nil => rfl
  | cons x r ih => simp only [modFirst]; split <;> simp [ih]

@[simp] theorem eraseFirst_nil (f : α → Bool) : eraseFirst f ([] : List α) = [] := rfl

/-- Little-endian bytes: n of them. -/
@[simp] theorem length_leBytes (n x : Nat) : (leBytes n x).length = n := by
  induction n generalizing x with
  | zero => rfl
  | succ n ih => simp [leBytes, ih]

/-- The bytes of x hold x modulo 256^n (R4). -/
theorem ofLeBytes_leBytes (n x : Nat) : ofLeBytes (leBytes n x) = x % 256 ^ n := by
  induction n generalizing x with
  | zero => simp [leBytes, ofLeBytes, Nat.mod_one]
  | succ n ih =>
    simp only [leBytes, ofLeBytes, ih, BitVec.toNat_ofNat]
    have h : (256 : Nat) ^ (n + 1) = 256 * 256 ^ n := by rw [Nat.pow_succ, Nat.mul_comm]
    rw [h, Nat.mod_mul]

end Sys2Proof.Machine
end

