-- ==== Sys2Proof/Laws/Memory.lean ====
section
/-! SUPPORT. Memory: its canonical form is kept by every operation, and a read gives what was written. -/

namespace Sys2Proof.Machine

/-! ## The canonical form -/

/-- The form from a lower bound on also holds from any smaller one. -/
theorem Memory.wfFrom_weaken {m : List Host.Cell} {lo hi : Nat} (h : lo ≤ hi) (w : Memory.wfFrom (some hi) m = true) :
    Memory.wfFrom (some lo) m = true := by
  cases m with
  | nil => rfl
  | cons e r =>
    simp only [Memory.wfFrom, Bool.and_eq_true, decide_eq_true_eq] at w ⊢
    exact ⟨⟨by omega, w.1.2⟩, w.2⟩

/-- The form from a lower bound on holds without one. -/
theorem Memory.wfFrom_none {m : List Host.Cell} {lo : Nat} (w : Memory.wfFrom (some lo) m = true) :
    Memory.wf m = true := by
  cases m with
  | nil => rfl
  | cons e r => simp only [Memory.wf, Memory.wfFrom, Bool.and_eq_true] at w ⊢; exact ⟨⟨trivial, w.1.2⟩, w.2⟩

/-- Inserting a non-zero byte above the bound keeps the form. -/
theorem Memory.wfFrom_insertKey {m : List Host.Cell} {lo : Option Nat} {a : Nat} {b : Byte} (hb : b ≠ 0)
    (hlo : ∀ l, lo = some l → l < a) (w : Memory.wfFrom lo m = true) : Memory.wfFrom lo (insertKey m a b) = true := by
  induction m generalizing lo with
  | nil =>
    cases lo with
    | none => simpa [insertKey, Memory.wfFrom] using hb
    | some l => simpa [insertKey, Memory.wfFrom] using ⟨hlo l rfl, hb⟩
  | cons e r ih =>
    obtain ⟨j, y⟩ := e
    simp only [Memory.wfFrom, Bool.and_eq_true] at w
    simp only [insertKey]
    split
    · cases lo <;> simp_all [Memory.wfFrom]
    · split
      · subst_vars; cases lo <;> simp_all [Memory.wfFrom]
      · have hj : j < a := by omega
        simp only [Memory.wfFrom, Bool.and_eq_true]
        exact ⟨w.1, ih (fun l hl => by cases hl; exact hj) w.2⟩

/-- Removing an address keeps the form. -/
theorem Memory.wfFrom_eraseKey {m : List Host.Cell} {lo : Option Nat} {a : Nat} (w : Memory.wfFrom lo m = true) :
    Memory.wfFrom lo (eraseKey m a) = true := by
  induction m generalizing lo with
  | nil => exact w
  | cons e r ih =>
    obtain ⟨j, y⟩ := e
    simp only [Memory.wfFrom, Bool.and_eq_true] at w
    simp only [eraseKey]
    split
    · refine ih ?_
      cases lo with
      | none => exact Memory.wfFrom_none w.2
      | some l => exact Memory.wfFrom_weaken (by have := w.1.1; simp at this; omega) w.2
    · simp only [Memory.wfFrom, Bool.and_eq_true]; exact ⟨w.1, ih w.2⟩

/-- One byte written keeps the canonical form. -/
theorem Memory.wf_write {m : List Host.Cell} (w : Memory.wf m = true) (a : Nat) (b : Byte) :
    Memory.wf (Memory.write m a b) = true := by
  simp only [Memory.write]
  split
  · exact Memory.wfFrom_eraseKey w
  · exact Memory.wfFrom_insertKey ‹_› (by simp) w

/-! ## Reading what was written -/

/-- The byte written is read back. -/
theorem Memory.read_write_self (m : List Host.Cell) (a : Nat) (b : Byte) :
    Memory.read (Memory.write m a b) a = b := by
  simp only [Memory.read, Memory.write]
  split
  · subst_vars; exact lookupD_eraseKey_self ..
  · exact lookupD_insertKey_self ..

/-- Every other byte reads as before. -/
theorem Memory.read_write_ne (m : List Host.Cell) {a c : Nat} (b : Byte) (h : c ≠ a) :
    Memory.read (Memory.write m a b) c = Memory.read m c := by
  simp only [Memory.read, Memory.write]
  split
  · exact lookupD_eraseKey_ne _ _ h
  · exact lookupD_insertKey_ne _ _ _ h

/-! ## The state's memory operations -/

/-- Memory in canonical form. -/
abbrev State.memWf (s : State) : Prop := Memory.wf s.mem = true

/-- After reset memory has the form. -/
theorem reset_memWf : State.reset.memWf := rfl

namespace State

theorem writeByte_memWf {s : State} (w : s.memWf) (k : Nat) (b : Byte) : (s.writeByte k b).memWf := Memory.wf_write w k b

theorem writeBytes_memWf {s : State} (w : s.memWf) (k : Nat) (bs : List Byte) : (s.writeBytes k bs).memWf := by
  induction bs generalizing s k with
  | nil => exact w
  | cons b r ih => exact ih (writeByte_memWf w k b) (k + 1)

theorem writeMem_memWf {s : State} (w : s.memWf) (k n x : Nat) : (s.writeMem k n x).memWf := writeBytes_memWf w k _

theorem writeWord_memWf {s : State} (w : s.memWf) (k : Nat) (x : Word) : (s.writeWord k x).memWf := writeMem_memWf w k 8 _

/-- Writing bytes changes memory alone. -/
theorem writeBytes_eq (s : State) (k : Nat) (bs : List Byte) : s.writeBytes k bs = { s with mem := (s.writeBytes k bs).mem } := by
  induction bs generalizing s k with
  | nil => rfl
  | cons b r ih => exact ih (s.writeByte k b) (k + 1)

theorem writeMem_eq (s : State) (k n x : Nat) : s.writeMem k n x = { s with mem := (s.writeMem k n x).mem } := writeBytes_eq ..

theorem writeWord_eq (s : State) (k : Nat) (x : Word) : s.writeWord k x = { s with mem := (s.writeWord k x).mem } := writeBytes_eq ..

/-- A byte outside the written range reads as before. -/
theorem readByte_writeBytes_of_out (s : State) (k : Nat) (bs : List Byte) {c : Nat} (h : c < k ∨ k + bs.length ≤ c) :
    (s.writeBytes k bs).readByte c = s.readByte c := by
  induction bs generalizing s k with
  | nil => rfl
  | cons b r ih =>
    simp only [List.length_cons] at h
    exact (ih (s.writeByte k b) (k + 1) (by omega)).trans (Memory.read_write_ne _ _ (by omega))

/-- A byte outside the written value's bytes reads as before. -/
theorem readByte_writeMem_of_out (s : State) (k n x : Nat) {c : Nat} (h : c < k ∨ k + n ≤ c) :
    (s.writeMem k n x).readByte c = s.readByte c :=
  readByte_writeBytes_of_out s k _ (by simpa using h)

/-- A byte written is read back. -/
theorem readByte_writeBytes_of_in (s : State) (k : Nat) (bs : List Byte) (i : Nat) (h : i < bs.length) :
    (s.writeBytes k bs).readByte (k + i) = bs[i] := by
  induction bs generalizing s k i with
  | nil => simp at h
  | cons b r ih =>
    cases i with
    | zero =>
      have := readByte_writeBytes_of_out (s.writeByte k b) (k + 1) r (c := k) (by omega)
      simpa [writeBytes] using this.trans (Memory.read_write_self s.mem k b)
    | succ i =>
      have := ih (s.writeByte k b) (k + 1) i (by simpa using h)
      simpa [writeBytes, Nat.add_assoc, Nat.add_comm 1 i] using this

/-- The value written is read back: n bytes, little-endian (R4). -/
theorem readMem_writeMem (s : State) (k n x : Nat) : (s.writeMem k n x).readMem k n = x % 256 ^ n := by
  have : ((List.range n).map fun i => (s.writeMem k n x).readByte (k + i)) = leBytes n x := by
    apply List.ext_getElem
    · simp
    · intro i h1 h2
      simp only [List.getElem_map, List.getElem_range]
      exact readByte_writeBytes_of_in s k (leBytes n x) i h2
  simp only [readMem, this, ofLeBytes_leBytes]

/-- Setting a full/empty bit changes the bits alone. -/
theorem setFull_eq (s : State) (k : Nat) (b : Bool) : s.setFull k b = { s with feFlips := (s.setFull k b).feFlips } := by
  simp only [setFull]; split
  · rfl
  · split <;> rfl

@[simp] theorem setFull_mem (s : State) (k : Nat) (b : Bool) : (s.setFull k b).mem = s.mem := by
  rw [setFull_eq]

theorem mem_insertSet {l : List Nat} {k j : Nat} : j ∈ insertSet l k ↔ j = k ∨ j ∈ l := by
  induction l with
  | nil => simp [insertSet]
  | cons a r ih =>
    simp only [insertSet]
    split
    · simp
    · split
      · subst_vars; simp
      · simpa only [List.mem_cons, ih] using or_left_comm

/-- The bit set reads as it was set, through any byte of its word. -/
@[simp] theorem full_setFull_self (s : State) (k : Nat) (b : Bool) : (s.setFull k b).full k = b := by
  simp only [setFull]
  split
  · assumption
  · split
    · rename_i h c
      simp only [full, c] at h
      cases b <;> cases e : isRecord k <;> simp_all [full]
    · rename_i h c
      simp only [full] at h ⊢
      cases b <;> cases e : isRecord k <;> simp_all [mem_insertSet]

/-- Every other word's bit is as it was. -/
theorem full_setFull_ne (s : State) {k j : Nat} (b : Bool) (h : wordKey j ≠ wordKey k) : (s.setFull k b).full j = s.full j := by
  simp only [setFull]
  split
  · rfl
  · split
    · simp [full, h]
    · simp [full, mem_insertSet, h]

end State

end Sys2Proof.Machine
end

