-- ==== Sys2Proof/Laws/State.lean ====
section
/-! SUPPORT. The parts of a state after each of its updates: one lemma per field per update, and what an update of a core,
a slot or a thread leaves in it and in the others. -/

set_option Elab.async false

namespace Sys2Proof.Machine.State

/-! ## Fields -/

@[simp] theorem setCore_agenda (s : State) (n : Nat) (c : Core) : (s.setCore n c).agenda = s.agenda := rfl
@[simp] theorem setCore_cur (s : State) (n : Nat) (c : Core) : (s.setCore n c).cur = s.cur := rfl
@[simp] theorem setCore_ir (s : State) (n : Nat) (c : Core) : (s.setCore n c).ir = s.ir := rfl
@[simp] theorem setCore_cycle (s : State) (n : Nat) (c : Core) : (s.setCore n c).cycle = s.cycle := rfl
@[simp] theorem setCore_turned (s : State) (n : Nat) (c : Core) : (s.setCore n c).turned = s.turned := rfl
@[simp] theorem setCore_serial (s : State) (n : Nat) (c : Core) : (s.setCore n c).serial = s.serial := rfl
@[simp] theorem setCore_fresh (s : State) (n : Nat) (c : Core) : (s.setCore n c).fresh = s.fresh := rfl
@[simp] theorem setCore_beat (s : State) (n : Nat) (c : Core) : (s.setCore n c).beat = s.beat := rfl
@[simp] theorem setCore_mem (s : State) (n : Nat) (c : Core) : (s.setCore n c).mem = s.mem := rfl
@[simp] theorem setCore_feFlips (s : State) (n : Nat) (c : Core) : (s.setCore n c).feFlips = s.feFlips := rfl
@[simp] theorem setCore_eccBad (s : State) (n : Nat) (c : Core) : (s.setCore n c).eccBad = s.eccBad := rfl
@[simp] theorem setCore_eccCache (s : State) (n : Nat) (c : Core) : (s.setCore n c).eccCache = s.eccCache := rfl
@[simp] theorem setCore_eccSoft (s : State) (n : Nat) (c : Core) : (s.setCore n c).eccSoft = s.eccSoft := rfl
@[simp] theorem setCore_clusters (s : State) (n : Nat) (c : Core) : (s.setCore n c).clusters = s.clusters := rfl
@[simp] theorem setCore_xlat (s : State) (n : Nat) (c : Core) : (s.setCore n c).xlat = s.xlat := rfl
@[simp] theorem setCore_dies (s : State) (n : Nat) (c : Core) : (s.setCore n c).dies = s.dies := rfl
@[simp] theorem setCore_flights (s : State) (n : Nat) (c : Core) : (s.setCore n c).flights = s.flights := rfl
@[simp] theorem setCore_queues (s : State) (n : Nat) (c : Core) : (s.setCore n c).queues = s.queues := rfl
@[simp] theorem setCore_holds (s : State) (n : Nat) (c : Core) : (s.setCore n c).holds = s.holds := rfl
@[simp] theorem setCore_savedWaits (s : State) (n : Nat) (c : Core) : (s.setCore n c).savedWaits = s.savedWaits := rfl
@[simp] theorem setCore_barMsgs (s : State) (n : Nat) (c : Core) : (s.setCore n c).barMsgs = s.barMsgs := rfl
@[simp] theorem setCore_packets (s : State) (n : Nat) (c : Core) : (s.setCore n c).packets = s.packets := rfl
@[simp] theorem setCore_ctxBase (s : State) (n : Nat) (c : Core) : (s.setCore n c).ctxBase = s.ctxBase := rfl
@[simp] theorem setCore_ctxActBusy (s : State) (n : Nat) (c : Core) : (s.setCore n c).ctxActBusy = s.ctxActBusy := rfl
@[simp] theorem setCore_ctxActStatus (s : State) (n : Nat) (c : Core) : (s.setCore n c).ctxActStatus = s.ctxActStatus := rfl
@[simp] theorem setCore_contexts (s : State) (n : Nat) (c : Core) : (s.setCore n c).contexts = s.contexts := rfl
@[simp] theorem setCore_launchCounts (s : State) (n : Nat) (c : Core) : (s.setCore n c).launchCounts = s.launchCounts := rfl
@[simp] theorem setCore_posted (s : State) (n : Nat) (c : Core) : (s.setCore n c).posted = s.posted := rfl
@[simp] theorem setCore_launches (s : State) (n : Nat) (c : Core) : (s.setCore n c).launches = s.launches := rfl
@[simp] theorem setCore_bands (s : State) (n : Nat) (c : Core) : (s.setCore n c).bands = s.bands := rfl
@[simp] theorem setCore_faultWait (s : State) (n : Nat) (c : Core) : (s.setCore n c).faultWait = s.faultWait := rfl
@[simp] theorem setCore_traceWait (s : State) (n : Nat) (c : Core) : (s.setCore n c).traceWait = s.traceWait := rfl
@[simp] theorem setCore_adminLog (s : State) (n : Nat) (c : Core) : (s.setCore n c).adminLog = s.adminLog := rfl
@[simp] theorem setCore_feReports (s : State) (n : Nat) (c : Core) : (s.setCore n c).feReports = s.feReports := rfl
@[simp] theorem setCore_savedArray (s : State) (n : Nat) (c : Core) : (s.setCore n c).savedArray = s.savedArray := rfl
@[simp] theorem setCore_postStat (s : State) (n : Nat) (c : Core) : (s.setCore n c).postStat = s.postStat := rfl
@[simp] theorem setCore_hostRead (s : State) (n : Nat) (c : Core) : (s.setCore n c).hostRead = s.hostRead := rfl
@[simp] theorem setCore_hostWrites (s : State) (n : Nat) (c : Core) : (s.setCore n c).hostWrites = s.hostWrites := rfl
@[simp] theorem setCore_msix (s : State) (n : Nat) (c : Core) : (s.setCore n c).msix = s.msix := rfl
@[simp] theorem setCore_msixMap (s : State) (n : Nat) (c : Core) : (s.setCore n c).msixMap = s.msixMap := rfl
@[simp] theorem setCore_mailbox (s : State) (n : Nat) (c : Core) : (s.setCore n c).mailbox = s.mailbox := rfl
@[simp] theorem setCore_apertureSize (s : State) (n : Nat) (c : Core) : (s.setCore n c).apertureSize = s.apertureSize := rfl
@[simp] theorem setCore_aperture (s : State) (n : Nat) (c : Core) : (s.setCore n c).aperture = s.aperture := rfl
@[simp] theorem setCore_fstep (s : State) (n : Nat) (c : Core) : (s.setCore n c).fstep = s.fstep := rfl
@[simp] theorem setCore_fstepPend (s : State) (n : Nat) (c : Core) : (s.setCore n c).fstepPend = s.fstepPend := rfl
@[simp] theorem setCore_fstepHeld (s : State) (n : Nat) (c : Core) : (s.setCore n c).fstepHeld = s.fstepHeld := rfl
@[simp] theorem setCore_pwrLimit (s : State) (n : Nat) (c : Core) : (s.setCore n c).pwrLimit = s.pwrLimit := rfl
@[simp] theorem setCore_pwrMeas (s : State) (n : Nat) (c : Core) : (s.setCore n c).pwrMeas = s.pwrMeas := rfl
@[simp] theorem setCore_pwrTemp (s : State) (n : Nat) (c : Core) : (s.setCore n c).pwrTemp = s.pwrTemp := rfl
@[simp] theorem setCore_powerAt (s : State) (n : Nat) (c : Core) : (s.setCore n c).powerAt = s.powerAt := rfl
@[simp] theorem setCore_powered (s : State) (n : Nat) (c : Core) : (s.setCore n c).powered = s.powered := rfl
@[simp] theorem setCore_keys (s : State) (n : Nat) (c : Core) : (s.setCore n c).keys = s.keys := rfl
@[simp] theorem setCore_keyCmd (s : State) (n : Nat) (c : Core) : (s.setCore n c).keyCmd = s.keyCmd := rfl
@[simp] theorem setCore_keyBusy (s : State) (n : Nat) (c : Core) : (s.setCore n c).keyBusy = s.keyBusy := rfl
@[simp] theorem setCore_keyErr (s : State) (n : Nat) (c : Core) : (s.setCore n c).keyErr = s.keyErr := rfl
@[simp] theorem setCore_unitKeys (s : State) (n : Nat) (c : Core) : (s.setCore n c).unitKeys = s.unitKeys := rfl
@[simp] theorem setCore_bootStage (s : State) (n : Nat) (c : Core) : (s.setCore n c).bootStage = s.bootStage := rfl
@[simp] theorem setCore_bootFail (s : State) (n : Nat) (c : Core) : (s.setCore n c).bootFail = s.bootFail := rfl
@[simp] theorem setCore_measurement (s : State) (n : Nat) (c : Core) : (s.setCore n c).measurement = s.measurement := rfl
@[simp] theorem setCore_report (s : State) (n : Nat) (c : Core) : (s.setCore n c).report = s.report := rfl
@[simp] theorem setCore_dbgUnlocked (s : State) (n : Nat) (c : Core) : (s.setCore n c).dbgUnlocked = s.dbgUnlocked := rfl
@[simp] theorem setCore_challenge (s : State) (n : Nat) (c : Core) : (s.setCore n c).challenge = s.challenge := rfl
@[simp] theorem setCore_traceSink (s : State) (n : Nat) (c : Core) : (s.setCore n c).traceSink = s.traceSink := rfl
@[simp] theorem setCore_recorder (s : State) (n : Nat) (c : Core) : (s.setCore n c).recorder = s.recorder := rfl
@[simp] theorem setCore_frSeq (s : State) (n : Nat) (c : Core) : (s.setCore n c).frSeq = s.frSeq := rfl
@[simp] theorem setCore_fabricId (s : State) (n : Nat) (c : Core) : (s.setCore n c).fabricId = s.fabricId := rfl
@[simp] theorem setCore_links (s : State) (n : Nat) (c : Core) : (s.setCore n c).links = s.links := rfl
@[simp] theorem setCore_fabReqs (s : State) (n : Nat) (c : Core) : (s.setCore n c).fabReqs = s.fabReqs := rfl
@[simp] theorem setCore_fabTags (s : State) (n : Nat) (c : Core) : (s.setCore n c).fabTags = s.fabTags := rfl
@[simp] theorem setCore_fabDone (s : State) (n : Nat) (c : Core) : (s.setCore n c).fabDone = s.fabDone := rfl
@[simp] theorem setCore_homeReqs (s : State) (n : Nat) (c : Core) : (s.setCore n c).homeReqs = s.homeReqs := rfl
@[simp] theorem setCore_fabOut (s : State) (n : Nat) (c : Core) : (s.setCore n c).fabOut = s.fabOut := rfl
@[simp] theorem setCore_xfers (s : State) (n : Nat) (c : Core) : (s.setCore n c).xfers = s.xfers := rfl
@[simp] theorem setCore_gangs (s : State) (n : Nat) (c : Core) : (s.setCore n c).gangs = s.gangs := rfl
@[simp] theorem setCore_gangCount (s : State) (n : Nat) (c : Core) : (s.setCore n c).gangCount = s.gangCount := rfl
@[simp] theorem setCore_prepared (s : State) (n : Nat) (c : Core) : (s.setCore n c).prepared = s.prepared := rfl

@[simp] theorem modCore_agenda (s : State) (n : Nat) (f : Core → Core) : (s.modCore n f).agenda = s.agenda := rfl
@[simp] theorem modCore_cur (s : State) (n : Nat) (f : Core → Core) : (s.modCore n f).cur = s.cur := rfl
@[simp] theorem modCore_ir (s : State) (n : Nat) (f : Core → Core) : (s.modCore n f).ir = s.ir := rfl
@[simp] theorem modCore_cycle (s : State) (n : Nat) (f : Core → Core) : (s.modCore n f).cycle = s.cycle := rfl
@[simp] theorem modCore_turned (s : State) (n : Nat) (f : Core → Core) : (s.modCore n f).turned = s.turned := rfl
@[simp] theorem modCore_serial (s : State) (n : Nat) (f : Core → Core) : (s.modCore n f).serial = s.serial := rfl
@[simp] theorem modCore_fresh (s : State) (n : Nat) (f : Core → Core) : (s.modCore n f).fresh = s.fresh := rfl
@[simp] theorem modCore_beat (s : State) (n : Nat) (f : Core → Core) : (s.modCore n f).beat = s.beat := rfl
@[simp] theorem modCore_mem (s : State) (n : Nat) (f : Core → Core) : (s.modCore n f).mem = s.mem := rfl
@[simp] theorem modCore_feFlips (s : State) (n : Nat) (f : Core → Core) : (s.modCore n f).feFlips = s.feFlips := rfl
@[simp] theorem modCore_eccBad (s : State) (n : Nat) (f : Core → Core) : (s.modCore n f).eccBad = s.eccBad := rfl
@[simp] theorem modCore_eccCache (s : State) (n : Nat) (f : Core → Core) : (s.modCore n f).eccCache = s.eccCache := rfl
@[simp] theorem modCore_eccSoft (s : State) (n : Nat) (f : Core → Core) : (s.modCore n f).eccSoft = s.eccSoft := rfl
@[simp] theorem modCore_clusters (s : State) (n : Nat) (f : Core → Core) : (s.modCore n f).clusters = s.clusters := rfl
@[simp] theorem modCore_xlat (s : State) (n : Nat) (f : Core → Core) : (s.modCore n f).xlat = s.xlat := rfl
@[simp] theorem modCore_dies (s : State) (n : Nat) (f : Core → Core) : (s.modCore n f).dies = s.dies := rfl
@[simp] theorem modCore_flights (s : State) (n : Nat) (f : Core → Core) : (s.modCore n f).flights = s.flights := rfl
@[simp] theorem modCore_queues (s : State) (n : Nat) (f : Core → Core) : (s.modCore n f).queues = s.queues := rfl
@[simp] theorem modCore_holds (s : State) (n : Nat) (f : Core → Core) : (s.modCore n f).holds = s.holds := rfl
@[simp] theorem modCore_savedWaits (s : State) (n : Nat) (f : Core → Core) : (s.modCore n f).savedWaits = s.savedWaits := rfl
@[simp] theorem modCore_barMsgs (s : State) (n : Nat) (f : Core → Core) : (s.modCore n f).barMsgs = s.barMsgs := rfl
@[simp] theorem modCore_packets (s : State) (n : Nat) (f : Core → Core) : (s.modCore n f).packets = s.packets := rfl
@[simp] theorem modCore_ctxBase (s : State) (n : Nat) (f : Core → Core) : (s.modCore n f).ctxBase = s.ctxBase := rfl
@[simp] theorem modCore_ctxActBusy (s : State) (n : Nat) (f : Core → Core) : (s.modCore n f).ctxActBusy = s.ctxActBusy := rfl
@[simp] theorem modCore_ctxActStatus (s : State) (n : Nat) (f : Core → Core) : (s.modCore n f).ctxActStatus = s.ctxActStatus := rfl
@[simp] theorem modCore_contexts (s : State) (n : Nat) (f : Core → Core) : (s.modCore n f).contexts = s.contexts := rfl
@[simp] theorem modCore_launchCounts (s : State) (n : Nat) (f : Core → Core) : (s.modCore n f).launchCounts = s.launchCounts := rfl
@[simp] theorem modCore_posted (s : State) (n : Nat) (f : Core → Core) : (s.modCore n f).posted = s.posted := rfl
@[simp] theorem modCore_launches (s : State) (n : Nat) (f : Core → Core) : (s.modCore n f).launches = s.launches := rfl
@[simp] theorem modCore_bands (s : State) (n : Nat) (f : Core → Core) : (s.modCore n f).bands = s.bands := rfl
@[simp] theorem modCore_faultWait (s : State) (n : Nat) (f : Core → Core) : (s.modCore n f).faultWait = s.faultWait := rfl
@[simp] theorem modCore_traceWait (s : State) (n : Nat) (f : Core → Core) : (s.modCore n f).traceWait = s.traceWait := rfl
@[simp] theorem modCore_adminLog (s : State) (n : Nat) (f : Core → Core) : (s.modCore n f).adminLog = s.adminLog := rfl
@[simp] theorem modCore_feReports (s : State) (n : Nat) (f : Core → Core) : (s.modCore n f).feReports = s.feReports := rfl
@[simp] theorem modCore_savedArray (s : State) (n : Nat) (f : Core → Core) : (s.modCore n f).savedArray = s.savedArray := rfl
@[simp] theorem modCore_postStat (s : State) (n : Nat) (f : Core → Core) : (s.modCore n f).postStat = s.postStat := rfl
@[simp] theorem modCore_hostRead (s : State) (n : Nat) (f : Core → Core) : (s.modCore n f).hostRead = s.hostRead := rfl
@[simp] theorem modCore_hostWrites (s : State) (n : Nat) (f : Core → Core) : (s.modCore n f).hostWrites = s.hostWrites := rfl
@[simp] theorem modCore_msix (s : State) (n : Nat) (f : Core → Core) : (s.modCore n f).msix = s.msix := rfl
@[simp] theorem modCore_msixMap (s : State) (n : Nat) (f : Core → Core) : (s.modCore n f).msixMap = s.msixMap := rfl
@[simp] theorem modCore_mailbox (s : State) (n : Nat) (f : Core → Core) : (s.modCore n f).mailbox = s.mailbox := rfl
@[simp] theorem modCore_apertureSize (s : State) (n : Nat) (f : Core → Core) : (s.modCore n f).apertureSize = s.apertureSize := rfl
@[simp] theorem modCore_aperture (s : State) (n : Nat) (f : Core → Core) : (s.modCore n f).aperture = s.aperture := rfl
@[simp] theorem modCore_fstep (s : State) (n : Nat) (f : Core → Core) : (s.modCore n f).fstep = s.fstep := rfl
@[simp] theorem modCore_fstepPend (s : State) (n : Nat) (f : Core → Core) : (s.modCore n f).fstepPend = s.fstepPend := rfl
@[simp] theorem modCore_fstepHeld (s : State) (n : Nat) (f : Core → Core) : (s.modCore n f).fstepHeld = s.fstepHeld := rfl
@[simp] theorem modCore_pwrLimit (s : State) (n : Nat) (f : Core → Core) : (s.modCore n f).pwrLimit = s.pwrLimit := rfl
@[simp] theorem modCore_pwrMeas (s : State) (n : Nat) (f : Core → Core) : (s.modCore n f).pwrMeas = s.pwrMeas := rfl
@[simp] theorem modCore_pwrTemp (s : State) (n : Nat) (f : Core → Core) : (s.modCore n f).pwrTemp = s.pwrTemp := rfl
@[simp] theorem modCore_powerAt (s : State) (n : Nat) (f : Core → Core) : (s.modCore n f).powerAt = s.powerAt := rfl
@[simp] theorem modCore_powered (s : State) (n : Nat) (f : Core → Core) : (s.modCore n f).powered = s.powered := rfl
@[simp] theorem modCore_keys (s : State) (n : Nat) (f : Core → Core) : (s.modCore n f).keys = s.keys := rfl
@[simp] theorem modCore_keyCmd (s : State) (n : Nat) (f : Core → Core) : (s.modCore n f).keyCmd = s.keyCmd := rfl
@[simp] theorem modCore_keyBusy (s : State) (n : Nat) (f : Core → Core) : (s.modCore n f).keyBusy = s.keyBusy := rfl
@[simp] theorem modCore_keyErr (s : State) (n : Nat) (f : Core → Core) : (s.modCore n f).keyErr = s.keyErr := rfl
@[simp] theorem modCore_unitKeys (s : State) (n : Nat) (f : Core → Core) : (s.modCore n f).unitKeys = s.unitKeys := rfl
@[simp] theorem modCore_bootStage (s : State) (n : Nat) (f : Core → Core) : (s.modCore n f).bootStage = s.bootStage := rfl
@[simp] theorem modCore_bootFail (s : State) (n : Nat) (f : Core → Core) : (s.modCore n f).bootFail = s.bootFail := rfl
@[simp] theorem modCore_measurement (s : State) (n : Nat) (f : Core → Core) : (s.modCore n f).measurement = s.measurement := rfl
@[simp] theorem modCore_report (s : State) (n : Nat) (f : Core → Core) : (s.modCore n f).report = s.report := rfl
@[simp] theorem modCore_dbgUnlocked (s : State) (n : Nat) (f : Core → Core) : (s.modCore n f).dbgUnlocked = s.dbgUnlocked := rfl
@[simp] theorem modCore_challenge (s : State) (n : Nat) (f : Core → Core) : (s.modCore n f).challenge = s.challenge := rfl
@[simp] theorem modCore_traceSink (s : State) (n : Nat) (f : Core → Core) : (s.modCore n f).traceSink = s.traceSink := rfl
@[simp] theorem modCore_recorder (s : State) (n : Nat) (f : Core → Core) : (s.modCore n f).recorder = s.recorder := rfl
@[simp] theorem modCore_frSeq (s : State) (n : Nat) (f : Core → Core) : (s.modCore n f).frSeq = s.frSeq := rfl
@[simp] theorem modCore_fabricId (s : State) (n : Nat) (f : Core → Core) : (s.modCore n f).fabricId = s.fabricId := rfl
@[simp] theorem modCore_links (s : State) (n : Nat) (f : Core → Core) : (s.modCore n f).links = s.links := rfl
@[simp] theorem modCore_fabReqs (s : State) (n : Nat) (f : Core → Core) : (s.modCore n f).fabReqs = s.fabReqs := rfl
@[simp] theorem modCore_fabTags (s : State) (n : Nat) (f : Core → Core) : (s.modCore n f).fabTags = s.fabTags := rfl
@[simp] theorem modCore_fabDone (s : State) (n : Nat) (f : Core → Core) : (s.modCore n f).fabDone = s.fabDone := rfl
@[simp] theorem modCore_homeReqs (s : State) (n : Nat) (f : Core → Core) : (s.modCore n f).homeReqs = s.homeReqs := rfl
@[simp] theorem modCore_fabOut (s : State) (n : Nat) (f : Core → Core) : (s.modCore n f).fabOut = s.fabOut := rfl
@[simp] theorem modCore_xfers (s : State) (n : Nat) (f : Core → Core) : (s.modCore n f).xfers = s.xfers := rfl
@[simp] theorem modCore_gangs (s : State) (n : Nat) (f : Core → Core) : (s.modCore n f).gangs = s.gangs := rfl
@[simp] theorem modCore_gangCount (s : State) (n : Nat) (f : Core → Core) : (s.modCore n f).gangCount = s.gangCount := rfl
@[simp] theorem modCore_prepared (s : State) (n : Nat) (f : Core → Core) : (s.modCore n f).prepared = s.prepared := rfl

@[simp] theorem modSlot_agenda (s : State) (r : ThreadRef) (f : Slot → Slot) : (s.modSlot r f).agenda = s.agenda := rfl
@[simp] theorem modSlot_cur (s : State) (r : ThreadRef) (f : Slot → Slot) : (s.modSlot r f).cur = s.cur := rfl
@[simp] theorem modSlot_ir (s : State) (r : ThreadRef) (f : Slot → Slot) : (s.modSlot r f).ir = s.ir := rfl
@[simp] theorem modSlot_cycle (s : State) (r : ThreadRef) (f : Slot → Slot) : (s.modSlot r f).cycle = s.cycle := rfl
@[simp] theorem modSlot_turned (s : State) (r : ThreadRef) (f : Slot → Slot) : (s.modSlot r f).turned = s.turned := rfl
@[simp] theorem modSlot_serial (s : State) (r : ThreadRef) (f : Slot → Slot) : (s.modSlot r f).serial = s.serial := rfl
@[simp] theorem modSlot_fresh (s : State) (r : ThreadRef) (f : Slot → Slot) : (s.modSlot r f).fresh = s.fresh := rfl
@[simp] theorem modSlot_beat (s : State) (r : ThreadRef) (f : Slot → Slot) : (s.modSlot r f).beat = s.beat := rfl
@[simp] theorem modSlot_mem (s : State) (r : ThreadRef) (f : Slot → Slot) : (s.modSlot r f).mem = s.mem := rfl
@[simp] theorem modSlot_feFlips (s : State) (r : ThreadRef) (f : Slot → Slot) : (s.modSlot r f).feFlips = s.feFlips := rfl
@[simp] theorem modSlot_eccBad (s : State) (r : ThreadRef) (f : Slot → Slot) : (s.modSlot r f).eccBad = s.eccBad := rfl
@[simp] theorem modSlot_eccCache (s : State) (r : ThreadRef) (f : Slot → Slot) : (s.modSlot r f).eccCache = s.eccCache := rfl
@[simp] theorem modSlot_eccSoft (s : State) (r : ThreadRef) (f : Slot → Slot) : (s.modSlot r f).eccSoft = s.eccSoft := rfl
@[simp] theorem modSlot_clusters (s : State) (r : ThreadRef) (f : Slot → Slot) : (s.modSlot r f).clusters = s.clusters := rfl
@[simp] theorem modSlot_xlat (s : State) (r : ThreadRef) (f : Slot → Slot) : (s.modSlot r f).xlat = s.xlat := rfl
@[simp] theorem modSlot_dies (s : State) (r : ThreadRef) (f : Slot → Slot) : (s.modSlot r f).dies = s.dies := rfl
@[simp] theorem modSlot_flights (s : State) (r : ThreadRef) (f : Slot → Slot) : (s.modSlot r f).flights = s.flights := rfl
@[simp] theorem modSlot_queues (s : State) (r : ThreadRef) (f : Slot → Slot) : (s.modSlot r f).queues = s.queues := rfl
@[simp] theorem modSlot_holds (s : State) (r : ThreadRef) (f : Slot → Slot) : (s.modSlot r f).holds = s.holds := rfl
@[simp] theorem modSlot_savedWaits (s : State) (r : ThreadRef) (f : Slot → Slot) : (s.modSlot r f).savedWaits = s.savedWaits := rfl
@[simp] theorem modSlot_barMsgs (s : State) (r : ThreadRef) (f : Slot → Slot) : (s.modSlot r f).barMsgs = s.barMsgs := rfl
@[simp] theorem modSlot_packets (s : State) (r : ThreadRef) (f : Slot → Slot) : (s.modSlot r f).packets = s.packets := rfl
@[simp] theorem modSlot_ctxBase (s : State) (r : ThreadRef) (f : Slot → Slot) : (s.modSlot r f).ctxBase = s.ctxBase := rfl
@[simp] theorem modSlot_ctxActBusy (s : State) (r : ThreadRef) (f : Slot → Slot) : (s.modSlot r f).ctxActBusy = s.ctxActBusy := rfl
@[simp] theorem modSlot_ctxActStatus (s : State) (r : ThreadRef) (f : Slot → Slot) : (s.modSlot r f).ctxActStatus = s.ctxActStatus := rfl
@[simp] theorem modSlot_contexts (s : State) (r : ThreadRef) (f : Slot → Slot) : (s.modSlot r f).contexts = s.contexts := rfl
@[simp] theorem modSlot_launchCounts (s : State) (r : ThreadRef) (f : Slot → Slot) : (s.modSlot r f).launchCounts = s.launchCounts := rfl
@[simp] theorem modSlot_posted (s : State) (r : ThreadRef) (f : Slot → Slot) : (s.modSlot r f).posted = s.posted := rfl
@[simp] theorem modSlot_launches (s : State) (r : ThreadRef) (f : Slot → Slot) : (s.modSlot r f).launches = s.launches := rfl
@[simp] theorem modSlot_bands (s : State) (r : ThreadRef) (f : Slot → Slot) : (s.modSlot r f).bands = s.bands := rfl
@[simp] theorem modSlot_faultWait (s : State) (r : ThreadRef) (f : Slot → Slot) : (s.modSlot r f).faultWait = s.faultWait := rfl
@[simp] theorem modSlot_traceWait (s : State) (r : ThreadRef) (f : Slot → Slot) : (s.modSlot r f).traceWait = s.traceWait := rfl
@[simp] theorem modSlot_adminLog (s : State) (r : ThreadRef) (f : Slot → Slot) : (s.modSlot r f).adminLog = s.adminLog := rfl
@[simp] theorem modSlot_feReports (s : State) (r : ThreadRef) (f : Slot → Slot) : (s.modSlot r f).feReports = s.feReports := rfl
@[simp] theorem modSlot_savedArray (s : State) (r : ThreadRef) (f : Slot → Slot) : (s.modSlot r f).savedArray = s.savedArray := rfl
@[simp] theorem modSlot_postStat (s : State) (r : ThreadRef) (f : Slot → Slot) : (s.modSlot r f).postStat = s.postStat := rfl
@[simp] theorem modSlot_hostRead (s : State) (r : ThreadRef) (f : Slot → Slot) : (s.modSlot r f).hostRead = s.hostRead := rfl
@[simp] theorem modSlot_hostWrites (s : State) (r : ThreadRef) (f : Slot → Slot) : (s.modSlot r f).hostWrites = s.hostWrites := rfl
@[simp] theorem modSlot_msix (s : State) (r : ThreadRef) (f : Slot → Slot) : (s.modSlot r f).msix = s.msix := rfl
@[simp] theorem modSlot_msixMap (s : State) (r : ThreadRef) (f : Slot → Slot) : (s.modSlot r f).msixMap = s.msixMap := rfl
@[simp] theorem modSlot_mailbox (s : State) (r : ThreadRef) (f : Slot → Slot) : (s.modSlot r f).mailbox = s.mailbox := rfl
@[simp] theorem modSlot_apertureSize (s : State) (r : ThreadRef) (f : Slot → Slot) : (s.modSlot r f).apertureSize = s.apertureSize := rfl
@[simp] theorem modSlot_aperture (s : State) (r : ThreadRef) (f : Slot → Slot) : (s.modSlot r f).aperture = s.aperture := rfl
@[simp] theorem modSlot_fstep (s : State) (r : ThreadRef) (f : Slot → Slot) : (s.modSlot r f).fstep = s.fstep := rfl
@[simp] theorem modSlot_fstepPend (s : State) (r : ThreadRef) (f : Slot → Slot) : (s.modSlot r f).fstepPend = s.fstepPend := rfl
@[simp] theorem modSlot_fstepHeld (s : State) (r : ThreadRef) (f : Slot → Slot) : (s.modSlot r f).fstepHeld = s.fstepHeld := rfl
@[simp] theorem modSlot_pwrLimit (s : State) (r : ThreadRef) (f : Slot → Slot) : (s.modSlot r f).pwrLimit = s.pwrLimit := rfl
@[simp] theorem modSlot_pwrMeas (s : State) (r : ThreadRef) (f : Slot → Slot) : (s.modSlot r f).pwrMeas = s.pwrMeas := rfl
@[simp] theorem modSlot_pwrTemp (s : State) (r : ThreadRef) (f : Slot → Slot) : (s.modSlot r f).pwrTemp = s.pwrTemp := rfl
@[simp] theorem modSlot_powerAt (s : State) (r : ThreadRef) (f : Slot → Slot) : (s.modSlot r f).powerAt = s.powerAt := rfl
@[simp] theorem modSlot_powered (s : State) (r : ThreadRef) (f : Slot → Slot) : (s.modSlot r f).powered = s.powered := rfl
@[simp] theorem modSlot_keys (s : State) (r : ThreadRef) (f : Slot → Slot) : (s.modSlot r f).keys = s.keys := rfl
@[simp] theorem modSlot_keyCmd (s : State) (r : ThreadRef) (f : Slot → Slot) : (s.modSlot r f).keyCmd = s.keyCmd := rfl
@[simp] theorem modSlot_keyBusy (s : State) (r : ThreadRef) (f : Slot → Slot) : (s.modSlot r f).keyBusy = s.keyBusy := rfl
@[simp] theorem modSlot_keyErr (s : State) (r : ThreadRef) (f : Slot → Slot) : (s.modSlot r f).keyErr = s.keyErr := rfl
@[simp] theorem modSlot_unitKeys (s : State) (r : ThreadRef) (f : Slot → Slot) : (s.modSlot r f).unitKeys = s.unitKeys := rfl
@[simp] theorem modSlot_bootStage (s : State) (r : ThreadRef) (f : Slot → Slot) : (s.modSlot r f).bootStage = s.bootStage := rfl
@[simp] theorem modSlot_bootFail (s : State) (r : ThreadRef) (f : Slot → Slot) : (s.modSlot r f).bootFail = s.bootFail := rfl
@[simp] theorem modSlot_measurement (s : State) (r : ThreadRef) (f : Slot → Slot) : (s.modSlot r f).measurement = s.measurement := rfl
@[simp] theorem modSlot_report (s : State) (r : ThreadRef) (f : Slot → Slot) : (s.modSlot r f).report = s.report := rfl
@[simp] theorem modSlot_dbgUnlocked (s : State) (r : ThreadRef) (f : Slot → Slot) : (s.modSlot r f).dbgUnlocked = s.dbgUnlocked := rfl
@[simp] theorem modSlot_challenge (s : State) (r : ThreadRef) (f : Slot → Slot) : (s.modSlot r f).challenge = s.challenge := rfl
@[simp] theorem modSlot_traceSink (s : State) (r : ThreadRef) (f : Slot → Slot) : (s.modSlot r f).traceSink = s.traceSink := rfl
@[simp] theorem modSlot_recorder (s : State) (r : ThreadRef) (f : Slot → Slot) : (s.modSlot r f).recorder = s.recorder := rfl
@[simp] theorem modSlot_frSeq (s : State) (r : ThreadRef) (f : Slot → Slot) : (s.modSlot r f).frSeq = s.frSeq := rfl
@[simp] theorem modSlot_fabricId (s : State) (r : ThreadRef) (f : Slot → Slot) : (s.modSlot r f).fabricId = s.fabricId := rfl
@[simp] theorem modSlot_links (s : State) (r : ThreadRef) (f : Slot → Slot) : (s.modSlot r f).links = s.links := rfl
@[simp] theorem modSlot_fabReqs (s : State) (r : ThreadRef) (f : Slot → Slot) : (s.modSlot r f).fabReqs = s.fabReqs := rfl
@[simp] theorem modSlot_fabTags (s : State) (r : ThreadRef) (f : Slot → Slot) : (s.modSlot r f).fabTags = s.fabTags := rfl
@[simp] theorem modSlot_fabDone (s : State) (r : ThreadRef) (f : Slot → Slot) : (s.modSlot r f).fabDone = s.fabDone := rfl
@[simp] theorem modSlot_homeReqs (s : State) (r : ThreadRef) (f : Slot → Slot) : (s.modSlot r f).homeReqs = s.homeReqs := rfl
@[simp] theorem modSlot_fabOut (s : State) (r : ThreadRef) (f : Slot → Slot) : (s.modSlot r f).fabOut = s.fabOut := rfl
@[simp] theorem modSlot_xfers (s : State) (r : ThreadRef) (f : Slot → Slot) : (s.modSlot r f).xfers = s.xfers := rfl
@[simp] theorem modSlot_gangs (s : State) (r : ThreadRef) (f : Slot → Slot) : (s.modSlot r f).gangs = s.gangs := rfl
@[simp] theorem modSlot_gangCount (s : State) (r : ThreadRef) (f : Slot → Slot) : (s.modSlot r f).gangCount = s.gangCount := rfl
@[simp] theorem modSlot_prepared (s : State) (r : ThreadRef) (f : Slot → Slot) : (s.modSlot r f).prepared = s.prepared := rfl

@[simp] theorem setThread_agenda (s : State) (r : ThreadRef) (th : Thread) : (s.setThread r th).agenda = s.agenda := rfl
@[simp] theorem setThread_cur (s : State) (r : ThreadRef) (th : Thread) : (s.setThread r th).cur = s.cur := rfl
@[simp] theorem setThread_ir (s : State) (r : ThreadRef) (th : Thread) : (s.setThread r th).ir = s.ir := rfl
@[simp] theorem setThread_cycle (s : State) (r : ThreadRef) (th : Thread) : (s.setThread r th).cycle = s.cycle := rfl
@[simp] theorem setThread_turned (s : State) (r : ThreadRef) (th : Thread) : (s.setThread r th).turned = s.turned := rfl
@[simp] theorem setThread_serial (s : State) (r : ThreadRef) (th : Thread) : (s.setThread r th).serial = s.serial := rfl
@[simp] theorem setThread_fresh (s : State) (r : ThreadRef) (th : Thread) : (s.setThread r th).fresh = s.fresh := rfl
@[simp] theorem setThread_beat (s : State) (r : ThreadRef) (th : Thread) : (s.setThread r th).beat = s.beat := rfl
@[simp] theorem setThread_mem (s : State) (r : ThreadRef) (th : Thread) : (s.setThread r th).mem = s.mem := rfl
@[simp] theorem setThread_feFlips (s : State) (r : ThreadRef) (th : Thread) : (s.setThread r th).feFlips = s.feFlips := rfl
@[simp] theorem setThread_eccBad (s : State) (r : ThreadRef) (th : Thread) : (s.setThread r th).eccBad = s.eccBad := rfl
@[simp] theorem setThread_eccCache (s : State) (r : ThreadRef) (th : Thread) : (s.setThread r th).eccCache = s.eccCache := rfl
@[simp] theorem setThread_eccSoft (s : State) (r : ThreadRef) (th : Thread) : (s.setThread r th).eccSoft = s.eccSoft := rfl
@[simp] theorem setThread_clusters (s : State) (r : ThreadRef) (th : Thread) : (s.setThread r th).clusters = s.clusters := rfl
@[simp] theorem setThread_xlat (s : State) (r : ThreadRef) (th : Thread) : (s.setThread r th).xlat = s.xlat := rfl
@[simp] theorem setThread_dies (s : State) (r : ThreadRef) (th : Thread) : (s.setThread r th).dies = s.dies := rfl
@[simp] theorem setThread_flights (s : State) (r : ThreadRef) (th : Thread) : (s.setThread r th).flights = s.flights := rfl
@[simp] theorem setThread_queues (s : State) (r : ThreadRef) (th : Thread) : (s.setThread r th).queues = s.queues := rfl
@[simp] theorem setThread_holds (s : State) (r : ThreadRef) (th : Thread) : (s.setThread r th).holds = s.holds := rfl
@[simp] theorem setThread_savedWaits (s : State) (r : ThreadRef) (th : Thread) : (s.setThread r th).savedWaits = s.savedWaits := rfl
@[simp] theorem setThread_barMsgs (s : State) (r : ThreadRef) (th : Thread) : (s.setThread r th).barMsgs = s.barMsgs := rfl
@[simp] theorem setThread_packets (s : State) (r : ThreadRef) (th : Thread) : (s.setThread r th).packets = s.packets := rfl
@[simp] theorem setThread_ctxBase (s : State) (r : ThreadRef) (th : Thread) : (s.setThread r th).ctxBase = s.ctxBase := rfl
@[simp] theorem setThread_ctxActBusy (s : State) (r : ThreadRef) (th : Thread) : (s.setThread r th).ctxActBusy = s.ctxActBusy := rfl
@[simp] theorem setThread_ctxActStatus (s : State) (r : ThreadRef) (th : Thread) : (s.setThread r th).ctxActStatus = s.ctxActStatus := rfl
@[simp] theorem setThread_contexts (s : State) (r : ThreadRef) (th : Thread) : (s.setThread r th).contexts = s.contexts := rfl
@[simp] theorem setThread_launchCounts (s : State) (r : ThreadRef) (th : Thread) : (s.setThread r th).launchCounts = s.launchCounts := rfl
@[simp] theorem setThread_posted (s : State) (r : ThreadRef) (th : Thread) : (s.setThread r th).posted = s.posted := rfl
@[simp] theorem setThread_launches (s : State) (r : ThreadRef) (th : Thread) : (s.setThread r th).launches = s.launches := rfl
@[simp] theorem setThread_bands (s : State) (r : ThreadRef) (th : Thread) : (s.setThread r th).bands = s.bands := rfl
@[simp] theorem setThread_faultWait (s : State) (r : ThreadRef) (th : Thread) : (s.setThread r th).faultWait = s.faultWait := rfl
@[simp] theorem setThread_traceWait (s : State) (r : ThreadRef) (th : Thread) : (s.setThread r th).traceWait = s.traceWait := rfl
@[simp] theorem setThread_adminLog (s : State) (r : ThreadRef) (th : Thread) : (s.setThread r th).adminLog = s.adminLog := rfl
@[simp] theorem setThread_feReports (s : State) (r : ThreadRef) (th : Thread) : (s.setThread r th).feReports = s.feReports := rfl
@[simp] theorem setThread_savedArray (s : State) (r : ThreadRef) (th : Thread) : (s.setThread r th).savedArray = s.savedArray := rfl
@[simp] theorem setThread_postStat (s : State) (r : ThreadRef) (th : Thread) : (s.setThread r th).postStat = s.postStat := rfl
@[simp] theorem setThread_hostRead (s : State) (r : ThreadRef) (th : Thread) : (s.setThread r th).hostRead = s.hostRead := rfl
@[simp] theorem setThread_hostWrites (s : State) (r : ThreadRef) (th : Thread) : (s.setThread r th).hostWrites = s.hostWrites := rfl
@[simp] theorem setThread_msix (s : State) (r : ThreadRef) (th : Thread) : (s.setThread r th).msix = s.msix := rfl
@[simp] theorem setThread_msixMap (s : State) (r : ThreadRef) (th : Thread) : (s.setThread r th).msixMap = s.msixMap := rfl
@[simp] theorem setThread_mailbox (s : State) (r : ThreadRef) (th : Thread) : (s.setThread r th).mailbox = s.mailbox := rfl
@[simp] theorem setThread_apertureSize (s : State) (r : ThreadRef) (th : Thread) : (s.setThread r th).apertureSize = s.apertureSize := rfl
@[simp] theorem setThread_aperture (s : State) (r : ThreadRef) (th : Thread) : (s.setThread r th).aperture = s.aperture := rfl
@[simp] theorem setThread_fstep (s : State) (r : ThreadRef) (th : Thread) : (s.setThread r th).fstep = s.fstep := rfl
@[simp] theorem setThread_fstepPend (s : State) (r : ThreadRef) (th : Thread) : (s.setThread r th).fstepPend = s.fstepPend := rfl
@[simp] theorem setThread_fstepHeld (s : State) (r : ThreadRef) (th : Thread) : (s.setThread r th).fstepHeld = s.fstepHeld := rfl
@[simp] theorem setThread_pwrLimit (s : State) (r : ThreadRef) (th : Thread) : (s.setThread r th).pwrLimit = s.pwrLimit := rfl
@[simp] theorem setThread_pwrMeas (s : State) (r : ThreadRef) (th : Thread) : (s.setThread r th).pwrMeas = s.pwrMeas := rfl
@[simp] theorem setThread_pwrTemp (s : State) (r : ThreadRef) (th : Thread) : (s.setThread r th).pwrTemp = s.pwrTemp := rfl
@[simp] theorem setThread_powerAt (s : State) (r : ThreadRef) (th : Thread) : (s.setThread r th).powerAt = s.powerAt := rfl
@[simp] theorem setThread_powered (s : State) (r : ThreadRef) (th : Thread) : (s.setThread r th).powered = s.powered := rfl
@[simp] theorem setThread_keys (s : State) (r : ThreadRef) (th : Thread) : (s.setThread r th).keys = s.keys := rfl
@[simp] theorem setThread_keyCmd (s : State) (r : ThreadRef) (th : Thread) : (s.setThread r th).keyCmd = s.keyCmd := rfl
@[simp] theorem setThread_keyBusy (s : State) (r : ThreadRef) (th : Thread) : (s.setThread r th).keyBusy = s.keyBusy := rfl
@[simp] theorem setThread_keyErr (s : State) (r : ThreadRef) (th : Thread) : (s.setThread r th).keyErr = s.keyErr := rfl
@[simp] theorem setThread_unitKeys (s : State) (r : ThreadRef) (th : Thread) : (s.setThread r th).unitKeys = s.unitKeys := rfl
@[simp] theorem setThread_bootStage (s : State) (r : ThreadRef) (th : Thread) : (s.setThread r th).bootStage = s.bootStage := rfl
@[simp] theorem setThread_bootFail (s : State) (r : ThreadRef) (th : Thread) : (s.setThread r th).bootFail = s.bootFail := rfl
@[simp] theorem setThread_measurement (s : State) (r : ThreadRef) (th : Thread) : (s.setThread r th).measurement = s.measurement := rfl
@[simp] theorem setThread_report (s : State) (r : ThreadRef) (th : Thread) : (s.setThread r th).report = s.report := rfl
@[simp] theorem setThread_dbgUnlocked (s : State) (r : ThreadRef) (th : Thread) : (s.setThread r th).dbgUnlocked = s.dbgUnlocked := rfl
@[simp] theorem setThread_challenge (s : State) (r : ThreadRef) (th : Thread) : (s.setThread r th).challenge = s.challenge := rfl
@[simp] theorem setThread_traceSink (s : State) (r : ThreadRef) (th : Thread) : (s.setThread r th).traceSink = s.traceSink := rfl
@[simp] theorem setThread_recorder (s : State) (r : ThreadRef) (th : Thread) : (s.setThread r th).recorder = s.recorder := rfl
@[simp] theorem setThread_frSeq (s : State) (r : ThreadRef) (th : Thread) : (s.setThread r th).frSeq = s.frSeq := rfl
@[simp] theorem setThread_fabricId (s : State) (r : ThreadRef) (th : Thread) : (s.setThread r th).fabricId = s.fabricId := rfl
@[simp] theorem setThread_links (s : State) (r : ThreadRef) (th : Thread) : (s.setThread r th).links = s.links := rfl
@[simp] theorem setThread_fabReqs (s : State) (r : ThreadRef) (th : Thread) : (s.setThread r th).fabReqs = s.fabReqs := rfl
@[simp] theorem setThread_fabTags (s : State) (r : ThreadRef) (th : Thread) : (s.setThread r th).fabTags = s.fabTags := rfl
@[simp] theorem setThread_fabDone (s : State) (r : ThreadRef) (th : Thread) : (s.setThread r th).fabDone = s.fabDone := rfl
@[simp] theorem setThread_homeReqs (s : State) (r : ThreadRef) (th : Thread) : (s.setThread r th).homeReqs = s.homeReqs := rfl
@[simp] theorem setThread_fabOut (s : State) (r : ThreadRef) (th : Thread) : (s.setThread r th).fabOut = s.fabOut := rfl
@[simp] theorem setThread_xfers (s : State) (r : ThreadRef) (th : Thread) : (s.setThread r th).xfers = s.xfers := rfl
@[simp] theorem setThread_gangs (s : State) (r : ThreadRef) (th : Thread) : (s.setThread r th).gangs = s.gangs := rfl
@[simp] theorem setThread_gangCount (s : State) (r : ThreadRef) (th : Thread) : (s.setThread r th).gangCount = s.gangCount := rfl
@[simp] theorem setThread_prepared (s : State) (r : ThreadRef) (th : Thread) : (s.setThread r th).prepared = s.prepared := rfl

@[simp] theorem vacate_agenda (s : State) (r : ThreadRef) : (s.vacate r).agenda = s.agenda := rfl
@[simp] theorem vacate_cur (s : State) (r : ThreadRef) : (s.vacate r).cur = s.cur := rfl
@[simp] theorem vacate_ir (s : State) (r : ThreadRef) : (s.vacate r).ir = s.ir := rfl
@[simp] theorem vacate_cycle (s : State) (r : ThreadRef) : (s.vacate r).cycle = s.cycle := rfl
@[simp] theorem vacate_turned (s : State) (r : ThreadRef) : (s.vacate r).turned = s.turned := rfl
@[simp] theorem vacate_serial (s : State) (r : ThreadRef) : (s.vacate r).serial = s.serial := rfl
@[simp] theorem vacate_fresh (s : State) (r : ThreadRef) : (s.vacate r).fresh = s.fresh := rfl
@[simp] theorem vacate_beat (s : State) (r : ThreadRef) : (s.vacate r).beat = s.beat := rfl
@[simp] theorem vacate_mem (s : State) (r : ThreadRef) : (s.vacate r).mem = s.mem := rfl
@[simp] theorem vacate_feFlips (s : State) (r : ThreadRef) : (s.vacate r).feFlips = s.feFlips := rfl
@[simp] theorem vacate_eccBad (s : State) (r : ThreadRef) : (s.vacate r).eccBad = s.eccBad := rfl
@[simp] theorem vacate_eccCache (s : State) (r : ThreadRef) : (s.vacate r).eccCache = s.eccCache := rfl
@[simp] theorem vacate_eccSoft (s : State) (r : ThreadRef) : (s.vacate r).eccSoft = s.eccSoft := rfl
@[simp] theorem vacate_clusters (s : State) (r : ThreadRef) : (s.vacate r).clusters = s.clusters := rfl
@[simp] theorem vacate_xlat (s : State) (r : ThreadRef) : (s.vacate r).xlat = s.xlat := rfl
@[simp] theorem vacate_dies (s : State) (r : ThreadRef) : (s.vacate r).dies = s.dies := rfl
@[simp] theorem vacate_flights (s : State) (r : ThreadRef) : (s.vacate r).flights = s.flights := rfl
@[simp] theorem vacate_queues (s : State) (r : ThreadRef) : (s.vacate r).queues = s.queues := rfl
@[simp] theorem vacate_holds (s : State) (r : ThreadRef) : (s.vacate r).holds = s.holds := rfl
@[simp] theorem vacate_savedWaits (s : State) (r : ThreadRef) : (s.vacate r).savedWaits = s.savedWaits := rfl
@[simp] theorem vacate_barMsgs (s : State) (r : ThreadRef) : (s.vacate r).barMsgs = s.barMsgs := rfl
@[simp] theorem vacate_packets (s : State) (r : ThreadRef) : (s.vacate r).packets = s.packets := rfl
@[simp] theorem vacate_ctxBase (s : State) (r : ThreadRef) : (s.vacate r).ctxBase = s.ctxBase := rfl
@[simp] theorem vacate_ctxActBusy (s : State) (r : ThreadRef) : (s.vacate r).ctxActBusy = s.ctxActBusy := rfl
@[simp] theorem vacate_ctxActStatus (s : State) (r : ThreadRef) : (s.vacate r).ctxActStatus = s.ctxActStatus := rfl
@[simp] theorem vacate_contexts (s : State) (r : ThreadRef) : (s.vacate r).contexts = s.contexts := rfl
@[simp] theorem vacate_launchCounts (s : State) (r : ThreadRef) : (s.vacate r).launchCounts = s.launchCounts := rfl
@[simp] theorem vacate_posted (s : State) (r : ThreadRef) : (s.vacate r).posted = s.posted := rfl
@[simp] theorem vacate_launches (s : State) (r : ThreadRef) : (s.vacate r).launches = s.launches := rfl
@[simp] theorem vacate_bands (s : State) (r : ThreadRef) : (s.vacate r).bands = s.bands := rfl
@[simp] theorem vacate_faultWait (s : State) (r : ThreadRef) : (s.vacate r).faultWait = s.faultWait := rfl
@[simp] theorem vacate_traceWait (s : State) (r : ThreadRef) : (s.vacate r).traceWait = s.traceWait := rfl
@[simp] theorem vacate_adminLog (s : State) (r : ThreadRef) : (s.vacate r).adminLog = s.adminLog := rfl
@[simp] theorem vacate_feReports (s : State) (r : ThreadRef) : (s.vacate r).feReports = s.feReports := rfl
@[simp] theorem vacate_savedArray (s : State) (r : ThreadRef) : (s.vacate r).savedArray = s.savedArray := rfl
@[simp] theorem vacate_postStat (s : State) (r : ThreadRef) : (s.vacate r).postStat = s.postStat := rfl
@[simp] theorem vacate_hostRead (s : State) (r : ThreadRef) : (s.vacate r).hostRead = s.hostRead := rfl
@[simp] theorem vacate_hostWrites (s : State) (r : ThreadRef) : (s.vacate r).hostWrites = s.hostWrites := rfl
@[simp] theorem vacate_msix (s : State) (r : ThreadRef) : (s.vacate r).msix = s.msix := rfl
@[simp] theorem vacate_msixMap (s : State) (r : ThreadRef) : (s.vacate r).msixMap = s.msixMap := rfl
@[simp] theorem vacate_mailbox (s : State) (r : ThreadRef) : (s.vacate r).mailbox = s.mailbox := rfl
@[simp] theorem vacate_apertureSize (s : State) (r : ThreadRef) : (s.vacate r).apertureSize = s.apertureSize := rfl
@[simp] theorem vacate_aperture (s : State) (r : ThreadRef) : (s.vacate r).aperture = s.aperture := rfl
@[simp] theorem vacate_fstep (s : State) (r : ThreadRef) : (s.vacate r).fstep = s.fstep := rfl
@[simp] theorem vacate_fstepPend (s : State) (r : ThreadRef) : (s.vacate r).fstepPend = s.fstepPend := rfl
@[simp] theorem vacate_fstepHeld (s : State) (r : ThreadRef) : (s.vacate r).fstepHeld = s.fstepHeld := rfl
@[simp] theorem vacate_pwrLimit (s : State) (r : ThreadRef) : (s.vacate r).pwrLimit = s.pwrLimit := rfl
@[simp] theorem vacate_pwrMeas (s : State) (r : ThreadRef) : (s.vacate r).pwrMeas = s.pwrMeas := rfl
@[simp] theorem vacate_pwrTemp (s : State) (r : ThreadRef) : (s.vacate r).pwrTemp = s.pwrTemp := rfl
@[simp] theorem vacate_powerAt (s : State) (r : ThreadRef) : (s.vacate r).powerAt = s.powerAt := rfl
@[simp] theorem vacate_powered (s : State) (r : ThreadRef) : (s.vacate r).powered = s.powered := rfl
@[simp] theorem vacate_keys (s : State) (r : ThreadRef) : (s.vacate r).keys = s.keys := rfl
@[simp] theorem vacate_keyCmd (s : State) (r : ThreadRef) : (s.vacate r).keyCmd = s.keyCmd := rfl
@[simp] theorem vacate_keyBusy (s : State) (r : ThreadRef) : (s.vacate r).keyBusy = s.keyBusy := rfl
@[simp] theorem vacate_keyErr (s : State) (r : ThreadRef) : (s.vacate r).keyErr = s.keyErr := rfl
@[simp] theorem vacate_unitKeys (s : State) (r : ThreadRef) : (s.vacate r).unitKeys = s.unitKeys := rfl
@[simp] theorem vacate_bootStage (s : State) (r : ThreadRef) : (s.vacate r).bootStage = s.bootStage := rfl
@[simp] theorem vacate_bootFail (s : State) (r : ThreadRef) : (s.vacate r).bootFail = s.bootFail := rfl
@[simp] theorem vacate_measurement (s : State) (r : ThreadRef) : (s.vacate r).measurement = s.measurement := rfl
@[simp] theorem vacate_report (s : State) (r : ThreadRef) : (s.vacate r).report = s.report := rfl
@[simp] theorem vacate_dbgUnlocked (s : State) (r : ThreadRef) : (s.vacate r).dbgUnlocked = s.dbgUnlocked := rfl
@[simp] theorem vacate_challenge (s : State) (r : ThreadRef) : (s.vacate r).challenge = s.challenge := rfl
@[simp] theorem vacate_traceSink (s : State) (r : ThreadRef) : (s.vacate r).traceSink = s.traceSink := rfl
@[simp] theorem vacate_recorder (s : State) (r : ThreadRef) : (s.vacate r).recorder = s.recorder := rfl
@[simp] theorem vacate_frSeq (s : State) (r : ThreadRef) : (s.vacate r).frSeq = s.frSeq := rfl
@[simp] theorem vacate_fabricId (s : State) (r : ThreadRef) : (s.vacate r).fabricId = s.fabricId := rfl
@[simp] theorem vacate_links (s : State) (r : ThreadRef) : (s.vacate r).links = s.links := rfl
@[simp] theorem vacate_fabReqs (s : State) (r : ThreadRef) : (s.vacate r).fabReqs = s.fabReqs := rfl
@[simp] theorem vacate_fabTags (s : State) (r : ThreadRef) : (s.vacate r).fabTags = s.fabTags := rfl
@[simp] theorem vacate_fabDone (s : State) (r : ThreadRef) : (s.vacate r).fabDone = s.fabDone := rfl
@[simp] theorem vacate_homeReqs (s : State) (r : ThreadRef) : (s.vacate r).homeReqs = s.homeReqs := rfl
@[simp] theorem vacate_fabOut (s : State) (r : ThreadRef) : (s.vacate r).fabOut = s.fabOut := rfl
@[simp] theorem vacate_xfers (s : State) (r : ThreadRef) : (s.vacate r).xfers = s.xfers := rfl
@[simp] theorem vacate_gangs (s : State) (r : ThreadRef) : (s.vacate r).gangs = s.gangs := rfl
@[simp] theorem vacate_gangCount (s : State) (r : ThreadRef) : (s.vacate r).gangCount = s.gangCount := rfl
@[simp] theorem vacate_prepared (s : State) (r : ThreadRef) : (s.vacate r).prepared = s.prepared := rfl

@[simp] theorem dropThread_agenda (s : State) (r : ThreadRef) : (s.dropThread r).agenda = s.agenda := rfl
@[simp] theorem dropThread_cur (s : State) (r : ThreadRef) : (s.dropThread r).cur = s.cur := rfl
@[simp] theorem dropThread_ir (s : State) (r : ThreadRef) : (s.dropThread r).ir = s.ir := rfl
@[simp] theorem dropThread_cycle (s : State) (r : ThreadRef) : (s.dropThread r).cycle = s.cycle := rfl
@[simp] theorem dropThread_turned (s : State) (r : ThreadRef) : (s.dropThread r).turned = s.turned := rfl
@[simp] theorem dropThread_serial (s : State) (r : ThreadRef) : (s.dropThread r).serial = s.serial := rfl
@[simp] theorem dropThread_fresh (s : State) (r : ThreadRef) : (s.dropThread r).fresh = s.fresh := rfl
@[simp] theorem dropThread_beat (s : State) (r : ThreadRef) : (s.dropThread r).beat = s.beat := rfl
@[simp] theorem dropThread_mem (s : State) (r : ThreadRef) : (s.dropThread r).mem = s.mem := rfl
@[simp] theorem dropThread_feFlips (s : State) (r : ThreadRef) : (s.dropThread r).feFlips = s.feFlips := rfl
@[simp] theorem dropThread_eccBad (s : State) (r : ThreadRef) : (s.dropThread r).eccBad = s.eccBad := rfl
@[simp] theorem dropThread_eccCache (s : State) (r : ThreadRef) : (s.dropThread r).eccCache = s.eccCache := rfl
@[simp] theorem dropThread_eccSoft (s : State) (r : ThreadRef) : (s.dropThread r).eccSoft = s.eccSoft := rfl
@[simp] theorem dropThread_clusters (s : State) (r : ThreadRef) : (s.dropThread r).clusters = s.clusters := rfl
@[simp] theorem dropThread_xlat (s : State) (r : ThreadRef) : (s.dropThread r).xlat = s.xlat := rfl
@[simp] theorem dropThread_dies (s : State) (r : ThreadRef) : (s.dropThread r).dies = s.dies := rfl
@[simp] theorem dropThread_flights (s : State) (r : ThreadRef) : (s.dropThread r).flights = s.flights := rfl
@[simp] theorem dropThread_queues (s : State) (r : ThreadRef) : (s.dropThread r).queues = s.queues := rfl
@[simp] theorem dropThread_holds (s : State) (r : ThreadRef) : (s.dropThread r).holds = s.holds := rfl
@[simp] theorem dropThread_savedWaits (s : State) (r : ThreadRef) : (s.dropThread r).savedWaits = s.savedWaits := rfl
@[simp] theorem dropThread_barMsgs (s : State) (r : ThreadRef) : (s.dropThread r).barMsgs = s.barMsgs := rfl
@[simp] theorem dropThread_packets (s : State) (r : ThreadRef) : (s.dropThread r).packets = s.packets := rfl
@[simp] theorem dropThread_ctxBase (s : State) (r : ThreadRef) : (s.dropThread r).ctxBase = s.ctxBase := rfl
@[simp] theorem dropThread_ctxActBusy (s : State) (r : ThreadRef) : (s.dropThread r).ctxActBusy = s.ctxActBusy := rfl
@[simp] theorem dropThread_ctxActStatus (s : State) (r : ThreadRef) : (s.dropThread r).ctxActStatus = s.ctxActStatus := rfl
@[simp] theorem dropThread_contexts (s : State) (r : ThreadRef) : (s.dropThread r).contexts = s.contexts := rfl
@[simp] theorem dropThread_launchCounts (s : State) (r : ThreadRef) : (s.dropThread r).launchCounts = s.launchCounts := rfl
@[simp] theorem dropThread_posted (s : State) (r : ThreadRef) : (s.dropThread r).posted = s.posted := rfl
@[simp] theorem dropThread_launches (s : State) (r : ThreadRef) : (s.dropThread r).launches = s.launches := rfl
@[simp] theorem dropThread_bands (s : State) (r : ThreadRef) : (s.dropThread r).bands = s.bands := rfl
@[simp] theorem dropThread_faultWait (s : State) (r : ThreadRef) : (s.dropThread r).faultWait = s.faultWait := rfl
@[simp] theorem dropThread_traceWait (s : State) (r : ThreadRef) : (s.dropThread r).traceWait = s.traceWait := rfl
@[simp] theorem dropThread_adminLog (s : State) (r : ThreadRef) : (s.dropThread r).adminLog = s.adminLog := rfl
@[simp] theorem dropThread_feReports (s : State) (r : ThreadRef) : (s.dropThread r).feReports = s.feReports := rfl
@[simp] theorem dropThread_savedArray (s : State) (r : ThreadRef) : (s.dropThread r).savedArray = s.savedArray := rfl
@[simp] theorem dropThread_postStat (s : State) (r : ThreadRef) : (s.dropThread r).postStat = s.postStat := rfl
@[simp] theorem dropThread_hostRead (s : State) (r : ThreadRef) : (s.dropThread r).hostRead = s.hostRead := rfl
@[simp] theorem dropThread_hostWrites (s : State) (r : ThreadRef) : (s.dropThread r).hostWrites = s.hostWrites := rfl
@[simp] theorem dropThread_msix (s : State) (r : ThreadRef) : (s.dropThread r).msix = s.msix := rfl
@[simp] theorem dropThread_msixMap (s : State) (r : ThreadRef) : (s.dropThread r).msixMap = s.msixMap := rfl
@[simp] theorem dropThread_mailbox (s : State) (r : ThreadRef) : (s.dropThread r).mailbox = s.mailbox := rfl
@[simp] theorem dropThread_apertureSize (s : State) (r : ThreadRef) : (s.dropThread r).apertureSize = s.apertureSize := rfl
@[simp] theorem dropThread_aperture (s : State) (r : ThreadRef) : (s.dropThread r).aperture = s.aperture := rfl
@[simp] theorem dropThread_fstep (s : State) (r : ThreadRef) : (s.dropThread r).fstep = s.fstep := rfl
@[simp] theorem dropThread_fstepPend (s : State) (r : ThreadRef) : (s.dropThread r).fstepPend = s.fstepPend := rfl
@[simp] theorem dropThread_fstepHeld (s : State) (r : ThreadRef) : (s.dropThread r).fstepHeld = s.fstepHeld := rfl
@[simp] theorem dropThread_pwrLimit (s : State) (r : ThreadRef) : (s.dropThread r).pwrLimit = s.pwrLimit := rfl
@[simp] theorem dropThread_pwrMeas (s : State) (r : ThreadRef) : (s.dropThread r).pwrMeas = s.pwrMeas := rfl
@[simp] theorem dropThread_pwrTemp (s : State) (r : ThreadRef) : (s.dropThread r).pwrTemp = s.pwrTemp := rfl
@[simp] theorem dropThread_powerAt (s : State) (r : ThreadRef) : (s.dropThread r).powerAt = s.powerAt := rfl
@[simp] theorem dropThread_powered (s : State) (r : ThreadRef) : (s.dropThread r).powered = s.powered := rfl
@[simp] theorem dropThread_keys (s : State) (r : ThreadRef) : (s.dropThread r).keys = s.keys := rfl
@[simp] theorem dropThread_keyCmd (s : State) (r : ThreadRef) : (s.dropThread r).keyCmd = s.keyCmd := rfl
@[simp] theorem dropThread_keyBusy (s : State) (r : ThreadRef) : (s.dropThread r).keyBusy = s.keyBusy := rfl
@[simp] theorem dropThread_keyErr (s : State) (r : ThreadRef) : (s.dropThread r).keyErr = s.keyErr := rfl
@[simp] theorem dropThread_unitKeys (s : State) (r : ThreadRef) : (s.dropThread r).unitKeys = s.unitKeys := rfl
@[simp] theorem dropThread_bootStage (s : State) (r : ThreadRef) : (s.dropThread r).bootStage = s.bootStage := rfl
@[simp] theorem dropThread_bootFail (s : State) (r : ThreadRef) : (s.dropThread r).bootFail = s.bootFail := rfl
@[simp] theorem dropThread_measurement (s : State) (r : ThreadRef) : (s.dropThread r).measurement = s.measurement := rfl
@[simp] theorem dropThread_report (s : State) (r : ThreadRef) : (s.dropThread r).report = s.report := rfl
@[simp] theorem dropThread_dbgUnlocked (s : State) (r : ThreadRef) : (s.dropThread r).dbgUnlocked = s.dbgUnlocked := rfl
@[simp] theorem dropThread_challenge (s : State) (r : ThreadRef) : (s.dropThread r).challenge = s.challenge := rfl
@[simp] theorem dropThread_traceSink (s : State) (r : ThreadRef) : (s.dropThread r).traceSink = s.traceSink := rfl
@[simp] theorem dropThread_recorder (s : State) (r : ThreadRef) : (s.dropThread r).recorder = s.recorder := rfl
@[simp] theorem dropThread_frSeq (s : State) (r : ThreadRef) : (s.dropThread r).frSeq = s.frSeq := rfl
@[simp] theorem dropThread_fabricId (s : State) (r : ThreadRef) : (s.dropThread r).fabricId = s.fabricId := rfl
@[simp] theorem dropThread_links (s : State) (r : ThreadRef) : (s.dropThread r).links = s.links := rfl
@[simp] theorem dropThread_fabReqs (s : State) (r : ThreadRef) : (s.dropThread r).fabReqs = s.fabReqs := rfl
@[simp] theorem dropThread_fabTags (s : State) (r : ThreadRef) : (s.dropThread r).fabTags = s.fabTags := rfl
@[simp] theorem dropThread_fabDone (s : State) (r : ThreadRef) : (s.dropThread r).fabDone = s.fabDone := rfl
@[simp] theorem dropThread_homeReqs (s : State) (r : ThreadRef) : (s.dropThread r).homeReqs = s.homeReqs := rfl
@[simp] theorem dropThread_fabOut (s : State) (r : ThreadRef) : (s.dropThread r).fabOut = s.fabOut := rfl
@[simp] theorem dropThread_xfers (s : State) (r : ThreadRef) : (s.dropThread r).xfers = s.xfers := rfl
@[simp] theorem dropThread_gangs (s : State) (r : ThreadRef) : (s.dropThread r).gangs = s.gangs := rfl
@[simp] theorem dropThread_gangCount (s : State) (r : ThreadRef) : (s.dropThread r).gangCount = s.gangCount := rfl
@[simp] theorem dropThread_prepared (s : State) (r : ThreadRef) : (s.dropThread r).prepared = s.prepared := rfl

@[simp] theorem modCluster_agenda (s : State) (n : Nat) (f : Cluster → Cluster) : (s.modCluster n f).agenda = s.agenda := rfl
@[simp] theorem modCluster_cur (s : State) (n : Nat) (f : Cluster → Cluster) : (s.modCluster n f).cur = s.cur := rfl
@[simp] theorem modCluster_ir (s : State) (n : Nat) (f : Cluster → Cluster) : (s.modCluster n f).ir = s.ir := rfl
@[simp] theorem modCluster_cycle (s : State) (n : Nat) (f : Cluster → Cluster) : (s.modCluster n f).cycle = s.cycle := rfl
@[simp] theorem modCluster_turned (s : State) (n : Nat) (f : Cluster → Cluster) : (s.modCluster n f).turned = s.turned := rfl
@[simp] theorem modCluster_serial (s : State) (n : Nat) (f : Cluster → Cluster) : (s.modCluster n f).serial = s.serial := rfl
@[simp] theorem modCluster_fresh (s : State) (n : Nat) (f : Cluster → Cluster) : (s.modCluster n f).fresh = s.fresh := rfl
@[simp] theorem modCluster_beat (s : State) (n : Nat) (f : Cluster → Cluster) : (s.modCluster n f).beat = s.beat := rfl
@[simp] theorem modCluster_mem (s : State) (n : Nat) (f : Cluster → Cluster) : (s.modCluster n f).mem = s.mem := rfl
@[simp] theorem modCluster_feFlips (s : State) (n : Nat) (f : Cluster → Cluster) : (s.modCluster n f).feFlips = s.feFlips := rfl
@[simp] theorem modCluster_eccBad (s : State) (n : Nat) (f : Cluster → Cluster) : (s.modCluster n f).eccBad = s.eccBad := rfl
@[simp] theorem modCluster_eccCache (s : State) (n : Nat) (f : Cluster → Cluster) : (s.modCluster n f).eccCache = s.eccCache := rfl
@[simp] theorem modCluster_eccSoft (s : State) (n : Nat) (f : Cluster → Cluster) : (s.modCluster n f).eccSoft = s.eccSoft := rfl
@[simp] theorem modCluster_cores (s : State) (n : Nat) (f : Cluster → Cluster) : (s.modCluster n f).cores = s.cores := rfl
@[simp] theorem modCluster_xlat (s : State) (n : Nat) (f : Cluster → Cluster) : (s.modCluster n f).xlat = s.xlat := rfl
@[simp] theorem modCluster_dies (s : State) (n : Nat) (f : Cluster → Cluster) : (s.modCluster n f).dies = s.dies := rfl
@[simp] theorem modCluster_flights (s : State) (n : Nat) (f : Cluster → Cluster) : (s.modCluster n f).flights = s.flights := rfl
@[simp] theorem modCluster_queues (s : State) (n : Nat) (f : Cluster → Cluster) : (s.modCluster n f).queues = s.queues := rfl
@[simp] theorem modCluster_holds (s : State) (n : Nat) (f : Cluster → Cluster) : (s.modCluster n f).holds = s.holds := rfl
@[simp] theorem modCluster_savedWaits (s : State) (n : Nat) (f : Cluster → Cluster) : (s.modCluster n f).savedWaits = s.savedWaits := rfl
@[simp] theorem modCluster_barMsgs (s : State) (n : Nat) (f : Cluster → Cluster) : (s.modCluster n f).barMsgs = s.barMsgs := rfl
@[simp] theorem modCluster_packets (s : State) (n : Nat) (f : Cluster → Cluster) : (s.modCluster n f).packets = s.packets := rfl
@[simp] theorem modCluster_ctxBase (s : State) (n : Nat) (f : Cluster → Cluster) : (s.modCluster n f).ctxBase = s.ctxBase := rfl
@[simp] theorem modCluster_ctxActBusy (s : State) (n : Nat) (f : Cluster → Cluster) : (s.modCluster n f).ctxActBusy = s.ctxActBusy := rfl
@[simp] theorem modCluster_ctxActStatus (s : State) (n : Nat) (f : Cluster → Cluster) : (s.modCluster n f).ctxActStatus = s.ctxActStatus := rfl
@[simp] theorem modCluster_contexts (s : State) (n : Nat) (f : Cluster → Cluster) : (s.modCluster n f).contexts = s.contexts := rfl
@[simp] theorem modCluster_launchCounts (s : State) (n : Nat) (f : Cluster → Cluster) : (s.modCluster n f).launchCounts = s.launchCounts := rfl
@[simp] theorem modCluster_posted (s : State) (n : Nat) (f : Cluster → Cluster) : (s.modCluster n f).posted = s.posted := rfl
@[simp] theorem modCluster_launches (s : State) (n : Nat) (f : Cluster → Cluster) : (s.modCluster n f).launches = s.launches := rfl
@[simp] theorem modCluster_bands (s : State) (n : Nat) (f : Cluster → Cluster) : (s.modCluster n f).bands = s.bands := rfl
@[simp] theorem modCluster_faultWait (s : State) (n : Nat) (f : Cluster → Cluster) : (s.modCluster n f).faultWait = s.faultWait := rfl
@[simp] theorem modCluster_traceWait (s : State) (n : Nat) (f : Cluster → Cluster) : (s.modCluster n f).traceWait = s.traceWait := rfl
@[simp] theorem modCluster_adminLog (s : State) (n : Nat) (f : Cluster → Cluster) : (s.modCluster n f).adminLog = s.adminLog := rfl
@[simp] theorem modCluster_feReports (s : State) (n : Nat) (f : Cluster → Cluster) : (s.modCluster n f).feReports = s.feReports := rfl
@[simp] theorem modCluster_savedArray (s : State) (n : Nat) (f : Cluster → Cluster) : (s.modCluster n f).savedArray = s.savedArray := rfl
@[simp] theorem modCluster_postStat (s : State) (n : Nat) (f : Cluster → Cluster) : (s.modCluster n f).postStat = s.postStat := rfl
@[simp] theorem modCluster_hostRead (s : State) (n : Nat) (f : Cluster → Cluster) : (s.modCluster n f).hostRead = s.hostRead := rfl
@[simp] theorem modCluster_hostWrites (s : State) (n : Nat) (f : Cluster → Cluster) : (s.modCluster n f).hostWrites = s.hostWrites := rfl
@[simp] theorem modCluster_msix (s : State) (n : Nat) (f : Cluster → Cluster) : (s.modCluster n f).msix = s.msix := rfl
@[simp] theorem modCluster_msixMap (s : State) (n : Nat) (f : Cluster → Cluster) : (s.modCluster n f).msixMap = s.msixMap := rfl
@[simp] theorem modCluster_mailbox (s : State) (n : Nat) (f : Cluster → Cluster) : (s.modCluster n f).mailbox = s.mailbox := rfl
@[simp] theorem modCluster_apertureSize (s : State) (n : Nat) (f : Cluster → Cluster) : (s.modCluster n f).apertureSize = s.apertureSize := rfl
@[simp] theorem modCluster_aperture (s : State) (n : Nat) (f : Cluster → Cluster) : (s.modCluster n f).aperture = s.aperture := rfl
@[simp] theorem modCluster_fstep (s : State) (n : Nat) (f : Cluster → Cluster) : (s.modCluster n f).fstep = s.fstep := rfl
@[simp] theorem modCluster_fstepPend (s : State) (n : Nat) (f : Cluster → Cluster) : (s.modCluster n f).fstepPend = s.fstepPend := rfl
@[simp] theorem modCluster_fstepHeld (s : State) (n : Nat) (f : Cluster → Cluster) : (s.modCluster n f).fstepHeld = s.fstepHeld := rfl
@[simp] theorem modCluster_pwrLimit (s : State) (n : Nat) (f : Cluster → Cluster) : (s.modCluster n f).pwrLimit = s.pwrLimit := rfl
@[simp] theorem modCluster_pwrMeas (s : State) (n : Nat) (f : Cluster → Cluster) : (s.modCluster n f).pwrMeas = s.pwrMeas := rfl
@[simp] theorem modCluster_pwrTemp (s : State) (n : Nat) (f : Cluster → Cluster) : (s.modCluster n f).pwrTemp = s.pwrTemp := rfl
@[simp] theorem modCluster_powerAt (s : State) (n : Nat) (f : Cluster → Cluster) : (s.modCluster n f).powerAt = s.powerAt := rfl
@[simp] theorem modCluster_powered (s : State) (n : Nat) (f : Cluster → Cluster) : (s.modCluster n f).powered = s.powered := rfl
@[simp] theorem modCluster_keys (s : State) (n : Nat) (f : Cluster → Cluster) : (s.modCluster n f).keys = s.keys := rfl
@[simp] theorem modCluster_keyCmd (s : State) (n : Nat) (f : Cluster → Cluster) : (s.modCluster n f).keyCmd = s.keyCmd := rfl
@[simp] theorem modCluster_keyBusy (s : State) (n : Nat) (f : Cluster → Cluster) : (s.modCluster n f).keyBusy = s.keyBusy := rfl
@[simp] theorem modCluster_keyErr (s : State) (n : Nat) (f : Cluster → Cluster) : (s.modCluster n f).keyErr = s.keyErr := rfl
@[simp] theorem modCluster_unitKeys (s : State) (n : Nat) (f : Cluster → Cluster) : (s.modCluster n f).unitKeys = s.unitKeys := rfl
@[simp] theorem modCluster_bootStage (s : State) (n : Nat) (f : Cluster → Cluster) : (s.modCluster n f).bootStage = s.bootStage := rfl
@[simp] theorem modCluster_bootFail (s : State) (n : Nat) (f : Cluster → Cluster) : (s.modCluster n f).bootFail = s.bootFail := rfl
@[simp] theorem modCluster_measurement (s : State) (n : Nat) (f : Cluster → Cluster) : (s.modCluster n f).measurement = s.measurement := rfl
@[simp] theorem modCluster_report (s : State) (n : Nat) (f : Cluster → Cluster) : (s.modCluster n f).report = s.report := rfl
@[simp] theorem modCluster_dbgUnlocked (s : State) (n : Nat) (f : Cluster → Cluster) : (s.modCluster n f).dbgUnlocked = s.dbgUnlocked := rfl
@[simp] theorem modCluster_challenge (s : State) (n : Nat) (f : Cluster → Cluster) : (s.modCluster n f).challenge = s.challenge := rfl
@[simp] theorem modCluster_traceSink (s : State) (n : Nat) (f : Cluster → Cluster) : (s.modCluster n f).traceSink = s.traceSink := rfl
@[simp] theorem modCluster_recorder (s : State) (n : Nat) (f : Cluster → Cluster) : (s.modCluster n f).recorder = s.recorder := rfl
@[simp] theorem modCluster_frSeq (s : State) (n : Nat) (f : Cluster → Cluster) : (s.modCluster n f).frSeq = s.frSeq := rfl
@[simp] theorem modCluster_fabricId (s : State) (n : Nat) (f : Cluster → Cluster) : (s.modCluster n f).fabricId = s.fabricId := rfl
@[simp] theorem modCluster_links (s : State) (n : Nat) (f : Cluster → Cluster) : (s.modCluster n f).links = s.links := rfl
@[simp] theorem modCluster_fabReqs (s : State) (n : Nat) (f : Cluster → Cluster) : (s.modCluster n f).fabReqs = s.fabReqs := rfl
@[simp] theorem modCluster_fabTags (s : State) (n : Nat) (f : Cluster → Cluster) : (s.modCluster n f).fabTags = s.fabTags := rfl
@[simp] theorem modCluster_fabDone (s : State) (n : Nat) (f : Cluster → Cluster) : (s.modCluster n f).fabDone = s.fabDone := rfl
@[simp] theorem modCluster_homeReqs (s : State) (n : Nat) (f : Cluster → Cluster) : (s.modCluster n f).homeReqs = s.homeReqs := rfl
@[simp] theorem modCluster_fabOut (s : State) (n : Nat) (f : Cluster → Cluster) : (s.modCluster n f).fabOut = s.fabOut := rfl
@[simp] theorem modCluster_xfers (s : State) (n : Nat) (f : Cluster → Cluster) : (s.modCluster n f).xfers = s.xfers := rfl
@[simp] theorem modCluster_gangs (s : State) (n : Nat) (f : Cluster → Cluster) : (s.modCluster n f).gangs = s.gangs := rfl
@[simp] theorem modCluster_gangCount (s : State) (n : Nat) (f : Cluster → Cluster) : (s.modCluster n f).gangCount = s.gangCount := rfl
@[simp] theorem modCluster_prepared (s : State) (n : Nat) (f : Cluster → Cluster) : (s.modCluster n f).prepared = s.prepared := rfl

@[simp] theorem modUnit_agenda (s : State) (n : Nat) (f : XlatUnit → XlatUnit) : (s.modUnit n f).agenda = s.agenda := rfl
@[simp] theorem modUnit_cur (s : State) (n : Nat) (f : XlatUnit → XlatUnit) : (s.modUnit n f).cur = s.cur := rfl
@[simp] theorem modUnit_ir (s : State) (n : Nat) (f : XlatUnit → XlatUnit) : (s.modUnit n f).ir = s.ir := rfl
@[simp] theorem modUnit_cycle (s : State) (n : Nat) (f : XlatUnit → XlatUnit) : (s.modUnit n f).cycle = s.cycle := rfl
@[simp] theorem modUnit_turned (s : State) (n : Nat) (f : XlatUnit → XlatUnit) : (s.modUnit n f).turned = s.turned := rfl
@[simp] theorem modUnit_serial (s : State) (n : Nat) (f : XlatUnit → XlatUnit) : (s.modUnit n f).serial = s.serial := rfl
@[simp] theorem modUnit_fresh (s : State) (n : Nat) (f : XlatUnit → XlatUnit) : (s.modUnit n f).fresh = s.fresh := rfl
@[simp] theorem modUnit_beat (s : State) (n : Nat) (f : XlatUnit → XlatUnit) : (s.modUnit n f).beat = s.beat := rfl
@[simp] theorem modUnit_mem (s : State) (n : Nat) (f : XlatUnit → XlatUnit) : (s.modUnit n f).mem = s.mem := rfl
@[simp] theorem modUnit_feFlips (s : State) (n : Nat) (f : XlatUnit → XlatUnit) : (s.modUnit n f).feFlips = s.feFlips := rfl
@[simp] theorem modUnit_eccBad (s : State) (n : Nat) (f : XlatUnit → XlatUnit) : (s.modUnit n f).eccBad = s.eccBad := rfl
@[simp] theorem modUnit_eccCache (s : State) (n : Nat) (f : XlatUnit → XlatUnit) : (s.modUnit n f).eccCache = s.eccCache := rfl
@[simp] theorem modUnit_eccSoft (s : State) (n : Nat) (f : XlatUnit → XlatUnit) : (s.modUnit n f).eccSoft = s.eccSoft := rfl
@[simp] theorem modUnit_cores (s : State) (n : Nat) (f : XlatUnit → XlatUnit) : (s.modUnit n f).cores = s.cores := rfl
@[simp] theorem modUnit_clusters (s : State) (n : Nat) (f : XlatUnit → XlatUnit) : (s.modUnit n f).clusters = s.clusters := rfl
@[simp] theorem modUnit_dies (s : State) (n : Nat) (f : XlatUnit → XlatUnit) : (s.modUnit n f).dies = s.dies := rfl
@[simp] theorem modUnit_flights (s : State) (n : Nat) (f : XlatUnit → XlatUnit) : (s.modUnit n f).flights = s.flights := rfl
@[simp] theorem modUnit_queues (s : State) (n : Nat) (f : XlatUnit → XlatUnit) : (s.modUnit n f).queues = s.queues := rfl
@[simp] theorem modUnit_holds (s : State) (n : Nat) (f : XlatUnit → XlatUnit) : (s.modUnit n f).holds = s.holds := rfl
@[simp] theorem modUnit_savedWaits (s : State) (n : Nat) (f : XlatUnit → XlatUnit) : (s.modUnit n f).savedWaits = s.savedWaits := rfl
@[simp] theorem modUnit_barMsgs (s : State) (n : Nat) (f : XlatUnit → XlatUnit) : (s.modUnit n f).barMsgs = s.barMsgs := rfl
@[simp] theorem modUnit_packets (s : State) (n : Nat) (f : XlatUnit → XlatUnit) : (s.modUnit n f).packets = s.packets := rfl
@[simp] theorem modUnit_ctxBase (s : State) (n : Nat) (f : XlatUnit → XlatUnit) : (s.modUnit n f).ctxBase = s.ctxBase := rfl
@[simp] theorem modUnit_ctxActBusy (s : State) (n : Nat) (f : XlatUnit → XlatUnit) : (s.modUnit n f).ctxActBusy = s.ctxActBusy := rfl
@[simp] theorem modUnit_ctxActStatus (s : State) (n : Nat) (f : XlatUnit → XlatUnit) : (s.modUnit n f).ctxActStatus = s.ctxActStatus := rfl
@[simp] theorem modUnit_contexts (s : State) (n : Nat) (f : XlatUnit → XlatUnit) : (s.modUnit n f).contexts = s.contexts := rfl
@[simp] theorem modUnit_launchCounts (s : State) (n : Nat) (f : XlatUnit → XlatUnit) : (s.modUnit n f).launchCounts = s.launchCounts := rfl
@[simp] theorem modUnit_posted (s : State) (n : Nat) (f : XlatUnit → XlatUnit) : (s.modUnit n f).posted = s.posted := rfl
@[simp] theorem modUnit_launches (s : State) (n : Nat) (f : XlatUnit → XlatUnit) : (s.modUnit n f).launches = s.launches := rfl
@[simp] theorem modUnit_bands (s : State) (n : Nat) (f : XlatUnit → XlatUnit) : (s.modUnit n f).bands = s.bands := rfl
@[simp] theorem modUnit_faultWait (s : State) (n : Nat) (f : XlatUnit → XlatUnit) : (s.modUnit n f).faultWait = s.faultWait := rfl
@[simp] theorem modUnit_traceWait (s : State) (n : Nat) (f : XlatUnit → XlatUnit) : (s.modUnit n f).traceWait = s.traceWait := rfl
@[simp] theorem modUnit_adminLog (s : State) (n : Nat) (f : XlatUnit → XlatUnit) : (s.modUnit n f).adminLog = s.adminLog := rfl
@[simp] theorem modUnit_feReports (s : State) (n : Nat) (f : XlatUnit → XlatUnit) : (s.modUnit n f).feReports = s.feReports := rfl
@[simp] theorem modUnit_savedArray (s : State) (n : Nat) (f : XlatUnit → XlatUnit) : (s.modUnit n f).savedArray = s.savedArray := rfl
@[simp] theorem modUnit_postStat (s : State) (n : Nat) (f : XlatUnit → XlatUnit) : (s.modUnit n f).postStat = s.postStat := rfl
@[simp] theorem modUnit_hostRead (s : State) (n : Nat) (f : XlatUnit → XlatUnit) : (s.modUnit n f).hostRead = s.hostRead := rfl
@[simp] theorem modUnit_hostWrites (s : State) (n : Nat) (f : XlatUnit → XlatUnit) : (s.modUnit n f).hostWrites = s.hostWrites := rfl
@[simp] theorem modUnit_msix (s : State) (n : Nat) (f : XlatUnit → XlatUnit) : (s.modUnit n f).msix = s.msix := rfl
@[simp] theorem modUnit_msixMap (s : State) (n : Nat) (f : XlatUnit → XlatUnit) : (s.modUnit n f).msixMap = s.msixMap := rfl
@[simp] theorem modUnit_mailbox (s : State) (n : Nat) (f : XlatUnit → XlatUnit) : (s.modUnit n f).mailbox = s.mailbox := rfl
@[simp] theorem modUnit_apertureSize (s : State) (n : Nat) (f : XlatUnit → XlatUnit) : (s.modUnit n f).apertureSize = s.apertureSize := rfl
@[simp] theorem modUnit_aperture (s : State) (n : Nat) (f : XlatUnit → XlatUnit) : (s.modUnit n f).aperture = s.aperture := rfl
@[simp] theorem modUnit_fstep (s : State) (n : Nat) (f : XlatUnit → XlatUnit) : (s.modUnit n f).fstep = s.fstep := rfl
@[simp] theorem modUnit_fstepPend (s : State) (n : Nat) (f : XlatUnit → XlatUnit) : (s.modUnit n f).fstepPend = s.fstepPend := rfl
@[simp] theorem modUnit_fstepHeld (s : State) (n : Nat) (f : XlatUnit → XlatUnit) : (s.modUnit n f).fstepHeld = s.fstepHeld := rfl
@[simp] theorem modUnit_pwrLimit (s : State) (n : Nat) (f : XlatUnit → XlatUnit) : (s.modUnit n f).pwrLimit = s.pwrLimit := rfl
@[simp] theorem modUnit_pwrMeas (s : State) (n : Nat) (f : XlatUnit → XlatUnit) : (s.modUnit n f).pwrMeas = s.pwrMeas := rfl
@[simp] theorem modUnit_pwrTemp (s : State) (n : Nat) (f : XlatUnit → XlatUnit) : (s.modUnit n f).pwrTemp = s.pwrTemp := rfl
@[simp] theorem modUnit_powerAt (s : State) (n : Nat) (f : XlatUnit → XlatUnit) : (s.modUnit n f).powerAt = s.powerAt := rfl
@[simp] theorem modUnit_powered (s : State) (n : Nat) (f : XlatUnit → XlatUnit) : (s.modUnit n f).powered = s.powered := rfl
@[simp] theorem modUnit_keys (s : State) (n : Nat) (f : XlatUnit → XlatUnit) : (s.modUnit n f).keys = s.keys := rfl
@[simp] theorem modUnit_keyCmd (s : State) (n : Nat) (f : XlatUnit → XlatUnit) : (s.modUnit n f).keyCmd = s.keyCmd := rfl
@[simp] theorem modUnit_keyBusy (s : State) (n : Nat) (f : XlatUnit → XlatUnit) : (s.modUnit n f).keyBusy = s.keyBusy := rfl
@[simp] theorem modUnit_keyErr (s : State) (n : Nat) (f : XlatUnit → XlatUnit) : (s.modUnit n f).keyErr = s.keyErr := rfl
@[simp] theorem modUnit_unitKeys (s : State) (n : Nat) (f : XlatUnit → XlatUnit) : (s.modUnit n f).unitKeys = s.unitKeys := rfl
@[simp] theorem modUnit_bootStage (s : State) (n : Nat) (f : XlatUnit → XlatUnit) : (s.modUnit n f).bootStage = s.bootStage := rfl
@[simp] theorem modUnit_bootFail (s : State) (n : Nat) (f : XlatUnit → XlatUnit) : (s.modUnit n f).bootFail = s.bootFail := rfl
@[simp] theorem modUnit_measurement (s : State) (n : Nat) (f : XlatUnit → XlatUnit) : (s.modUnit n f).measurement = s.measurement := rfl
@[simp] theorem modUnit_report (s : State) (n : Nat) (f : XlatUnit → XlatUnit) : (s.modUnit n f).report = s.report := rfl
@[simp] theorem modUnit_dbgUnlocked (s : State) (n : Nat) (f : XlatUnit → XlatUnit) : (s.modUnit n f).dbgUnlocked = s.dbgUnlocked := rfl
@[simp] theorem modUnit_challenge (s : State) (n : Nat) (f : XlatUnit → XlatUnit) : (s.modUnit n f).challenge = s.challenge := rfl
@[simp] theorem modUnit_traceSink (s : State) (n : Nat) (f : XlatUnit → XlatUnit) : (s.modUnit n f).traceSink = s.traceSink := rfl
@[simp] theorem modUnit_recorder (s : State) (n : Nat) (f : XlatUnit → XlatUnit) : (s.modUnit n f).recorder = s.recorder := rfl
@[simp] theorem modUnit_frSeq (s : State) (n : Nat) (f : XlatUnit → XlatUnit) : (s.modUnit n f).frSeq = s.frSeq := rfl
@[simp] theorem modUnit_fabricId (s : State) (n : Nat) (f : XlatUnit → XlatUnit) : (s.modUnit n f).fabricId = s.fabricId := rfl
@[simp] theorem modUnit_links (s : State) (n : Nat) (f : XlatUnit → XlatUnit) : (s.modUnit n f).links = s.links := rfl
@[simp] theorem modUnit_fabReqs (s : State) (n : Nat) (f : XlatUnit → XlatUnit) : (s.modUnit n f).fabReqs = s.fabReqs := rfl
@[simp] theorem modUnit_fabTags (s : State) (n : Nat) (f : XlatUnit → XlatUnit) : (s.modUnit n f).fabTags = s.fabTags := rfl
@[simp] theorem modUnit_fabDone (s : State) (n : Nat) (f : XlatUnit → XlatUnit) : (s.modUnit n f).fabDone = s.fabDone := rfl
@[simp] theorem modUnit_homeReqs (s : State) (n : Nat) (f : XlatUnit → XlatUnit) : (s.modUnit n f).homeReqs = s.homeReqs := rfl
@[simp] theorem modUnit_fabOut (s : State) (n : Nat) (f : XlatUnit → XlatUnit) : (s.modUnit n f).fabOut = s.fabOut := rfl
@[simp] theorem modUnit_xfers (s : State) (n : Nat) (f : XlatUnit → XlatUnit) : (s.modUnit n f).xfers = s.xfers := rfl
@[simp] theorem modUnit_gangs (s : State) (n : Nat) (f : XlatUnit → XlatUnit) : (s.modUnit n f).gangs = s.gangs := rfl
@[simp] theorem modUnit_gangCount (s : State) (n : Nat) (f : XlatUnit → XlatUnit) : (s.modUnit n f).gangCount = s.gangCount := rfl
@[simp] theorem modUnit_prepared (s : State) (n : Nat) (f : XlatUnit → XlatUnit) : (s.modUnit n f).prepared = s.prepared := rfl

@[simp] theorem modDie_agenda (s : State) (n : Nat) (f : Die → Die) : (s.modDie n f).agenda = s.agenda := rfl
@[simp] theorem modDie_cur (s : State) (n : Nat) (f : Die → Die) : (s.modDie n f).cur = s.cur := rfl
@[simp] theorem modDie_ir (s : State) (n : Nat) (f : Die → Die) : (s.modDie n f).ir = s.ir := rfl
@[simp] theorem modDie_cycle (s : State) (n : Nat) (f : Die → Die) : (s.modDie n f).cycle = s.cycle := rfl
@[simp] theorem modDie_turned (s : State) (n : Nat) (f : Die → Die) : (s.modDie n f).turned = s.turned := rfl
@[simp] theorem modDie_serial (s : State) (n : Nat) (f : Die → Die) : (s.modDie n f).serial = s.serial := rfl
@[simp] theorem modDie_fresh (s : State) (n : Nat) (f : Die → Die) : (s.modDie n f).fresh = s.fresh := rfl
@[simp] theorem modDie_beat (s : State) (n : Nat) (f : Die → Die) : (s.modDie n f).beat = s.beat := rfl
@[simp] theorem modDie_mem (s : State) (n : Nat) (f : Die → Die) : (s.modDie n f).mem = s.mem := rfl
@[simp] theorem modDie_feFlips (s : State) (n : Nat) (f : Die → Die) : (s.modDie n f).feFlips = s.feFlips := rfl
@[simp] theorem modDie_eccBad (s : State) (n : Nat) (f : Die → Die) : (s.modDie n f).eccBad = s.eccBad := rfl
@[simp] theorem modDie_eccCache (s : State) (n : Nat) (f : Die → Die) : (s.modDie n f).eccCache = s.eccCache := rfl
@[simp] theorem modDie_eccSoft (s : State) (n : Nat) (f : Die → Die) : (s.modDie n f).eccSoft = s.eccSoft := rfl
@[simp] theorem modDie_cores (s : State) (n : Nat) (f : Die → Die) : (s.modDie n f).cores = s.cores := rfl
@[simp] theorem modDie_clusters (s : State) (n : Nat) (f : Die → Die) : (s.modDie n f).clusters = s.clusters := rfl
@[simp] theorem modDie_xlat (s : State) (n : Nat) (f : Die → Die) : (s.modDie n f).xlat = s.xlat := rfl
@[simp] theorem modDie_flights (s : State) (n : Nat) (f : Die → Die) : (s.modDie n f).flights = s.flights := rfl
@[simp] theorem modDie_queues (s : State) (n : Nat) (f : Die → Die) : (s.modDie n f).queues = s.queues := rfl
@[simp] theorem modDie_holds (s : State) (n : Nat) (f : Die → Die) : (s.modDie n f).holds = s.holds := rfl
@[simp] theorem modDie_savedWaits (s : State) (n : Nat) (f : Die → Die) : (s.modDie n f).savedWaits = s.savedWaits := rfl
@[simp] theorem modDie_barMsgs (s : State) (n : Nat) (f : Die → Die) : (s.modDie n f).barMsgs = s.barMsgs := rfl
@[simp] theorem modDie_packets (s : State) (n : Nat) (f : Die → Die) : (s.modDie n f).packets = s.packets := rfl
@[simp] theorem modDie_ctxBase (s : State) (n : Nat) (f : Die → Die) : (s.modDie n f).ctxBase = s.ctxBase := rfl
@[simp] theorem modDie_ctxActBusy (s : State) (n : Nat) (f : Die → Die) : (s.modDie n f).ctxActBusy = s.ctxActBusy := rfl
@[simp] theorem modDie_ctxActStatus (s : State) (n : Nat) (f : Die → Die) : (s.modDie n f).ctxActStatus = s.ctxActStatus := rfl
@[simp] theorem modDie_contexts (s : State) (n : Nat) (f : Die → Die) : (s.modDie n f).contexts = s.contexts := rfl
@[simp] theorem modDie_launchCounts (s : State) (n : Nat) (f : Die → Die) : (s.modDie n f).launchCounts = s.launchCounts := rfl
@[simp] theorem modDie_posted (s : State) (n : Nat) (f : Die → Die) : (s.modDie n f).posted = s.posted := rfl
@[simp] theorem modDie_launches (s : State) (n : Nat) (f : Die → Die) : (s.modDie n f).launches = s.launches := rfl
@[simp] theorem modDie_bands (s : State) (n : Nat) (f : Die → Die) : (s.modDie n f).bands = s.bands := rfl
@[simp] theorem modDie_faultWait (s : State) (n : Nat) (f : Die → Die) : (s.modDie n f).faultWait = s.faultWait := rfl
@[simp] theorem modDie_traceWait (s : State) (n : Nat) (f : Die → Die) : (s.modDie n f).traceWait = s.traceWait := rfl
@[simp] theorem modDie_adminLog (s : State) (n : Nat) (f : Die → Die) : (s.modDie n f).adminLog = s.adminLog := rfl
@[simp] theorem modDie_feReports (s : State) (n : Nat) (f : Die → Die) : (s.modDie n f).feReports = s.feReports := rfl
@[simp] theorem modDie_savedArray (s : State) (n : Nat) (f : Die → Die) : (s.modDie n f).savedArray = s.savedArray := rfl
@[simp] theorem modDie_postStat (s : State) (n : Nat) (f : Die → Die) : (s.modDie n f).postStat = s.postStat := rfl
@[simp] theorem modDie_hostRead (s : State) (n : Nat) (f : Die → Die) : (s.modDie n f).hostRead = s.hostRead := rfl
@[simp] theorem modDie_hostWrites (s : State) (n : Nat) (f : Die → Die) : (s.modDie n f).hostWrites = s.hostWrites := rfl
@[simp] theorem modDie_msix (s : State) (n : Nat) (f : Die → Die) : (s.modDie n f).msix = s.msix := rfl
@[simp] theorem modDie_msixMap (s : State) (n : Nat) (f : Die → Die) : (s.modDie n f).msixMap = s.msixMap := rfl
@[simp] theorem modDie_mailbox (s : State) (n : Nat) (f : Die → Die) : (s.modDie n f).mailbox = s.mailbox := rfl
@[simp] theorem modDie_apertureSize (s : State) (n : Nat) (f : Die → Die) : (s.modDie n f).apertureSize = s.apertureSize := rfl
@[simp] theorem modDie_aperture (s : State) (n : Nat) (f : Die → Die) : (s.modDie n f).aperture = s.aperture := rfl
@[simp] theorem modDie_fstep (s : State) (n : Nat) (f : Die → Die) : (s.modDie n f).fstep = s.fstep := rfl
@[simp] theorem modDie_fstepPend (s : State) (n : Nat) (f : Die → Die) : (s.modDie n f).fstepPend = s.fstepPend := rfl
@[simp] theorem modDie_fstepHeld (s : State) (n : Nat) (f : Die → Die) : (s.modDie n f).fstepHeld = s.fstepHeld := rfl
@[simp] theorem modDie_pwrLimit (s : State) (n : Nat) (f : Die → Die) : (s.modDie n f).pwrLimit = s.pwrLimit := rfl
@[simp] theorem modDie_pwrMeas (s : State) (n : Nat) (f : Die → Die) : (s.modDie n f).pwrMeas = s.pwrMeas := rfl
@[simp] theorem modDie_pwrTemp (s : State) (n : Nat) (f : Die → Die) : (s.modDie n f).pwrTemp = s.pwrTemp := rfl
@[simp] theorem modDie_powerAt (s : State) (n : Nat) (f : Die → Die) : (s.modDie n f).powerAt = s.powerAt := rfl
@[simp] theorem modDie_powered (s : State) (n : Nat) (f : Die → Die) : (s.modDie n f).powered = s.powered := rfl
@[simp] theorem modDie_keys (s : State) (n : Nat) (f : Die → Die) : (s.modDie n f).keys = s.keys := rfl
@[simp] theorem modDie_keyCmd (s : State) (n : Nat) (f : Die → Die) : (s.modDie n f).keyCmd = s.keyCmd := rfl
@[simp] theorem modDie_keyBusy (s : State) (n : Nat) (f : Die → Die) : (s.modDie n f).keyBusy = s.keyBusy := rfl
@[simp] theorem modDie_keyErr (s : State) (n : Nat) (f : Die → Die) : (s.modDie n f).keyErr = s.keyErr := rfl
@[simp] theorem modDie_unitKeys (s : State) (n : Nat) (f : Die → Die) : (s.modDie n f).unitKeys = s.unitKeys := rfl
@[simp] theorem modDie_bootStage (s : State) (n : Nat) (f : Die → Die) : (s.modDie n f).bootStage = s.bootStage := rfl
@[simp] theorem modDie_bootFail (s : State) (n : Nat) (f : Die → Die) : (s.modDie n f).bootFail = s.bootFail := rfl
@[simp] theorem modDie_measurement (s : State) (n : Nat) (f : Die → Die) : (s.modDie n f).measurement = s.measurement := rfl
@[simp] theorem modDie_report (s : State) (n : Nat) (f : Die → Die) : (s.modDie n f).report = s.report := rfl
@[simp] theorem modDie_dbgUnlocked (s : State) (n : Nat) (f : Die → Die) : (s.modDie n f).dbgUnlocked = s.dbgUnlocked := rfl
@[simp] theorem modDie_challenge (s : State) (n : Nat) (f : Die → Die) : (s.modDie n f).challenge = s.challenge := rfl
@[simp] theorem modDie_traceSink (s : State) (n : Nat) (f : Die → Die) : (s.modDie n f).traceSink = s.traceSink := rfl
@[simp] theorem modDie_recorder (s : State) (n : Nat) (f : Die → Die) : (s.modDie n f).recorder = s.recorder := rfl
@[simp] theorem modDie_frSeq (s : State) (n : Nat) (f : Die → Die) : (s.modDie n f).frSeq = s.frSeq := rfl
@[simp] theorem modDie_fabricId (s : State) (n : Nat) (f : Die → Die) : (s.modDie n f).fabricId = s.fabricId := rfl
@[simp] theorem modDie_links (s : State) (n : Nat) (f : Die → Die) : (s.modDie n f).links = s.links := rfl
@[simp] theorem modDie_fabReqs (s : State) (n : Nat) (f : Die → Die) : (s.modDie n f).fabReqs = s.fabReqs := rfl
@[simp] theorem modDie_fabTags (s : State) (n : Nat) (f : Die → Die) : (s.modDie n f).fabTags = s.fabTags := rfl
@[simp] theorem modDie_fabDone (s : State) (n : Nat) (f : Die → Die) : (s.modDie n f).fabDone = s.fabDone := rfl
@[simp] theorem modDie_homeReqs (s : State) (n : Nat) (f : Die → Die) : (s.modDie n f).homeReqs = s.homeReqs := rfl
@[simp] theorem modDie_fabOut (s : State) (n : Nat) (f : Die → Die) : (s.modDie n f).fabOut = s.fabOut := rfl
@[simp] theorem modDie_xfers (s : State) (n : Nat) (f : Die → Die) : (s.modDie n f).xfers = s.xfers := rfl
@[simp] theorem modDie_gangs (s : State) (n : Nat) (f : Die → Die) : (s.modDie n f).gangs = s.gangs := rfl
@[simp] theorem modDie_gangCount (s : State) (n : Nat) (f : Die → Die) : (s.modDie n f).gangCount = s.gangCount := rfl
@[simp] theorem modDie_prepared (s : State) (n : Nat) (f : Die → Die) : (s.modDie n f).prepared = s.prepared := rfl

@[simp] theorem modContext_agenda (s : State) (n : Nat) (f : Context → Context) : (s.modContext n f).agenda = s.agenda := rfl
@[simp] theorem modContext_cur (s : State) (n : Nat) (f : Context → Context) : (s.modContext n f).cur = s.cur := rfl
@[simp] theorem modContext_ir (s : State) (n : Nat) (f : Context → Context) : (s.modContext n f).ir = s.ir := rfl
@[simp] theorem modContext_cycle (s : State) (n : Nat) (f : Context → Context) : (s.modContext n f).cycle = s.cycle := rfl
@[simp] theorem modContext_turned (s : State) (n : Nat) (f : Context → Context) : (s.modContext n f).turned = s.turned := rfl
@[simp] theorem modContext_serial (s : State) (n : Nat) (f : Context → Context) : (s.modContext n f).serial = s.serial := rfl
@[simp] theorem modContext_fresh (s : State) (n : Nat) (f : Context → Context) : (s.modContext n f).fresh = s.fresh := rfl
@[simp] theorem modContext_beat (s : State) (n : Nat) (f : Context → Context) : (s.modContext n f).beat = s.beat := rfl
@[simp] theorem modContext_mem (s : State) (n : Nat) (f : Context → Context) : (s.modContext n f).mem = s.mem := rfl
@[simp] theorem modContext_feFlips (s : State) (n : Nat) (f : Context → Context) : (s.modContext n f).feFlips = s.feFlips := rfl
@[simp] theorem modContext_eccBad (s : State) (n : Nat) (f : Context → Context) : (s.modContext n f).eccBad = s.eccBad := rfl
@[simp] theorem modContext_eccCache (s : State) (n : Nat) (f : Context → Context) : (s.modContext n f).eccCache = s.eccCache := rfl
@[simp] theorem modContext_eccSoft (s : State) (n : Nat) (f : Context → Context) : (s.modContext n f).eccSoft = s.eccSoft := rfl
@[simp] theorem modContext_cores (s : State) (n : Nat) (f : Context → Context) : (s.modContext n f).cores = s.cores := rfl
@[simp] theorem modContext_clusters (s : State) (n : Nat) (f : Context → Context) : (s.modContext n f).clusters = s.clusters := rfl
@[simp] theorem modContext_xlat (s : State) (n : Nat) (f : Context → Context) : (s.modContext n f).xlat = s.xlat := rfl
@[simp] theorem modContext_dies (s : State) (n : Nat) (f : Context → Context) : (s.modContext n f).dies = s.dies := rfl
@[simp] theorem modContext_flights (s : State) (n : Nat) (f : Context → Context) : (s.modContext n f).flights = s.flights := rfl
@[simp] theorem modContext_queues (s : State) (n : Nat) (f : Context → Context) : (s.modContext n f).queues = s.queues := rfl
@[simp] theorem modContext_holds (s : State) (n : Nat) (f : Context → Context) : (s.modContext n f).holds = s.holds := rfl
@[simp] theorem modContext_savedWaits (s : State) (n : Nat) (f : Context → Context) : (s.modContext n f).savedWaits = s.savedWaits := rfl
@[simp] theorem modContext_barMsgs (s : State) (n : Nat) (f : Context → Context) : (s.modContext n f).barMsgs = s.barMsgs := rfl
@[simp] theorem modContext_packets (s : State) (n : Nat) (f : Context → Context) : (s.modContext n f).packets = s.packets := rfl
@[simp] theorem modContext_ctxBase (s : State) (n : Nat) (f : Context → Context) : (s.modContext n f).ctxBase = s.ctxBase := rfl
@[simp] theorem modContext_ctxActBusy (s : State) (n : Nat) (f : Context → Context) : (s.modContext n f).ctxActBusy = s.ctxActBusy := rfl
@[simp] theorem modContext_ctxActStatus (s : State) (n : Nat) (f : Context → Context) : (s.modContext n f).ctxActStatus = s.ctxActStatus := rfl
@[simp] theorem modContext_launchCounts (s : State) (n : Nat) (f : Context → Context) : (s.modContext n f).launchCounts = s.launchCounts := rfl
@[simp] theorem modContext_posted (s : State) (n : Nat) (f : Context → Context) : (s.modContext n f).posted = s.posted := rfl
@[simp] theorem modContext_launches (s : State) (n : Nat) (f : Context → Context) : (s.modContext n f).launches = s.launches := rfl
@[simp] theorem modContext_bands (s : State) (n : Nat) (f : Context → Context) : (s.modContext n f).bands = s.bands := rfl
@[simp] theorem modContext_faultWait (s : State) (n : Nat) (f : Context → Context) : (s.modContext n f).faultWait = s.faultWait := rfl
@[simp] theorem modContext_traceWait (s : State) (n : Nat) (f : Context → Context) : (s.modContext n f).traceWait = s.traceWait := rfl
@[simp] theorem modContext_adminLog (s : State) (n : Nat) (f : Context → Context) : (s.modContext n f).adminLog = s.adminLog := rfl
@[simp] theorem modContext_feReports (s : State) (n : Nat) (f : Context → Context) : (s.modContext n f).feReports = s.feReports := rfl
@[simp] theorem modContext_savedArray (s : State) (n : Nat) (f : Context → Context) : (s.modContext n f).savedArray = s.savedArray := rfl
@[simp] theorem modContext_postStat (s : State) (n : Nat) (f : Context → Context) : (s.modContext n f).postStat = s.postStat := rfl
@[simp] theorem modContext_hostRead (s : State) (n : Nat) (f : Context → Context) : (s.modContext n f).hostRead = s.hostRead := rfl
@[simp] theorem modContext_hostWrites (s : State) (n : Nat) (f : Context → Context) : (s.modContext n f).hostWrites = s.hostWrites := rfl
@[simp] theorem modContext_msix (s : State) (n : Nat) (f : Context → Context) : (s.modContext n f).msix = s.msix := rfl
@[simp] theorem modContext_msixMap (s : State) (n : Nat) (f : Context → Context) : (s.modContext n f).msixMap = s.msixMap := rfl
@[simp] theorem modContext_mailbox (s : State) (n : Nat) (f : Context → Context) : (s.modContext n f).mailbox = s.mailbox := rfl
@[simp] theorem modContext_apertureSize (s : State) (n : Nat) (f : Context → Context) : (s.modContext n f).apertureSize = s.apertureSize := rfl
@[simp] theorem modContext_aperture (s : State) (n : Nat) (f : Context → Context) : (s.modContext n f).aperture = s.aperture := rfl
@[simp] theorem modContext_fstep (s : State) (n : Nat) (f : Context → Context) : (s.modContext n f).fstep = s.fstep := rfl
@[simp] theorem modContext_fstepPend (s : State) (n : Nat) (f : Context → Context) : (s.modContext n f).fstepPend = s.fstepPend := rfl
@[simp] theorem modContext_fstepHeld (s : State) (n : Nat) (f : Context → Context) : (s.modContext n f).fstepHeld = s.fstepHeld := rfl
@[simp] theorem modContext_pwrLimit (s : State) (n : Nat) (f : Context → Context) : (s.modContext n f).pwrLimit = s.pwrLimit := rfl
@[simp] theorem modContext_pwrMeas (s : State) (n : Nat) (f : Context → Context) : (s.modContext n f).pwrMeas = s.pwrMeas := rfl
@[simp] theorem modContext_pwrTemp (s : State) (n : Nat) (f : Context → Context) : (s.modContext n f).pwrTemp = s.pwrTemp := rfl
@[simp] theorem modContext_powerAt (s : State) (n : Nat) (f : Context → Context) : (s.modContext n f).powerAt = s.powerAt := rfl
@[simp] theorem modContext_powered (s : State) (n : Nat) (f : Context → Context) : (s.modContext n f).powered = s.powered := rfl
@[simp] theorem modContext_keys (s : State) (n : Nat) (f : Context → Context) : (s.modContext n f).keys = s.keys := rfl
@[simp] theorem modContext_keyCmd (s : State) (n : Nat) (f : Context → Context) : (s.modContext n f).keyCmd = s.keyCmd := rfl
@[simp] theorem modContext_keyBusy (s : State) (n : Nat) (f : Context → Context) : (s.modContext n f).keyBusy = s.keyBusy := rfl
@[simp] theorem modContext_keyErr (s : State) (n : Nat) (f : Context → Context) : (s.modContext n f).keyErr = s.keyErr := rfl
@[simp] theorem modContext_unitKeys (s : State) (n : Nat) (f : Context → Context) : (s.modContext n f).unitKeys = s.unitKeys := rfl
@[simp] theorem modContext_bootStage (s : State) (n : Nat) (f : Context → Context) : (s.modContext n f).bootStage = s.bootStage := rfl
@[simp] theorem modContext_bootFail (s : State) (n : Nat) (f : Context → Context) : (s.modContext n f).bootFail = s.bootFail := rfl
@[simp] theorem modContext_measurement (s : State) (n : Nat) (f : Context → Context) : (s.modContext n f).measurement = s.measurement := rfl
@[simp] theorem modContext_report (s : State) (n : Nat) (f : Context → Context) : (s.modContext n f).report = s.report := rfl
@[simp] theorem modContext_dbgUnlocked (s : State) (n : Nat) (f : Context → Context) : (s.modContext n f).dbgUnlocked = s.dbgUnlocked := rfl
@[simp] theorem modContext_challenge (s : State) (n : Nat) (f : Context → Context) : (s.modContext n f).challenge = s.challenge := rfl
@[simp] theorem modContext_traceSink (s : State) (n : Nat) (f : Context → Context) : (s.modContext n f).traceSink = s.traceSink := rfl
@[simp] theorem modContext_recorder (s : State) (n : Nat) (f : Context → Context) : (s.modContext n f).recorder = s.recorder := rfl
@[simp] theorem modContext_frSeq (s : State) (n : Nat) (f : Context → Context) : (s.modContext n f).frSeq = s.frSeq := rfl
@[simp] theorem modContext_fabricId (s : State) (n : Nat) (f : Context → Context) : (s.modContext n f).fabricId = s.fabricId := rfl
@[simp] theorem modContext_links (s : State) (n : Nat) (f : Context → Context) : (s.modContext n f).links = s.links := rfl
@[simp] theorem modContext_fabReqs (s : State) (n : Nat) (f : Context → Context) : (s.modContext n f).fabReqs = s.fabReqs := rfl
@[simp] theorem modContext_fabTags (s : State) (n : Nat) (f : Context → Context) : (s.modContext n f).fabTags = s.fabTags := rfl
@[simp] theorem modContext_fabDone (s : State) (n : Nat) (f : Context → Context) : (s.modContext n f).fabDone = s.fabDone := rfl
@[simp] theorem modContext_homeReqs (s : State) (n : Nat) (f : Context → Context) : (s.modContext n f).homeReqs = s.homeReqs := rfl
@[simp] theorem modContext_fabOut (s : State) (n : Nat) (f : Context → Context) : (s.modContext n f).fabOut = s.fabOut := rfl
@[simp] theorem modContext_xfers (s : State) (n : Nat) (f : Context → Context) : (s.modContext n f).xfers = s.xfers := rfl
@[simp] theorem modContext_gangs (s : State) (n : Nat) (f : Context → Context) : (s.modContext n f).gangs = s.gangs := rfl
@[simp] theorem modContext_gangCount (s : State) (n : Nat) (f : Context → Context) : (s.modContext n f).gangCount = s.gangCount := rfl
@[simp] theorem modContext_prepared (s : State) (n : Nat) (f : Context → Context) : (s.modContext n f).prepared = s.prepared := rfl

@[simp] theorem tick_agenda (s : State) : (s.tick).agenda = s.agenda := rfl
@[simp] theorem tick_cur (s : State) : (s.tick).cur = s.cur := rfl
@[simp] theorem tick_ir (s : State) : (s.tick).ir = s.ir := rfl
@[simp] theorem tick_cycle (s : State) : (s.tick).cycle = s.cycle := rfl
@[simp] theorem tick_turned (s : State) : (s.tick).turned = s.turned := rfl
@[simp] theorem tick_fresh (s : State) : (s.tick).fresh = s.fresh := rfl
@[simp] theorem tick_beat (s : State) : (s.tick).beat = s.beat := rfl
@[simp] theorem tick_mem (s : State) : (s.tick).mem = s.mem := rfl
@[simp] theorem tick_feFlips (s : State) : (s.tick).feFlips = s.feFlips := rfl
@[simp] theorem tick_eccBad (s : State) : (s.tick).eccBad = s.eccBad := rfl
@[simp] theorem tick_eccCache (s : State) : (s.tick).eccCache = s.eccCache := rfl
@[simp] theorem tick_eccSoft (s : State) : (s.tick).eccSoft = s.eccSoft := rfl
@[simp] theorem tick_cores (s : State) : (s.tick).cores = s.cores := rfl
@[simp] theorem tick_clusters (s : State) : (s.tick).clusters = s.clusters := rfl
@[simp] theorem tick_xlat (s : State) : (s.tick).xlat = s.xlat := rfl
@[simp] theorem tick_dies (s : State) : (s.tick).dies = s.dies := rfl
@[simp] theorem tick_flights (s : State) : (s.tick).flights = s.flights := rfl
@[simp] theorem tick_queues (s : State) : (s.tick).queues = s.queues := rfl
@[simp] theorem tick_holds (s : State) : (s.tick).holds = s.holds := rfl
@[simp] theorem tick_savedWaits (s : State) : (s.tick).savedWaits = s.savedWaits := rfl
@[simp] theorem tick_barMsgs (s : State) : (s.tick).barMsgs = s.barMsgs := rfl
@[simp] theorem tick_packets (s : State) : (s.tick).packets = s.packets := rfl
@[simp] theorem tick_ctxBase (s : State) : (s.tick).ctxBase = s.ctxBase := rfl
@[simp] theorem tick_ctxActBusy (s : State) : (s.tick).ctxActBusy = s.ctxActBusy := rfl
@[simp] theorem tick_ctxActStatus (s : State) : (s.tick).ctxActStatus = s.ctxActStatus := rfl
@[simp] theorem tick_contexts (s : State) : (s.tick).contexts = s.contexts := rfl
@[simp] theorem tick_launchCounts (s : State) : (s.tick).launchCounts = s.launchCounts := rfl
@[simp] theorem tick_posted (s : State) : (s.tick).posted = s.posted := rfl
@[simp] theorem tick_launches (s : State) : (s.tick).launches = s.launches := rfl
@[simp] theorem tick_bands (s : State) : (s.tick).bands = s.bands := rfl
@[simp] theorem tick_faultWait (s : State) : (s.tick).faultWait = s.faultWait := rfl
@[simp] theorem tick_traceWait (s : State) : (s.tick).traceWait = s.traceWait := rfl
@[simp] theorem tick_adminLog (s : State) : (s.tick).adminLog = s.adminLog := rfl
@[simp] theorem tick_feReports (s : State) : (s.tick).feReports = s.feReports := rfl
@[simp] theorem tick_savedArray (s : State) : (s.tick).savedArray = s.savedArray := rfl
@[simp] theorem tick_postStat (s : State) : (s.tick).postStat = s.postStat := rfl
@[simp] theorem tick_hostRead (s : State) : (s.tick).hostRead = s.hostRead := rfl
@[simp] theorem tick_hostWrites (s : State) : (s.tick).hostWrites = s.hostWrites := rfl
@[simp] theorem tick_msix (s : State) : (s.tick).msix = s.msix := rfl
@[simp] theorem tick_msixMap (s : State) : (s.tick).msixMap = s.msixMap := rfl
@[simp] theorem tick_mailbox (s : State) : (s.tick).mailbox = s.mailbox := rfl
@[simp] theorem tick_apertureSize (s : State) : (s.tick).apertureSize = s.apertureSize := rfl
@[simp] theorem tick_aperture (s : State) : (s.tick).aperture = s.aperture := rfl
@[simp] theorem tick_fstep (s : State) : (s.tick).fstep = s.fstep := rfl
@[simp] theorem tick_fstepPend (s : State) : (s.tick).fstepPend = s.fstepPend := rfl
@[simp] theorem tick_fstepHeld (s : State) : (s.tick).fstepHeld = s.fstepHeld := rfl
@[simp] theorem tick_pwrLimit (s : State) : (s.tick).pwrLimit = s.pwrLimit := rfl
@[simp] theorem tick_pwrMeas (s : State) : (s.tick).pwrMeas = s.pwrMeas := rfl
@[simp] theorem tick_pwrTemp (s : State) : (s.tick).pwrTemp = s.pwrTemp := rfl
@[simp] theorem tick_powerAt (s : State) : (s.tick).powerAt = s.powerAt := rfl
@[simp] theorem tick_powered (s : State) : (s.tick).powered = s.powered := rfl
@[simp] theorem tick_keys (s : State) : (s.tick).keys = s.keys := rfl
@[simp] theorem tick_keyCmd (s : State) : (s.tick).keyCmd = s.keyCmd := rfl
@[simp] theorem tick_keyBusy (s : State) : (s.tick).keyBusy = s.keyBusy := rfl
@[simp] theorem tick_keyErr (s : State) : (s.tick).keyErr = s.keyErr := rfl
@[simp] theorem tick_unitKeys (s : State) : (s.tick).unitKeys = s.unitKeys := rfl
@[simp] theorem tick_bootStage (s : State) : (s.tick).bootStage = s.bootStage := rfl
@[simp] theorem tick_bootFail (s : State) : (s.tick).bootFail = s.bootFail := rfl
@[simp] theorem tick_measurement (s : State) : (s.tick).measurement = s.measurement := rfl
@[simp] theorem tick_report (s : State) : (s.tick).report = s.report := rfl
@[simp] theorem tick_dbgUnlocked (s : State) : (s.tick).dbgUnlocked = s.dbgUnlocked := rfl
@[simp] theorem tick_challenge (s : State) : (s.tick).challenge = s.challenge := rfl
@[simp] theorem tick_traceSink (s : State) : (s.tick).traceSink = s.traceSink := rfl
@[simp] theorem tick_recorder (s : State) : (s.tick).recorder = s.recorder := rfl
@[simp] theorem tick_frSeq (s : State) : (s.tick).frSeq = s.frSeq := rfl
@[simp] theorem tick_fabricId (s : State) : (s.tick).fabricId = s.fabricId := rfl
@[simp] theorem tick_links (s : State) : (s.tick).links = s.links := rfl
@[simp] theorem tick_fabReqs (s : State) : (s.tick).fabReqs = s.fabReqs := rfl
@[simp] theorem tick_fabTags (s : State) : (s.tick).fabTags = s.fabTags := rfl
@[simp] theorem tick_fabDone (s : State) : (s.tick).fabDone = s.fabDone := rfl
@[simp] theorem tick_homeReqs (s : State) : (s.tick).homeReqs = s.homeReqs := rfl
@[simp] theorem tick_fabOut (s : State) : (s.tick).fabOut = s.fabOut := rfl
@[simp] theorem tick_xfers (s : State) : (s.tick).xfers = s.xfers := rfl
@[simp] theorem tick_gangs (s : State) : (s.tick).gangs = s.gangs := rfl
@[simp] theorem tick_gangCount (s : State) : (s.tick).gangCount = s.gangCount := rfl
@[simp] theorem tick_prepared (s : State) : (s.tick).prepared = s.prepared := rfl

@[simp] theorem writeByte_agenda (s : State) (k : Nat) (b : Byte) : (s.writeByte k b).agenda = s.agenda := rfl
@[simp] theorem writeByte_cur (s : State) (k : Nat) (b : Byte) : (s.writeByte k b).cur = s.cur := rfl
@[simp] theorem writeByte_ir (s : State) (k : Nat) (b : Byte) : (s.writeByte k b).ir = s.ir := rfl
@[simp] theorem writeByte_cycle (s : State) (k : Nat) (b : Byte) : (s.writeByte k b).cycle = s.cycle := rfl
@[simp] theorem writeByte_turned (s : State) (k : Nat) (b : Byte) : (s.writeByte k b).turned = s.turned := rfl
@[simp] theorem writeByte_serial (s : State) (k : Nat) (b : Byte) : (s.writeByte k b).serial = s.serial := rfl
@[simp] theorem writeByte_fresh (s : State) (k : Nat) (b : Byte) : (s.writeByte k b).fresh = s.fresh := rfl
@[simp] theorem writeByte_beat (s : State) (k : Nat) (b : Byte) : (s.writeByte k b).beat = s.beat := rfl
@[simp] theorem writeByte_feFlips (s : State) (k : Nat) (b : Byte) : (s.writeByte k b).feFlips = s.feFlips := rfl
@[simp] theorem writeByte_eccBad (s : State) (k : Nat) (b : Byte) : (s.writeByte k b).eccBad = s.eccBad := rfl
@[simp] theorem writeByte_eccCache (s : State) (k : Nat) (b : Byte) : (s.writeByte k b).eccCache = s.eccCache := rfl
@[simp] theorem writeByte_eccSoft (s : State) (k : Nat) (b : Byte) : (s.writeByte k b).eccSoft = s.eccSoft := rfl
@[simp] theorem writeByte_cores (s : State) (k : Nat) (b : Byte) : (s.writeByte k b).cores = s.cores := rfl
@[simp] theorem writeByte_clusters (s : State) (k : Nat) (b : Byte) : (s.writeByte k b).clusters = s.clusters := rfl
@[simp] theorem writeByte_xlat (s : State) (k : Nat) (b : Byte) : (s.writeByte k b).xlat = s.xlat := rfl
@[simp] theorem writeByte_dies (s : State) (k : Nat) (b : Byte) : (s.writeByte k b).dies = s.dies := rfl
@[simp] theorem writeByte_flights (s : State) (k : Nat) (b : Byte) : (s.writeByte k b).flights = s.flights := rfl
@[simp] theorem writeByte_queues (s : State) (k : Nat) (b : Byte) : (s.writeByte k b).queues = s.queues := rfl
@[simp] theorem writeByte_holds (s : State) (k : Nat) (b : Byte) : (s.writeByte k b).holds = s.holds := rfl
@[simp] theorem writeByte_savedWaits (s : State) (k : Nat) (b : Byte) : (s.writeByte k b).savedWaits = s.savedWaits := rfl
@[simp] theorem writeByte_barMsgs (s : State) (k : Nat) (b : Byte) : (s.writeByte k b).barMsgs = s.barMsgs := rfl
@[simp] theorem writeByte_packets (s : State) (k : Nat) (b : Byte) : (s.writeByte k b).packets = s.packets := rfl
@[simp] theorem writeByte_ctxBase (s : State) (k : Nat) (b : Byte) : (s.writeByte k b).ctxBase = s.ctxBase := rfl
@[simp] theorem writeByte_ctxActBusy (s : State) (k : Nat) (b : Byte) : (s.writeByte k b).ctxActBusy = s.ctxActBusy := rfl
@[simp] theorem writeByte_ctxActStatus (s : State) (k : Nat) (b : Byte) : (s.writeByte k b).ctxActStatus = s.ctxActStatus := rfl
@[simp] theorem writeByte_contexts (s : State) (k : Nat) (b : Byte) : (s.writeByte k b).contexts = s.contexts := rfl
@[simp] theorem writeByte_launchCounts (s : State) (k : Nat) (b : Byte) : (s.writeByte k b).launchCounts = s.launchCounts := rfl
@[simp] theorem writeByte_posted (s : State) (k : Nat) (b : Byte) : (s.writeByte k b).posted = s.posted := rfl
@[simp] theorem writeByte_launches (s : State) (k : Nat) (b : Byte) : (s.writeByte k b).launches = s.launches := rfl
@[simp] theorem writeByte_bands (s : State) (k : Nat) (b : Byte) : (s.writeByte k b).bands = s.bands := rfl
@[simp] theorem writeByte_faultWait (s : State) (k : Nat) (b : Byte) : (s.writeByte k b).faultWait = s.faultWait := rfl
@[simp] theorem writeByte_traceWait (s : State) (k : Nat) (b : Byte) : (s.writeByte k b).traceWait = s.traceWait := rfl
@[simp] theorem writeByte_adminLog (s : State) (k : Nat) (b : Byte) : (s.writeByte k b).adminLog = s.adminLog := rfl
@[simp] theorem writeByte_feReports (s : State) (k : Nat) (b : Byte) : (s.writeByte k b).feReports = s.feReports := rfl
@[simp] theorem writeByte_savedArray (s : State) (k : Nat) (b : Byte) : (s.writeByte k b).savedArray = s.savedArray := rfl
@[simp] theorem writeByte_postStat (s : State) (k : Nat) (b : Byte) : (s.writeByte k b).postStat = s.postStat := rfl
@[simp] theorem writeByte_hostRead (s : State) (k : Nat) (b : Byte) : (s.writeByte k b).hostRead = s.hostRead := rfl
@[simp] theorem writeByte_hostWrites (s : State) (k : Nat) (b : Byte) : (s.writeByte k b).hostWrites = s.hostWrites := rfl
@[simp] theorem writeByte_msix (s : State) (k : Nat) (b : Byte) : (s.writeByte k b).msix = s.msix := rfl
@[simp] theorem writeByte_msixMap (s : State) (k : Nat) (b : Byte) : (s.writeByte k b).msixMap = s.msixMap := rfl
@[simp] theorem writeByte_mailbox (s : State) (k : Nat) (b : Byte) : (s.writeByte k b).mailbox = s.mailbox := rfl
@[simp] theorem writeByte_apertureSize (s : State) (k : Nat) (b : Byte) : (s.writeByte k b).apertureSize = s.apertureSize := rfl
@[simp] theorem writeByte_aperture (s : State) (k : Nat) (b : Byte) : (s.writeByte k b).aperture = s.aperture := rfl
@[simp] theorem writeByte_fstep (s : State) (k : Nat) (b : Byte) : (s.writeByte k b).fstep = s.fstep := rfl
@[simp] theorem writeByte_fstepPend (s : State) (k : Nat) (b : Byte) : (s.writeByte k b).fstepPend = s.fstepPend := rfl
@[simp] theorem writeByte_fstepHeld (s : State) (k : Nat) (b : Byte) : (s.writeByte k b).fstepHeld = s.fstepHeld := rfl
@[simp] theorem writeByte_pwrLimit (s : State) (k : Nat) (b : Byte) : (s.writeByte k b).pwrLimit = s.pwrLimit := rfl
@[simp] theorem writeByte_pwrMeas (s : State) (k : Nat) (b : Byte) : (s.writeByte k b).pwrMeas = s.pwrMeas := rfl
@[simp] theorem writeByte_pwrTemp (s : State) (k : Nat) (b : Byte) : (s.writeByte k b).pwrTemp = s.pwrTemp := rfl
@[simp] theorem writeByte_powerAt (s : State) (k : Nat) (b : Byte) : (s.writeByte k b).powerAt = s.powerAt := rfl
@[simp] theorem writeByte_powered (s : State) (k : Nat) (b : Byte) : (s.writeByte k b).powered = s.powered := rfl
@[simp] theorem writeByte_keys (s : State) (k : Nat) (b : Byte) : (s.writeByte k b).keys = s.keys := rfl
@[simp] theorem writeByte_keyCmd (s : State) (k : Nat) (b : Byte) : (s.writeByte k b).keyCmd = s.keyCmd := rfl
@[simp] theorem writeByte_keyBusy (s : State) (k : Nat) (b : Byte) : (s.writeByte k b).keyBusy = s.keyBusy := rfl
@[simp] theorem writeByte_keyErr (s : State) (k : Nat) (b : Byte) : (s.writeByte k b).keyErr = s.keyErr := rfl
@[simp] theorem writeByte_unitKeys (s : State) (k : Nat) (b : Byte) : (s.writeByte k b).unitKeys = s.unitKeys := rfl
@[simp] theorem writeByte_bootStage (s : State) (k : Nat) (b : Byte) : (s.writeByte k b).bootStage = s.bootStage := rfl
@[simp] theorem writeByte_bootFail (s : State) (k : Nat) (b : Byte) : (s.writeByte k b).bootFail = s.bootFail := rfl
@[simp] theorem writeByte_measurement (s : State) (k : Nat) (b : Byte) : (s.writeByte k b).measurement = s.measurement := rfl
@[simp] theorem writeByte_report (s : State) (k : Nat) (b : Byte) : (s.writeByte k b).report = s.report := rfl
@[simp] theorem writeByte_dbgUnlocked (s : State) (k : Nat) (b : Byte) : (s.writeByte k b).dbgUnlocked = s.dbgUnlocked := rfl
@[simp] theorem writeByte_challenge (s : State) (k : Nat) (b : Byte) : (s.writeByte k b).challenge = s.challenge := rfl
@[simp] theorem writeByte_traceSink (s : State) (k : Nat) (b : Byte) : (s.writeByte k b).traceSink = s.traceSink := rfl
@[simp] theorem writeByte_recorder (s : State) (k : Nat) (b : Byte) : (s.writeByte k b).recorder = s.recorder := rfl
@[simp] theorem writeByte_frSeq (s : State) (k : Nat) (b : Byte) : (s.writeByte k b).frSeq = s.frSeq := rfl
@[simp] theorem writeByte_fabricId (s : State) (k : Nat) (b : Byte) : (s.writeByte k b).fabricId = s.fabricId := rfl
@[simp] theorem writeByte_links (s : State) (k : Nat) (b : Byte) : (s.writeByte k b).links = s.links := rfl
@[simp] theorem writeByte_fabReqs (s : State) (k : Nat) (b : Byte) : (s.writeByte k b).fabReqs = s.fabReqs := rfl
@[simp] theorem writeByte_fabTags (s : State) (k : Nat) (b : Byte) : (s.writeByte k b).fabTags = s.fabTags := rfl
@[simp] theorem writeByte_fabDone (s : State) (k : Nat) (b : Byte) : (s.writeByte k b).fabDone = s.fabDone := rfl
@[simp] theorem writeByte_homeReqs (s : State) (k : Nat) (b : Byte) : (s.writeByte k b).homeReqs = s.homeReqs := rfl
@[simp] theorem writeByte_fabOut (s : State) (k : Nat) (b : Byte) : (s.writeByte k b).fabOut = s.fabOut := rfl
@[simp] theorem writeByte_xfers (s : State) (k : Nat) (b : Byte) : (s.writeByte k b).xfers = s.xfers := rfl
@[simp] theorem writeByte_gangs (s : State) (k : Nat) (b : Byte) : (s.writeByte k b).gangs = s.gangs := rfl
@[simp] theorem writeByte_gangCount (s : State) (k : Nat) (b : Byte) : (s.writeByte k b).gangCount = s.gangCount := rfl
@[simp] theorem writeByte_prepared (s : State) (k : Nat) (b : Byte) : (s.writeByte k b).prepared = s.prepared := rfl

/-! ## Cores, slots and threads -/

@[simp] theorem core_setCore_self (s : State) (n : Nat) (c : Core) : (s.setCore n c).core n = c :=
  lookupD_insertKey_self ..

theorem core_setCore_ne (s : State) {n k : Nat} (c : Core) (h : k ≠ n) : (s.setCore n c).core k = s.core k :=
  lookupD_insertKey_ne _ _ _ h

@[simp] theorem core_modCore_self (s : State) (n : Nat) (f : Core → Core) : (s.modCore n f).core n = f (s.core n) :=
  core_setCore_self ..

theorem core_modCore_ne (s : State) {n k : Nat} (f : Core → Core) (h : k ≠ n) : (s.modCore n f).core k = s.core k :=
  core_setCore_ne _ _ h

/-- Two changes of one core are one. -/
@[simp] theorem modCore_modCore_self (s : State) (n : Nat) (f g : Core → Core) :
    (s.modCore n f).modCore n g = s.modCore n fun c => g (f c) := by
  have h : (s.modCore n f).modCore n g = { s with cores := insertKey (insertKey s.cores n (f (s.core n))) n (g ((s.modCore n f).core n)) } := rfl
  rw [h, insertKey_insertKey_self, core_modCore_self]; rfl

/-- A slot outside the eight of a core holds nothing. -/
theorem slot_of_ge (s : State) {r : ThreadRef} (h : 8 ≤ r.slot) : s.slot r = Slot.blank := by
  simp [slot, Vector.getElem?_eq_none h]

/-- A thread stands in one of the eight slots. -/
theorem slot_lt_of_thread? {s : State} {r : ThreadRef} {th : Thread} (h : s.thread? r = some th) : r.slot < 8 := by
  by_cases hr : r.slot < 8
  · exact hr
  · simp [thread?, slot_of_ge s (by omega : 8 ≤ r.slot), Slot.blank] at h

/-- The slot changed. -/
theorem slot_modSlot_self (s : State) {r : ThreadRef} (f : Slot → Slot) (h : r.slot < 8) :
    (s.modSlot r f).slot r = f (s.slot r) := by
  simp [slot, modSlot, h]

/-- Every other slot is as it was. -/
theorem slot_modSlot_ne (s : State) {r q : ThreadRef} (f : Slot → Slot) (h : q ≠ r) : (s.modSlot r f).slot q = s.slot q := by
  by_cases hc : q.core = r.core
  · have hs : r.slot ≠ q.slot := fun e => h (by cases q; cases r; simp_all)
    simp [slot, modSlot, hc, hs]
  · simp [slot, modSlot, core_modCore_ne _ _ hc]

/-- The last replacement of a thread stands. -/
@[simp] theorem setThread_setThread_self (s : State) (r : ThreadRef) (a b : Thread) :
    (s.setThread r a).setThread r b = s.setThread r b := by
  simp only [setThread, modSlot, modCore_modCore_self]
  congr 1; funext c
  congr 1
  apply Vector.ext; intro i h
  by_cases e : r.slot = i
  · subst e; simp [h]
  · simp [e]

/-- A present thread changed after it was replaced. -/
@[simp] theorem modThread_setThread_self {s : State} {r : ThreadRef} (h : r.slot < 8) (a : Thread) (f : Thread → Thread) :
    (s.setThread r a).modThread r f = s.setThread r (f a) := by
  have e : (s.setThread r a).thread? r = some a := by
    simp [thread?, setThread, slot_modSlot_self _ _ h]
  rw [modThread, e]; exact setThread_setThread_self ..

@[simp] theorem thread?_setThread_self (s : State) {r : ThreadRef} (th : Thread) (h : r.slot < 8) :
    (s.setThread r th).thread? r = some th := by
  simp [thread?, setThread, slot_modSlot_self _ _ h]

theorem thread?_setThread_ne (s : State) {r q : ThreadRef} (th : Thread) (h : q ≠ r) :
    (s.setThread r th).thread? q = s.thread? q := by
  simp [thread?, setThread, slot_modSlot_ne _ _ h]

/-- A core whose slots stay as they are. -/
theorem slot_modCore_slots (s : State) (n : Nat) (g : Core → Core) (h : (g (s.core n)).slots = (s.core n).slots)
    (q : ThreadRef) : (s.modCore n g).slot q = s.slot q := by
  by_cases e : q.core = n
  · simp [slot, e, h]
  · simp [slot, core_modCore_ne _ _ e]

/-- A slot after its thread has left: only its thread and its use are another. -/
theorem slot_dropThread (s : State) (r q : ThreadRef) : (s.dropThread r).slot q = (s.vacate r).slot q := by
  rw [dropThread]
  exact slot_modCore_slots _ _ _ (by split <;> rfl) q

@[simp] theorem thread?_dropThread_self (s : State) (r : ThreadRef) : (s.dropThread r).thread? r = none := by
  by_cases h : r.slot < 8
  · simp [thread?, slot_dropThread, vacate, slot_modSlot_self _ _ h]
  · simp [thread?, slot_of_ge _ (by omega : 8 ≤ r.slot), Slot.blank]

theorem thread?_dropThread_ne (s : State) {r q : ThreadRef} (h : q ≠ r) : (s.dropThread r).thread? q = s.thread? q := by
  simp [thread?, slot_dropThread, vacate, slot_modSlot_ne _ _ h]

/-- A thread that is there, changed. -/
theorem modThread_of_some {s : State} {r : ThreadRef} {th : Thread} (h : s.thread? r = some th) (f : Thread → Thread) :
    s.modThread r f = s.setThread r (f th) := by
  simp [modThread, h]

theorem thread?_modThread_self {s : State} {r : ThreadRef} {th : Thread} (h : s.thread? r = some th) (f : Thread → Thread) :
    (s.modThread r f).thread? r = some (f th) := by
  rw [modThread_of_some h, thread?_setThread_self _ _ (slot_lt_of_thread? h)]

theorem thread?_modThread_ne (s : State) {r q : ThreadRef} (f : Thread → Thread) (h : q ≠ r) :
    (s.modThread r f).thread? q = s.thread? q := by
  simp only [modThread]; split
  · exact thread?_setThread_ne _ _ h
  · rfl

/-- A change of a thread changes cores alone. -/
theorem modThread_eq (s : State) (r : ThreadRef) (f : Thread → Thread) :
    s.modThread r f = { s with cores := (s.modThread r f).cores } := by
  simp only [modThread]; split <;> rfl

/-- The last replacement of a thread stands. -/
theorem thread?_modThread_setThread (s : State) {r : ThreadRef} (th : Thread) (f : Thread → Thread) (h : r.slot < 8) :
    ((s.setThread r th).modThread r f).thread? r = some (f th) :=
  thread?_modThread_self (thread?_setThread_self s th h) f

end Sys2Proof.Machine.State
end

