-- ==== Sys2Proof/Laws/Issue.lean ====
section
/-! SUPPORT. Everything that issuing an instruction can do: when it executes, what the start of it changes, and what an
instruction that acts on its own thread leaves alone. -/

namespace Sys2Proof

open Machine

/-! ## When an instruction executes -/

/-- The conditions of R39 are those under which the gate lets an instruction through. -/
theorem gate_of_ready {m : Meta} {p : Pred} {s : State} {th : Thread} (h : Ready m p s th) :
    gate m p s s.cur th = .go := by
  have h1 : (m.notMast && roleOf s.cur.core == .masthead) = false := by
    cases hm : m.notMast <;> simp ; exact h.onCore hm
  have h2 : (m.inTrap && th.mode != .trap) = false := by
    cases hm : m.inTrap <;> simp ; exact h.inTrap hm
  have h3 : (m.priv && !th.privileged) = false := by
    cases hm : m.priv <;> simp ; exact h.control hm
  have h4 : (m.trapOnly && th.mode != .trap) = false := by
    cases hm : m.trapOnly <;> simp ; exact h.trapMode hm
  have h6 : (!m.masked && !predHolds p th) = false := by
    rcases h.pred with x | x <;> simp [x]
  have h7 : (m.window && decide (4 ≤ th.outstanding)) = false := by
    cases hm : m.window <;> simp ; exact h.room hm
  have h8 : (m.rd.contains 30 && !m.noPort && th.inEn
      && (match th.inq with | w :: _ => decide (s.beat < w.avail) | [] => true)) = false := by
    by_cases a : 30 ∈ m.rd <;> cases b : m.noPort <;> cases c : th.inEn <;> simp [a]
    obtain ⟨w, r, e, hw⟩ := h.inbound a b c
    simp [e, hw]
  have h9 : (m.wr.contains 31 && th.outEn && decide (8 ≤ th.outq.length + th.bound31)) = false := by
    by_cases a : 31 ∈ m.wr <;> cases c : th.outEn <;> simp [a]
    exact h.outbound a c
  simp only [gate, h.live, h.inTime, h1, h2, h3, h4, h.clear, h6, h7, h9, Bool.not_true, Bool.or_self,
    Bool.false_eq_true, if_false]
  exact if_neg (by rw [Bool.not_eq_true]; exact h8)

/-- An instruction that is ready runs its body on the begun state. -/
theorem issue_of_ready {m : Meta} {p : Pred} {s : State} {th : Thread} (h : Ready m p s th) (body : State → Thread → Res) :
    issue m p s body = .next (finish m s s.cur th (body (begun m s th) (th.begin_ m.occ))) := by
  simp only [issue, h.here, gate_of_ready h, begun]

/-! ## What is left alone -/

namespace Elsewhere

theorem refl (s : State) : Elsewhere s s := ⟨rfl, rfl, fun _ => rfl, fun _ => rfl, fun _ _ => rfl⟩

theorem trans {s t u : State} (a : Elsewhere s t) (b : Elsewhere t u) : Elsewhere s u := by
  have hc : t.cur = s.cur := by rw [a.rest]
  refine ⟨?_, b.bands.trans a.bands, fun n => (b.core n).trans (a.core n), fun r => (b.slot r).trans (a.slot r), fun r h => ?_⟩
  · rw [b.rest, a.rest]
  · exact (b.thread r (by rwa [hc])).trans (a.thread r h)

/-- A core whose threads and channel history alone are changed. -/
theorem of_modCore (s : State) (n : Nat) (f : Core → Core) (still : (f (s.core n)).still = (s.core n).still)
    (slots : (f (s.core n)).slots = (s.core n).slots) : Elsewhere s (s.modCore n f) := by
  have hs : ∀ r, (s.modCore n f).slot r = s.slot r := by
    intro r
    by_cases h : r.core = n
    · simp [State.slot, h, slots]
    · simp [State.slot, State.core_modCore_ne _ _ h]
  refine ⟨rfl, rfl, fun k => ?_, fun r => by rw [hs], fun r _ => by simp [State.thread?, hs]⟩
  by_cases h : k = n
  · simp [h, still]
  · rw [State.core_modCore_ne _ _ h]

/-- A thread replaced, in the present slot or by one that differs in the words heard. -/
theorem setThread (s : State) (r : ThreadRef) (th : Thread)
    (h : r ≠ s.cur → (s.thread? r).map Thread.deaf = some th.deaf) : Elsewhere s (s.setThread r th) := by
  refine ⟨rfl, rfl, fun n => ?_, fun q => ?_, fun q hq => ?_⟩
  · by_cases hn : n = r.core
    · subst hn; simp [State.setThread, State.modSlot, Core.still]
    · simp only [State.setThread, State.modSlot, State.core_modCore_ne _ _ hn]
  · by_cases hq : q = r
    · subst hq
      by_cases h8 : q.slot < 8
      · simp [State.setThread, State.slot_modSlot_self _ _ h8, Slot.bare]
      · simp [State.slot_of_ge _ (by omega : 8 ≤ q.slot)]
    · simp only [State.setThread, State.slot_modSlot_ne _ _ hq]
  · by_cases hr : q = r
    · subst hr
      have h1 := h hq
      by_cases h8 : q.slot < 8
      · rw [State.thread?_setThread_self _ _ h8, h1]; rfl
      · simp [State.thread?, State.slot_of_ge _ (by omega : 8 ≤ q.slot), Slot.blank] at h1
    · rw [State.thread?_setThread_ne _ _ hr]

theorem modThread_cur (s : State) (f : Thread → Thread) : Elsewhere s (s.modThread s.cur f) := by
  simp only [State.modThread]; split
  · exact setThread _ _ _ (fun h => absurd rfl h)
  · exact refl s

/-- A word that reaches a member (R162). -/
theorem modThread_heard (s : State) (r : ThreadRef) (f : Thread → Thread) (h : ∀ x, (f x).deaf = x.deaf) :
    Elsewhere s (s.modThread r f) := by
  simp only [State.modThread]; split
  · rename_i th e; exact setThread _ _ _ (fun _ => by rw [e]; exact congrArg some (h th).symm)
  · exact refl s

end Elsewhere

/-! ## The start of an instruction -/

theorem foldl_heard (ms : List ThreadRef) (f : Thread → Thread) (h : ∀ x, (f x).deaf = x.deaf) (s : State) :
    Elsewhere s (ms.foldl (fun a r => a.modThread r f) s) := by
  induction ms generalizing s with
  | nil => exact .refl s
  | cons r rs ih => exact (Elsewhere.modThread_heard s r f h).trans (ih _)

/-- Publishing a word reaches members alone (R160, R162). -/
theorem publish_elsewhere (s : State) (r : ThreadRef) (th : Thread) (pc : Word) : Elsewhere s (s.publish r th pc) := by
  simp only [State.publish]; split
  · split
    · exact .refl s
    · rename_i b hb
      refine (Elsewhere.of_modCore s r.core _ ?_ ?_).trans (foldl_heard _ _ ?_ _)
      · simp [Core.still, hb]
      · rfl
      · exact fun _ => rfl
  · exact .refl s

theorem map_modFirst_still (p : Band → Bool) (l : List Band) (f : Band → Band) (h : ∀ b, (f b).still = b.still) :
    (modFirst p f l).map Band.still = l.map Band.still := by
  induction l with
  | nil => rfl
  | cons b r ih => simp only [modFirst]; split <;> simp [h, ih]

/-- An effect in a region is noted in the band alone (R308). -/
theorem effectOut_elsewhere (s : State) (th : Thread) : Elsewhere s (s.effectOut th) := by
  simp only [State.effectOut]; split
  · exact ⟨rfl, map_modFirst_still _ _ _ fun _ => rfl, fun _ => rfl, fun _ => rfl, fun _ _ => rfl⟩
  · exact .refl s

theorem effectOut_cores (s : State) (th : Thread) : (s.effectOut th).cores = s.cores := by
  simp only [State.effectOut]; split <;> rfl

theorem effectOut_bands_congr {s t : State} (h : t.bands = s.bands) (th : Thread) :
    (t.effectOut th).bands = (s.effectOut th).bands := by
  simp only [State.effectOut]; split
  · simp only [State.modBand, h]
  · exact h

theorem effectOut_thread? (s : State) (th : Thread) (q : ThreadRef) : (s.effectOut th).thread? q = s.thread? q := by
  simp only [State.thread?, State.slot, State.core, effectOut_cores]

theorem foldl_bands (ms : List ThreadRef) (f : Thread → Thread) (s : State) :
    (ms.foldl (fun a r => a.modThread r f) s).bands = s.bands := by
  induction ms generalizing s with
  | nil => rfl
  | cons r rs ih => rw [List.foldl_cons, ih]; simp only [State.modThread]; split <;> rfl

theorem publish_bands (s : State) (r : ThreadRef) (th : Thread) (pc : Word) : (s.publish r th pc).bands = s.bands := by
  simp only [State.publish]; split
  · split
    · rfl
    · exact foldl_bands _ _ _
  · rfl

/-- The start of an instruction leaves everything else alone. -/
theorem begun_elsewhere (m : Meta) (s : State) (th : Thread) : Elsewhere s (begun m s th) := by
  have h1 : Elsewhere s (s.setThread s.cur (th.begin_ m.occ)) := .setThread _ _ _ fun h => absurd rfl h
  have h2 : Elsewhere s (if m.quiet then s.setThread s.cur (th.begin_ m.occ)
      else (s.setThread s.cur (th.begin_ m.occ)).publish s.cur th th.ipc) := by
    split
    · exact h1
    · exact h1.trans (publish_elsewhere _ _ _ _)
  simp only [begun, State.begin_]; split
  · exact h2.trans (effectOut_elsewhere _ _)
  · exact h2

/-- Of the bands the start of an instruction changes OUT alone, by a port push (R308). -/
theorem begun_bands (m : Meta) (s : State) (th : Thread) :
    (begun m s th).bands = if th.pushes m then (s.effectOut th).bands else s.bands := by
  have h : (if m.quiet then s.setThread s.cur (th.begin_ m.occ)
      else (s.setThread s.cur (th.begin_ m.occ)).publish s.cur th th.ipc).bands = s.bands := by
    split
    · rfl
    · exact publish_bands _ _ _ _
  simp only [begun, State.begin_]; split
  · exact effectOut_bands_congr h th
  · exact h

theorem foldl_thread? (ms : List ThreadRef) (f : Thread → Thread) {q : ThreadRef} (h : q ∉ ms) (s : State) :
    (ms.foldl (fun a r => a.modThread r f) s).thread? q = s.thread? q := by
  induction ms generalizing s with
  | nil => rfl
  | cons r rs ih =>
    simp only [List.mem_cons, not_or] at h
    rw [List.foldl_cons, ih h.2, State.thread?_modThread_ne _ _ h.1]

theorem thread?_modCore_slots (s : State) (n : Nat) (g : Core → Core) (h : (g (s.core n)).slots = (s.core n).slots)
    (q : ThreadRef) : (s.modCore n g).thread? q = s.thread? q := by
  by_cases e : q.core = n
  · simp [State.thread?, State.slot, e, h]
  · simp [State.thread?, State.slot, State.core_modCore_ne _ _ e]

/-- The thread as its instruction begins. -/
theorem begun_thread? {m : Meta} {s : State} {th : Thread} (h : s.thread? s.cur = some th) :
    (begun m s th).thread? s.cur = some (th.begin_ m.occ) := by
  have h1 := State.thread?_setThread_self s (th.begin_ m.occ) (State.slot_lt_of_thread? h)
  have h2 : (if m.quiet then s.setThread s.cur (th.begin_ m.occ)
      else (s.setThread s.cur (th.begin_ m.occ)).publish s.cur th th.ipc).thread? s.cur = some (th.begin_ m.occ) := by
    split
    · exact h1
    · simp only [State.publish]; split
      · split
        · exact h1
        · rw [foldl_thread? _ _ (by simp), thread?_modCore_slots _ _ _ rfl]; exact h1
      · exact h1
  simp only [begun, State.begin_]; split
  · rw [effectOut_thread?]; exact h2
  · exact h2

/-- The present slot stays the present slot. -/
@[simp] theorem begun_cur (m : Meta) (s : State) (th : Thread) : (begun m s th).cur = s.cur := by
  rw [(begun_elsewhere m s th).rest]

@[simp] theorem begun_beat (m : Meta) (s : State) (th : Thread) : (begun m s th).beat = s.beat := by
  rw [(begun_elsewhere m s th).rest]

/-! ## What stands before an effect -/

/-- A member that leaves its squad leaves everything else alone, but for its channel's list of members. -/
theorem leaveSquad_others (s : State) (l a : Word) (h : s.cur.slot < 8) {th : Thread} (ht : s.thread? s.cur = some th) :
    (s.leaveSquad s.cur l a).thread? s.cur = some { th with
      sq := .fetching, sqRdv := 0, sqDepth := 0, sqLeftpc := l, pc := a, subBuf := [], subDue := 0, endAt := none } ∧
    MemoryKept s (s.leaveSquad s.cur l a) ∧ OthersGoOn s (s.leaveSquad s.cur l a) := by
  have hu : ∀ q, (s.unsubscribe s.cur th).thread? q = s.thread? q := fun q => by
    simp only [State.unsubscribe]; split
    · exact thread?_modCore_slots _ _ _ rfl q
    · rfl
  have hm : MemoryKept s (s.unsubscribe s.cur th) := by
    simp only [State.unsubscribe]; split <;> exact ⟨rfl, rfl, rfl⟩
  simp only [State.leaveSquad, ht]
  rw [State.modThread_of_some (by rw [hu, ht])]
  refine ⟨State.thread?_setThread_self _ _ h, hm, fun q hq => ?_⟩
  rw [State.thread?_setThread_ne _ _ hq, hu]

/-- An instruction that waits or traps at the gate, or whose predicate fails there. -/
theorem issue_of_wait {m : Meta} {p : Pred} {s : State} {th : Thread} {k : WaitKind} (ht : s.thread? s.cur = some th)
    (hg : gate m p s s.cur th = .wait k) (body : State → Thread → Res) : issue m p s body = .next (s.await s.cur k) := by
  simp only [issue, ht, hg]

theorem issue_of_trap {m : Meta} {p : Pred} {s : State} {th : Thread} {c : Cause} {info : Word} (ht : s.thread? s.cur = some th)
    (hg : gate m p s s.cur th = .trap c info) (body : State → Thread → Res) :
    issue m p s body = .next (s.raise s.cur c 0 info th.ipc) := by
  simp only [issue, ht, hg]

theorem issue_of_skip {m : Meta} {p : Pred} {s : State} {th : Thread} (ht : s.thread? s.cur = some th)
    (hg : gate m p s s.cur th = .skip) (body : State → Thread → Res) :
    ∃ t z, issue m p s body = .next t ∧ t.thread? s.cur = some z ∧ MemoryKept s t ∧ OthersGoOn s t ∧ z.pc = nextPc th.ipc ∧
      z.s = th.s ∧ z.v = th.v ∧ z.f = th.f ∧ z.inq = th.inq ∧ z.outq = th.outq ∧ z.outs = tickOuts th.outs ∧ z.wait = none ∧
      z.sq = if m.leaveOff = true ∧ th.member = true then .fetching else th.sq := by
  let b := begun { m with wr := [] } s th
  have hb : b.thread? s.cur = some (th.begin_ m.occ) := begun_thread? ht
  have he := begun_elsewhere { m with wr := [] } s th
  have hm : MemoryKept s b := by
    rw [show b = { s with cores := b.cores, bands := b.bands } from he.rest]; exact ⟨rfl, rfl, rfl⟩
  have hc : b.cur = s.cur := begun_cur ..
  by_cases h : m.leaveOff = true ∧ th.member = true
  · obtain ⟨h1, h2, h3⟩ := leaveSquad_others b th.ipc (nextPc th.ipc) (hc ▸ State.slot_lt_of_thread? ht) (hc ▸ hb)
    rw [hc] at h1 h2 h3
    refine ⟨b.leaveSquad s.cur th.ipc (nextPc th.ipc), _, ?_, h1,
      ⟨h2.1.trans hm.1, h2.2.1.trans hm.2.1, h2.2.2.trans hm.2.2⟩, fun q hq => ?_, rfl, rfl, rfl, rfl, rfl, rfl, rfl, rfl, ?_⟩
    · simp only [issue, ht, hg, h.1, h.2, Bool.and_self, if_true]; rfl
    · exact (h3 q (hc ▸ hq)).trans (he.thread q hq)
    · simp [h]
  · refine ⟨b.setThread s.cur { th.begin_ m.occ with pc := nextPc th.ipc }, _, ?_,
      State.thread?_setThread_self _ _ (State.slot_lt_of_thread? ht), hm, fun q hq => ?_, rfl, rfl, rfl, rfl, rfl, rfl, rfl, rfl, ?_⟩
    · have h' : (m.leaveOff && th.member) = false := by
        cases a : m.leaveOff <;> cases c : th.member <;> simp_all
      simp only [issue, ht, hg, h', Bool.false_eq_true, if_false]
      exact congrArg _ (State.modThread_of_some hb _)
    · rw [State.thread?_setThread_ne _ _ hq]; exact he.thread q hq
    · rw [if_neg h]; rfl

/-- What an instruction given by issue does before its effect. -/
theorem gated_of_issue {i : Instr} {m : Meta} {p : Pred} {body : State → State → Thread → Res}
    (he : ∀ s, exec i s = issue m p s (body s)) : Gated i m p := by
  intro s th ht hl
  simp only [he]
  have ha : ((m.notMast && roleOf s.cur.core == .masthead) || (m.inTrap && th.mode != .trap)) = true ↔
      (m.notMast = true ∧ roleOf s.cur.core = .masthead ∨ m.inTrap = true ∧ th.mode ≠ .trap) := by simp
  have hb : ((m.priv && !th.privileged) || (m.trapOnly && th.mode != .trap)) = true ↔
      (m.priv = true ∧ th.privileged = false ∨ m.trapOnly = true ∧ th.mode ≠ .trap) := by simp
  refine ⟨fun h => issue_of_wait ht ?_ _, fun h1 h2 => issue_of_trap ht ?_ _, fun h1 h2 h3 => issue_of_trap ht ?_ _, fun h1 h2 h3 => ?_⟩
  · simp only [gate, hl, h]; rfl
  · simp only [gate, hl, h1, ha.2 h2]; rfl
  · simp only [gate, hl, h1, Bool.not_eq_true _ ▸ mt ha.1 h2, hb.2 h3]; rfl
  have h2 := Bool.not_eq_true _ ▸ mt ha.1 h2
  have h3 := Bool.not_eq_true _ ▸ mt hb.1 h3
  refine ⟨fun o h4 => issue_of_trap ht ?_ _, fun h4 h5 h6 => issue_of_skip ht ?_ _, fun h4 h5 => ?_⟩
  · simp only [gate, hl, h1, h2, h3, h4]; rfl
  · simp only [gate, hl, h1, h2, h3, h4, h5, h6]; rfl
  have h5 : (!m.masked && !predHolds p th) = false := by rcases h5 with x | x <;> simp [x]
  have hr : (m.window && decide (4 ≤ th.outstanding)) = false ↔ (m.window = true → th.outstanding < 4) := by
    cases m.window <;> simp
  have hw : (m.rd.contains 30 && !m.noPort && th.inEn
      && (match th.inq with | w :: _ => decide (s.beat < w.avail) | [] => true)) = false ↔
      (30 ∈ m.rd → m.noPort = false → th.inEn = true → ∃ w r, th.inq = w :: r ∧ w.avail ≤ s.beat) := by
    by_cases a : 30 ∈ m.rd <;> cases b : m.noPort <;> cases c : th.inEn <;> simp [a]
    cases th.inq <;> simp
  refine ⟨fun h6 => issue_of_wait ht ?_ _, fun h6 h7 => issue_of_wait ht ?_ _, fun h6 h7 h8 h9 h10 => issue_of_wait ht ?_ _⟩
  · have h6 := Bool.not_eq_false _ ▸ mt hr.1 h6
    simp only [gate, hl, h1, h2, h3, h4, h5, h6]; rfl
  · have h7 := Bool.not_eq_false _ ▸ mt hw.1 h7
    simp only [gate, hl, h1, h2, h3, h4, h5, hr.2 h6]
    simp only [Bool.not_true, Bool.false_eq_true, if_false]
    exact if_pos h7
  · have h8 : (m.wr.contains 31 && th.outEn && decide (8 ≤ th.outq.length + th.bound31)) = true := by simp [h8, h9, h10]
    simp only [gate, hl, h1, h2, h3, h4, h5, hr.2 h6]
    simp only [Bool.not_true, Bool.false_eq_true, if_false]
    rw [if_neg (by rw [Bool.not_eq_true]; exact hw.2 h7), if_pos h8]

theorem gated_of_issueLocal {i : Instr} {m : Meta} {p : Pred} {f : State → Thread → Thread}
    (he : ∀ s, exec i s = issueLocal m p s (f s)) : Gated i m p :=
  gated_of_issue (body := fun s s1 th => .done (s1.setThread s1.cur (f s th))) he

/-! ## Instructions on their own thread -/

/-- A thread of the begun state, changed. -/
theorem begun_modThread {m : Meta} {s : State} {th : Thread} (h : s.thread? s.cur = some th) (f : Thread → Thread) :
    (begun m s th).modThread s.cur f = (begun m s th).setThread s.cur (f (th.begin_ m.occ)) :=
  State.modThread_of_some (begun_thread? h) f

@[simp] theorem pop_pc (m : Meta) (th was : Thread) : (th.pop m was).pc = th.pc := by
  simp only [Thread.pop]; split
  · split <;> rfl
  · rfl

/-- An instruction whose end leaves the begun state with its own thread replaced. -/
theorem localTo_of_setThread {i : Instr} {m : Meta} {p : Pred} {pre : State → Thread → Prop} {f : State → Thread → Thread}
    {next : Thread → Word} {body : State → State → Thread → Res} (he : ∀ s, exec i s = issue m p s (body s))
    (hb : ∀ s th, Ready m p s th → pre s (th.begin_ m.occ) →
      finish m s s.cur th (body s (begun m s th) (th.begin_ m.occ)) =
        (begun m s th).setThread s.cur { (f s (th.begin_ m.occ)).pop m th with pc := next (th.begin_ m.occ) }) :
    LocalTo i m p pre f next := by
  refine ⟨gated_of_issue he, ?_⟩
  intro s th h hp
  refine ⟨_, by rw [he, issue_of_ready h, hb s th h hp], (begun_elsewhere m s th).trans ?_,
    (State.setThread_bands ..).trans (begun_bands m s th), ?_⟩
  · exact .setThread _ _ _ (fun x => absurd (begun_cur m s th).symm x)
  · exact State.thread?_setThread_self _ _ (State.slot_lt_of_thread? h.here)

/-- An instruction given by issueLocal. -/
theorem local_issueLocal {i : Instr} {m : Meta} {p : Pred} {f : State → Thread → Thread}
    (he : ∀ s, exec i s = issueLocal m p s (f s)) (hpc : ∀ s th, (f s th).pc = th.pc) : Local i m p f := by
  refine localTo_of_setThread (body := fun s s1 th => .done (s1.setThread s1.cur (f s th))) he fun s th h _ => ?_
  have e : ∀ u, finish m s s.cur th (.done u) = u.modThread s.cur fun x => { x.pop m th with pc := nextPc x.pc } := fun _ => rfl
  rw [e, begun_cur, State.modThread_setThread_self (State.slot_lt_of_thread? h.here), hpc]

/-- An instruction that runs its body on other state too. -/
theorem runs_of_done {i : Instr} {m : Meta} {p : Pred} {pre : State → Thread → Prop} {eff : State → Thread → State}
    {body : State → State → Thread → Res} (he : ∀ s, exec i s = issue m p s (body s))
    (hb : ∀ s th, Ready m p s th → pre (begun m s th) (th.begin_ m.occ) →
      body s (begun m s th) (th.begin_ m.occ) = .done (eff (begun m s th) (th.begin_ m.occ))) : Runs i m p pre eff := by
  refine ⟨gated_of_issue he, ?_⟩
  intro s th h hp
  rw [he, issue_of_ready h, hb s th h hp]; rfl

/-- An instruction whose body traps. -/
theorem traps_of_trap {i : Instr} {m : Meta} {p : Pred} {pre : State → Thread → Prop} {c : Cause} {addr info : Thread → Word}
    {body : State → State → Thread → Res} (he : ∀ s, exec i s = issue m p s (body s))
    (hb : ∀ s th, Ready m p s th → pre (begun m s th) (th.begin_ m.occ) →
      body s (begun m s th) (th.begin_ m.occ) = .trap c (addr (th.begin_ m.occ)) (info (th.begin_ m.occ))) :
    Traps i m p pre c addr info := by
  intro s th h hp
  rw [he, issue_of_ready h, hb s th h hp]; rfl

/-- An instruction whose body waits at itself. -/
theorem blocks_of_block {i : Instr} {m : Meta} {p : Pred} {pre : State → Thread → Prop} {k : State → Thread → WaitKind}
    {budget : Thread → Word} {eff : State → Thread → State} {body : State → State → Thread → Res}
    (he : ∀ s, exec i s = issue m p s (body s))
    (hb : ∀ s th, Ready m p s th → pre (begun m s th) (th.begin_ m.occ) →
      body s (begun m s th) (th.begin_ m.occ) =
        .block (k (begun m s th) (th.begin_ m.occ)) (budget (th.begin_ m.occ)) (eff (begun m s th) (th.begin_ m.occ))) :
    Blocks i m p pre k budget eff := by
  intro s th h hp
  rw [he, issue_of_ready h, hb s th h hp]; rfl

end Sys2Proof
end

