-- ==== Sys2Proof/Laws/Keying.lean ====
section
/-! SUPPORT. Encryption of memory (R336): an access under the key its bytes were written under sees and leaves them as memory
without keys would. -/

namespace Sys2Proof.Machine.State

/-- A read under the key its bytes were written under. -/
theorem readAs_of_fits {s : State} {slot key n : Nat} (h : s.keyFits slot key n = true) :
    s.readAs (.under slot) key n = s.readMem key n := by simp [readAs, h]

/-- A unit that was written under the slot's key, or under none. -/
def unitFits (s : State) (slot u : Nat) : Prop := ∀ k, lookup? s.unitKeys u = some k → k = s.keyNow slot

theorem keyFits_iff {s : State} {slot key n : Nat} : s.keyFits slot key n = true ↔ ∀ u ∈ unitsOf key n, s.unitFits slot u := by
  simp only [keyFits, List.all_eq_true, unitFits]
  refine forall₂_congr fun u _ => ?_
  cases lookup? s.unitKeys u <;> simp

/-- Such a unit keeps its bytes, and its key is noted. -/
theorem rekey_of_fits {s : State} {slot u : Nat} (h : s.unitFits slot u) :
    s.rekey slot u = { s with unitKeys := (s.rekey slot u).unitKeys } := by
  simp only [rekey]
  split
  · rfl
  · rw [if_pos (h _ ‹_›)]

theorem unitFits_rekey {s : State} {slot u v : Nat} (h : s.unitFits slot u) (hv : s.unitFits slot v) :
    (s.rekey slot u).unitFits slot v := by
  simp only [rekey]
  split
  · intro k e
    simp only [lookup?_insertKey] at e
    split at e
    · exact (Option.some.inj e).symm.trans rfl
    · exact hv k e
  · rwa [if_pos (h _ ‹_›)]

theorem rekeys_of_fits {s : State} {slot : Nat} {us : List Nat} (h : ∀ u ∈ us, s.unitFits slot u) :
    us.foldl (fun a u => a.rekey slot u) s = { s with unitKeys := (us.foldl (fun a u => a.rekey slot u) s).unitKeys } := by
  induction us generalizing s with
  | nil => rfl
  | cons u r ih =>
    have hu := h u (by simp)
    have := ih fun v hv => unitFits_rekey hu (h v (by simp [hv]))
    rw [List.foldl_cons, this, rekey_of_fits hu]

/-- A write under the key its bytes were written under: the bytes change as without keys, and of the rest the notes of keys
alone. -/
theorem writeAs_of_fits {s : State} {slot key n : Nat} (x : Nat) (h : s.keyFits slot key n = true) :
    ∃ ks, s.writeAs (.under slot) key n x = State.writeMem { s with unitKeys := ks } key n x :=
  ⟨_, by rw [writeAs, rekeys_of_fits (keyFits_iff.1 h)]⟩

end Sys2Proof.Machine.State
end

