-- ==== Sys2Proof/Laws/Layout.lean ====
section
/-! SUPPORT. Each field of a layout reads back what was packed into it (R19). -/

namespace Sys2Proof

@[simp] theorem word0_pack (x0 : BitVec 1) (x1 : BitVec 4) (x2 : BitVec 7) (x3 : BitVec 20) : word0 (wordPack x0 x1 x2 x3) = x0 := by
  apply BitVec.eq_of_toNat_eq
  simp only [word0, wordPack, BitVec.toNat_ofNat]
  omega
@[simp] theorem word1_pack (x0 : BitVec 1) (x1 : BitVec 4) (x2 : BitVec 7) (x3 : BitVec 20) : word1 (wordPack x0 x1 x2 x3) = x1 := by
  apply BitVec.eq_of_toNat_eq
  simp only [word1, wordPack, BitVec.toNat_ofNat]
  omega
@[simp] theorem word2_pack (x0 : BitVec 1) (x1 : BitVec 4) (x2 : BitVec 7) (x3 : BitVec 20) : word2 (wordPack x0 x1 x2 x3) = x2 := by
  apply BitVec.eq_of_toNat_eq
  simp only [word2, wordPack, BitVec.toNat_ofNat]
  omega
@[simp] theorem word3_pack (x0 : BitVec 1) (x1 : BitVec 4) (x2 : BitVec 7) (x3 : BitVec 20) : word3 (wordPack x0 x1 x2 x3) = x3 := by
  apply BitVec.eq_of_toNat_eq
  simp only [word3, wordPack, BitVec.toNat_ofNat]
  omega
@[simp] theorem rrr0_pack (x0 : BitVec 5) (x1 : BitVec 5) (x2 : BitVec 5) (x3 : BitVec 5) : rrr0 (rrrPack x0 x1 x2 x3) = x0 := by
  apply BitVec.eq_of_toNat_eq
  simp only [rrr0, rrrPack, BitVec.toNat_ofNat]
  omega
@[simp] theorem rrr1_pack (x0 : BitVec 5) (x1 : BitVec 5) (x2 : BitVec 5) (x3 : BitVec 5) : rrr1 (rrrPack x0 x1 x2 x3) = x1 := by
  apply BitVec.eq_of_toNat_eq
  simp only [rrr1, rrrPack, BitVec.toNat_ofNat]
  omega
@[simp] theorem rrr2_pack (x0 : BitVec 5) (x1 : BitVec 5) (x2 : BitVec 5) (x3 : BitVec 5) : rrr2 (rrrPack x0 x1 x2 x3) = x2 := by
  apply BitVec.eq_of_toNat_eq
  simp only [rrr2, rrrPack, BitVec.toNat_ofNat]
  omega
@[simp] theorem rrr3_pack (x0 : BitVec 5) (x1 : BitVec 5) (x2 : BitVec 5) (x3 : BitVec 5) : rrr3 (rrrPack x0 x1 x2 x3) = x3 := by
  apply BitVec.eq_of_toNat_eq
  simp only [rrr3, rrrPack, BitVec.toNat_ofNat]
  omega
@[simp] theorem mx0_pack (x0 : BitVec 5) (x1 : BitVec 5) (x2 : BitVec 4) (x3 : BitVec 6) : mx0 (mxPack x0 x1 x2 x3) = x0 := by
  apply BitVec.eq_of_toNat_eq
  simp only [mx0, mxPack, BitVec.toNat_ofNat]
  omega
@[simp] theorem mx1_pack (x0 : BitVec 5) (x1 : BitVec 5) (x2 : BitVec 4) (x3 : BitVec 6) : mx1 (mxPack x0 x1 x2 x3) = x1 := by
  apply BitVec.eq_of_toNat_eq
  simp only [mx1, mxPack, BitVec.toNat_ofNat]
  omega
@[simp] theorem mx2_pack (x0 : BitVec 5) (x1 : BitVec 5) (x2 : BitVec 4) (x3 : BitVec 6) : mx2 (mxPack x0 x1 x2 x3) = x2 := by
  apply BitVec.eq_of_toNat_eq
  simp only [mx2, mxPack, BitVec.toNat_ofNat]
  omega
@[simp] theorem mx3_pack (x0 : BitVec 5) (x1 : BitVec 5) (x2 : BitVec 4) (x3 : BitVec 6) : mx3 (mxPack x0 x1 x2 x3) = x3 := by
  apply BitVec.eq_of_toNat_eq
  simp only [mx3, mxPack, BitVec.toNat_ofNat]
  omega
@[simp] theorem ri0_pack (x0 : BitVec 5) (x1 : BitVec 5) (x2 : BitVec 10) : ri0 (riPack x0 x1 x2) = x0 := by
  apply BitVec.eq_of_toNat_eq
  simp only [ri0, riPack, BitVec.toNat_ofNat]
  omega
@[simp] theorem ri1_pack (x0 : BitVec 5) (x1 : BitVec 5) (x2 : BitVec 10) : ri1 (riPack x0 x1 x2) = x1 := by
  apply BitVec.eq_of_toNat_eq
  simp only [ri1, riPack, BitVec.toNat_ofNat]
  omega
@[simp] theorem ri2_pack (x0 : BitVec 5) (x1 : BitVec 5) (x2 : BitVec 10) : ri2 (riPack x0 x1 x2) = x2 := by
  apply BitVec.eq_of_toNat_eq
  simp only [ri2, riPack, BitVec.toNat_ofNat]
  omega
@[simp] theorem rl0_pack (x0 : BitVec 5) (x1 : BitVec 15) : rl0 (rlPack x0 x1) = x0 := by
  apply BitVec.eq_of_toNat_eq
  simp only [rl0, rlPack, BitVec.toNat_ofNat]
  omega
@[simp] theorem rl1_pack (x0 : BitVec 5) (x1 : BitVec 15) : rl1 (rlPack x0 x1) = x1 := by
  apply BitVec.eq_of_toNat_eq
  simp only [rl1, rlPack, BitVec.toNat_ofNat]
  omega
@[simp] theorem fl0_pack (x0 : BitVec 1) (x1 : BitVec 4) (x2 : BitVec 15) : fl0 (flPack x0 x1 x2) = x0 := by
  apply BitVec.eq_of_toNat_eq
  simp only [fl0, flPack, BitVec.toNat_ofNat]
  omega
@[simp] theorem fl1_pack (x0 : BitVec 1) (x1 : BitVec 4) (x2 : BitVec 15) : fl1 (flPack x0 x1 x2) = x1 := by
  apply BitVec.eq_of_toNat_eq
  simp only [fl1, flPack, BitVec.toNat_ofNat]
  omega
@[simp] theorem fl2_pack (x0 : BitVec 1) (x1 : BitVec 4) (x2 : BitVec 15) : fl2 (flPack x0 x1 x2) = x2 := by
  apply BitVec.eq_of_toNat_eq
  simp only [fl2, flPack, BitVec.toNat_ofNat]
  omega
@[simp] theorem lv0_pack (x0 : BitVec 1) (x1 : BitVec 4) (x2 : BitVec 5) (x3 : BitVec 10) : lv0 (lvPack x0 x1 x2 x3) = x0 := by
  apply BitVec.eq_of_toNat_eq
  simp only [lv0, lvPack, BitVec.toNat_ofNat]
  omega
@[simp] theorem lv1_pack (x0 : BitVec 1) (x1 : BitVec 4) (x2 : BitVec 5) (x3 : BitVec 10) : lv1 (lvPack x0 x1 x2 x3) = x1 := by
  apply BitVec.eq_of_toNat_eq
  simp only [lv1, lvPack, BitVec.toNat_ofNat]
  omega
@[simp] theorem lv2_pack (x0 : BitVec 1) (x1 : BitVec 4) (x2 : BitVec 5) (x3 : BitVec 10) : lv2 (lvPack x0 x1 x2 x3) = x2 := by
  apply BitVec.eq_of_toNat_eq
  simp only [lv2, lvPack, BitVec.toNat_ofNat]
  omega
@[simp] theorem lv3_pack (x0 : BitVec 1) (x1 : BitVec 4) (x2 : BitVec 5) (x3 : BitVec 10) : lv3 (lvPack x0 x1 x2 x3) = x3 := by
  apply BitVec.eq_of_toNat_eq
  simp only [lv3, lvPack, BitVec.toNat_ofNat]
  omega
@[simp] theorem rik0_pack (x0 : BitVec 5) (x1 : BitVec 5) (x2 : BitVec 3) (x3 : BitVec 7) : rik0 (rikPack x0 x1 x2 x3) = x0 := by
  apply BitVec.eq_of_toNat_eq
  simp only [rik0, rikPack, BitVec.toNat_ofNat]
  omega
@[simp] theorem rik1_pack (x0 : BitVec 5) (x1 : BitVec 5) (x2 : BitVec 3) (x3 : BitVec 7) : rik1 (rikPack x0 x1 x2 x3) = x1 := by
  apply BitVec.eq_of_toNat_eq
  simp only [rik1, rikPack, BitVec.toNat_ofNat]
  omega
@[simp] theorem rik2_pack (x0 : BitVec 5) (x1 : BitVec 5) (x2 : BitVec 3) (x3 : BitVec 7) : rik2 (rikPack x0 x1 x2 x3) = x2 := by
  apply BitVec.eq_of_toNat_eq
  simp only [rik2, rikPack, BitVec.toNat_ofNat]
  omega
@[simp] theorem rik3_pack (x0 : BitVec 5) (x1 : BitVec 5) (x2 : BitVec 3) (x3 : BitVec 7) : rik3 (rikPack x0 x1 x2 x3) = x3 := by
  apply BitVec.eq_of_toNat_eq
  simp only [rik3, rikPack, BitVec.toNat_ofNat]
  omega
@[simp] theorem x410_pack (x0 : BitVec 4) (x1 : BitVec 1) : x410 (x41Pack x0 x1) = x0 := by
  apply BitVec.eq_of_toNat_eq
  simp only [x410, x41Pack, BitVec.toNat_ofNat]
  omega
@[simp] theorem x411_pack (x0 : BitVec 4) (x1 : BitVec 1) : x411 (x41Pack x0 x1) = x1 := by
  apply BitVec.eq_of_toNat_eq
  simp only [x411, x41Pack, BitVec.toNat_ofNat]
  omega
@[simp] theorem x320_pack (x0 : BitVec 3) (x1 : BitVec 2) : x320 (x32Pack x0 x1) = x0 := by
  apply BitVec.eq_of_toNat_eq
  simp only [x320, x32Pack, BitVec.toNat_ofNat]
  omega
@[simp] theorem x321_pack (x0 : BitVec 3) (x1 : BitVec 2) : x321 (x32Pack x0 x1) = x1 := by
  apply BitVec.eq_of_toNat_eq
  simp only [x321, x32Pack, BitVec.toNat_ofNat]
  omega
@[simp] theorem f150_pack (x0 : BitVec 1) (x1 : BitVec 5) : f150 (f15Pack x0 x1) = x0 := by
  apply BitVec.eq_of_toNat_eq
  simp only [f150, f15Pack, BitVec.toNat_ofNat]
  omega
@[simp] theorem f151_pack (x0 : BitVec 1) (x1 : BitVec 5) : f151 (f15Pack x0 x1) = x1 := by
  apply BitVec.eq_of_toNat_eq
  simp only [f151, f15Pack, BitVec.toNat_ofNat]
  omega
@[simp] theorem f510_pack (x0 : BitVec 5) (x1 : BitVec 1) : f510 (f51Pack x0 x1) = x0 := by
  apply BitVec.eq_of_toNat_eq
  simp only [f510, f51Pack, BitVec.toNat_ofNat]
  omega
@[simp] theorem f511_pack (x0 : BitVec 5) (x1 : BitVec 1) : f511 (f51Pack x0 x1) = x1 := by
  apply BitVec.eq_of_toNat_eq
  simp only [f511, f51Pack, BitVec.toNat_ofNat]
  omega
@[simp] theorem f3210_pack (x0 : BitVec 3) (x1 : BitVec 2) (x2 : BitVec 1) : f3210 (f321Pack x0 x1 x2) = x0 := by
  apply BitVec.eq_of_toNat_eq
  simp only [f3210, f321Pack, BitVec.toNat_ofNat]
  omega
@[simp] theorem f3211_pack (x0 : BitVec 3) (x1 : BitVec 2) (x2 : BitVec 1) : f3211 (f321Pack x0 x1 x2) = x1 := by
  apply BitVec.eq_of_toNat_eq
  simp only [f3211, f321Pack, BitVec.toNat_ofNat]
  omega
@[simp] theorem f3212_pack (x0 : BitVec 3) (x1 : BitVec 2) (x2 : BitVec 1) : f3212 (f321Pack x0 x1 x2) = x2 := by
  apply BitVec.eq_of_toNat_eq
  simp only [f3212, f321Pack, BitVec.toNat_ofNat]
  omega
@[simp] theorem f4110_pack (x0 : BitVec 4) (x1 : BitVec 1) (x2 : BitVec 1) : f4110 (f411Pack x0 x1 x2) = x0 := by
  apply BitVec.eq_of_toNat_eq
  simp only [f4110, f411Pack, BitVec.toNat_ofNat]
  omega
@[simp] theorem f4111_pack (x0 : BitVec 4) (x1 : BitVec 1) (x2 : BitVec 1) : f4111 (f411Pack x0 x1 x2) = x1 := by
  apply BitVec.eq_of_toNat_eq
  simp only [f4111, f411Pack, BitVec.toNat_ofNat]
  omega
@[simp] theorem f4112_pack (x0 : BitVec 4) (x1 : BitVec 1) (x2 : BitVec 1) : f4112 (f411Pack x0 x1 x2) = x2 := by
  apply BitVec.eq_of_toNat_eq
  simp only [f4112, f411Pack, BitVec.toNat_ofNat]
  omega
@[simp] theorem f240_pack (x0 : BitVec 2) (x1 : BitVec 4) : f240 (f24Pack x0 x1) = x0 := by
  apply BitVec.eq_of_toNat_eq
  simp only [f240, f24Pack, BitVec.toNat_ofNat]
  omega
@[simp] theorem f241_pack (x0 : BitVec 2) (x1 : BitVec 4) : f241 (f24Pack x0 x1) = x1 := by
  apply BitVec.eq_of_toNat_eq
  simp only [f241, f24Pack, BitVec.toNat_ofNat]
  omega

end Sys2Proof
end

