-- ==== Sys2Proof/Laws/PerInstr.lean ====
section
/-! SUPPORT. The family Roundtrip: the word of a well-formed instruction decodes to it, one lemma per constructor. -/

set_option Elab.async false

namespace Sys2Proof.Laws.Roundtrip

/-- The word of a well-formed instruction decodes to the instruction the word stands for; an event has no word. -/
def Statement (i : Instr) : Prop := wf i = true → ∀ w, encode i = some w → decode w = some (canon i)

/-- The fields of a word reach the decoder of its major opcode. -/
theorem decodeFields_wordOf (p : Pred) (maj : BitVec 7) (x : BitVec 20) :
    decodeFields (wordOf p maj x) = decodeMajor maj p x := by
  unfold decodeFields wordOf
  rw [word0_pack, word1_pack, word2_pack, word3_pack]

/-- A word whose fields are a well-formed instruction's decodes to it. -/
theorem decode_of_fields (w : BitVec 32) (i : Instr) (h : decodeFields w = some i) (hw : wf i = true) :
    decode w = some i := by
  simp only [decode, h, hw, if_true]

/-- A word whose major opcode's decoder finds a well-formed instruction decodes to it. -/
theorem decode_wordOf {p : Pred} {maj : BitVec 7} {x : BitVec 20} {i : Instr} {w : BitVec 32}
    (e : some (wordOf p maj x) = some w) (h : decodeMajor maj p x = some i) (hw : wf i = true) :
    decode w = some i :=
  Option.some.inj e ▸ decode_of_fields _ _ ((decodeFields_wordOf p maj x).trans h) hw

theorem major_01 (p : Pred) (x : BitVec 20) : decodeMajor 0x01 p x = dec01 p x := rfl
theorem major_02 (p : Pred) (x : BitVec 20) : decodeMajor 0x02 p x = dec02 p x := rfl
theorem major_03 (p : Pred) (x : BitVec 20) : decodeMajor 0x03 p x = dec03 p x := rfl
theorem major_04 (p : Pred) (x : BitVec 20) : decodeMajor 0x04 p x = dec04 p x := rfl
theorem major_05 (p : Pred) (x : BitVec 20) : decodeMajor 0x05 p x = dec05 p x := rfl
theorem major_06 (p : Pred) (x : BitVec 20) : decodeMajor 0x06 p x = dec06 p x := rfl
theorem major_07 (p : Pred) (x : BitVec 20) : decodeMajor 0x07 p x = dec07 p x := rfl
theorem major_08 (p : Pred) (x : BitVec 20) : decodeMajor 0x08 p x = dec08 p x := rfl
theorem major_09 (p : Pred) (x : BitVec 20) : decodeMajor 0x09 p x = dec09 p x := rfl
theorem major_0A (p : Pred) (x : BitVec 20) : decodeMajor 0x0A p x = dec0A p x := rfl
theorem major_0B (p : Pred) (x : BitVec 20) : decodeMajor 0x0B p x = dec0B p x := rfl
theorem major_0C (p : Pred) (x : BitVec 20) : decodeMajor 0x0C p x = dec0C p x := rfl
theorem major_0D (p : Pred) (x : BitVec 20) : decodeMajor 0x0D p x = dec0D p x := rfl
theorem major_0E (p : Pred) (x : BitVec 20) : decodeMajor 0x0E p x = dec0E p x := rfl
theorem major_0F (p : Pred) (x : BitVec 20) : decodeMajor 0x0F p x = dec0F p x := rfl
theorem major_10 (p : Pred) (x : BitVec 20) : decodeMajor 0x10 p x = dec10 p x := rfl
theorem major_11 (p : Pred) (x : BitVec 20) : decodeMajor 0x11 p x = dec11 p x := rfl
theorem major_12 (p : Pred) (x : BitVec 20) : decodeMajor 0x12 p x = dec12 p x := rfl
theorem major_13 (p : Pred) (x : BitVec 20) : decodeMajor 0x13 p x = dec13 p x := rfl
theorem major_14 (p : Pred) (x : BitVec 20) : decodeMajor 0x14 p x = dec14 p x := rfl
theorem major_15 (p : Pred) (x : BitVec 20) : decodeMajor 0x15 p x = dec15 p x := rfl
theorem major_18 (p : Pred) (x : BitVec 20) : decodeMajor 0x18 p x = dec18 p x := rfl
theorem major_19 (p : Pred) (x : BitVec 20) : decodeMajor 0x19 p x = dec19 p x := rfl
theorem major_1A (p : Pred) (x : BitVec 20) : decodeMajor 0x1A p x = dec1A p x := rfl
theorem major_1B (p : Pred) (x : BitVec 20) : decodeMajor 0x1B p x = dec1B p x := rfl
theorem major_1C (p : Pred) (x : BitVec 20) : decodeMajor 0x1C p x = dec1C p x := rfl
theorem major_20 (p : Pred) (x : BitVec 20) : decodeMajor 0x20 p x = dec20 p x := rfl
theorem major_21 (p : Pred) (x : BitVec 20) : decodeMajor 0x21 p x = dec21 p x := rfl
theorem major_22 (p : Pred) (x : BitVec 20) : decodeMajor 0x22 p x = dec22 p x := rfl
theorem major_23 (p : Pred) (x : BitVec 20) : decodeMajor 0x23 p x = dec23 p x := rfl
theorem major_28 (p : Pred) (x : BitVec 20) : decodeMajor 0x28 p x = dec28 p x := rfl
theorem major_29 (p : Pred) (x : BitVec 20) : decodeMajor 0x29 p x = dec29 p x := rfl
theorem major_2A (p : Pred) (x : BitVec 20) : decodeMajor 0x2A p x = dec2A p x := rfl
theorem major_2B (p : Pred) (x : BitVec 20) : decodeMajor 0x2B p x = dec2B p x := rfl
theorem major_2C (p : Pred) (x : BitVec 20) : decodeMajor 0x2C p x = dec2C p x := rfl
theorem major_2D (p : Pred) (x : BitVec 20) : decodeMajor 0x2D p x = dec2D p x := rfl
theorem major_2E (p : Pred) (x : BitVec 20) : decodeMajor 0x2E p x = dec2E p x := rfl
theorem major_2F (p : Pred) (x : BitVec 20) : decodeMajor 0x2F p x = dec2F p x := rfl
theorem major_30 (p : Pred) (x : BitVec 20) : decodeMajor 0x30 p x = dec30 p x := rfl
theorem major_31 (p : Pred) (x : BitVec 20) : decodeMajor 0x31 p x = dec31 p x := rfl
theorem major_32 (p : Pred) (x : BitVec 20) : decodeMajor 0x32 p x = dec32 p x := rfl
theorem major_33 (p : Pred) (x : BitVec 20) : decodeMajor 0x33 p x = dec33 p x := rfl
theorem major_34 (p : Pred) (x : BitVec 20) : decodeMajor 0x34 p x = dec34 p x := rfl
theorem major_35 (p : Pred) (x : BitVec 20) : decodeMajor 0x35 p x = dec35 p x := rfl
theorem major_36 (p : Pred) (x : BitVec 20) : decodeMajor 0x36 p x = dec36 p x := rfl
theorem major_37 (p : Pred) (x : BitVec 20) : decodeMajor 0x37 p x = dec37 p x := rfl
theorem major_38 (p : Pred) (x : BitVec 20) : decodeMajor 0x38 p x = dec38 p x := rfl
theorem major_39 (p : Pred) (x : BitVec 20) : decodeMajor 0x39 p x = dec39 p x := rfl
theorem major_3A (p : Pred) (x : BitVec 20) : decodeMajor 0x3A p x = dec3A p x := rfl
theorem major_3B (p : Pred) (x : BitVec 20) : decodeMajor 0x3B p x = dec3B p x := rfl
theorem major_3C (p : Pred) (x : BitVec 20) : decodeMajor 0x3C p x = dec3C p x := rfl
theorem major_40 (p : Pred) (x : BitVec 20) : decodeMajor 0x40 p x = dec40 p x := rfl
theorem major_41 (p : Pred) (x : BitVec 20) : decodeMajor 0x41 p x = dec41 p x := rfl
theorem major_42 (p : Pred) (x : BitVec 20) : decodeMajor 0x42 p x = dec42 p x := rfl
theorem major_43 (p : Pred) (x : BitVec 20) : decodeMajor 0x43 p x = dec43 p x := rfl
theorem major_44 (p : Pred) (x : BitVec 20) : decodeMajor 0x44 p x = dec44 p x := rfl
theorem major_45 (p : Pred) (x : BitVec 20) : decodeMajor 0x45 p x = dec45 p x := rfl
theorem major_46 (p : Pred) (x : BitVec 20) : decodeMajor 0x46 p x = dec46 p x := rfl
theorem major_47 (p : Pred) (x : BitVec 20) : decodeMajor 0x47 p x = dec47 p x := rfl
theorem major_48 (p : Pred) (x : BitVec 20) : decodeMajor 0x48 p x = dec48 p x := rfl
theorem major_50 (p : Pred) (x : BitVec 20) : decodeMajor 0x50 p x = dec50 p x := rfl
theorem major_51 (p : Pred) (x : BitVec 20) : decodeMajor 0x51 p x = dec51 p x := rfl
theorem major_52 (p : Pred) (x : BitVec 20) : decodeMajor 0x52 p x = dec52 p x := rfl
theorem major_53 (p : Pred) (x : BitVec 20) : decodeMajor 0x53 p x = dec53 p x := rfl
theorem major_54 (p : Pred) (x : BitVec 20) : decodeMajor 0x54 p x = dec54 p x := rfl
theorem major_55 (p : Pred) (x : BitVec 20) : decodeMajor 0x55 p x = dec55 p x := rfl
theorem major_60 (p : Pred) (x : BitVec 20) : decodeMajor 0x60 p x = dec60 p x := rfl
theorem major_68 (p : Pred) (x : BitVec 20) : decodeMajor 0x68 p x = dec68 p x := rfl
theorem major_69 (p : Pred) (x : BitVec 20) : decodeMajor 0x69 p x = dec69 p x := rfl
theorem major_6A (p : Pred) (x : BitVec 20) : decodeMajor 0x6A p x = dec6A p x := rfl
theorem major_6B (p : Pred) (x : BitVec 20) : decodeMajor 0x6B p x = dec6B p x := rfl
theorem major_6C (p : Pred) (x : BitVec 20) : decodeMajor 0x6C p x = dec6C p x := rfl
theorem major_70 (p : Pred) (x : BitVec 20) : decodeMajor 0x70 p x = dec70 p x := rfl
theorem major_71 (p : Pred) (x : BitVec 20) : decodeMajor 0x71 p x = dec71 p x := rfl
theorem major_72 (p : Pred) (x : BitVec 20) : decodeMajor 0x72 p x = dec72 p x := rfl
theorem major_73 (p : Pred) (x : BitVec 20) : decodeMajor 0x73 p x = dec73 p x := rfl
theorem major_74 (p : Pred) (x : BitVec 20) : decodeMajor 0x74 p x = dec74 p x := rfl
theorem major_75 (p : Pred) (x : BitVec 20) : decodeMajor 0x75 p x = dec75 p x := rfl
theorem major_76 (p : Pred) (x : BitVec 20) : decodeMajor 0x76 p x = dec76 p x := rfl
theorem major_77 (p : Pred) (x : BitVec 20) : decodeMajor 0x77 p x = dec77 p x := rfl
theorem major_78 (p : Pred) (x : BitVec 20) : decodeMajor 0x78 p x = dec78 p x := rfl
theorem major_79 (p : Pred) (x : BitVec 20) : decodeMajor 0x79 p x = dec79 p x := rfl
theorem major_7A (p : Pred) (x : BitVec 20) : decodeMajor 0x7A p x = dec7A p x := rfl
theorem major_7C (p : Pred) (x : BitVec 20) : decodeMajor 0x7C p x = dec7C p x := rfl
theorem major_7D (p : Pred) (x : BitVec 20) : decodeMajor 0x7D p x = dec7D p x := rfl
theorem major_7E (p : Pred) (x : BitVec 20) : decodeMajor 0x7E p x = dec7E p x := rfl

theorem add (p : Pred) (d : BitVec 5) (a : BitVec 5) (b : BitVec 5) : Statement (.add p d a b) :=
  fun h _ hw => decode_wordOf (i := .add p d a b) hw ((major_01 _ _).trans (by simp [dec01])) h
theorem sub (p : Pred) (d : BitVec 5) (a : BitVec 5) (b : BitVec 5) : Statement (.sub p d a b) :=
  fun h _ hw => decode_wordOf (i := .sub p d a b) hw ((major_01 _ _).trans (by simp [dec01])) h
theorem and (p : Pred) (d : BitVec 5) (a : BitVec 5) (b : BitVec 5) : Statement (.and p d a b) :=
  fun h _ hw => decode_wordOf (i := .and p d a b) hw ((major_01 _ _).trans (by simp [dec01])) h
theorem or (p : Pred) (d : BitVec 5) (a : BitVec 5) (b : BitVec 5) : Statement (.or p d a b) :=
  fun h _ hw => decode_wordOf (i := .or p d a b) hw ((major_01 _ _).trans (by simp [dec01])) h
theorem xor (p : Pred) (d : BitVec 5) (a : BitVec 5) (b : BitVec 5) : Statement (.xor p d a b) :=
  fun h _ hw => decode_wordOf (i := .xor p d a b) hw ((major_01 _ _).trans (by simp [dec01])) h
theorem andn (p : Pred) (d : BitVec 5) (a : BitVec 5) (b : BitVec 5) : Statement (.andn p d a b) :=
  fun h _ hw => decode_wordOf (i := .andn p d a b) hw ((major_01 _ _).trans (by simp [dec01])) h
theorem shl (p : Pred) (d : BitVec 5) (a : BitVec 5) (b : BitVec 5) : Statement (.shl p d a b) :=
  fun h _ hw => decode_wordOf (i := .shl p d a b) hw ((major_01 _ _).trans (by simp [dec01])) h
theorem shr (p : Pred) (d : BitVec 5) (a : BitVec 5) (b : BitVec 5) : Statement (.shr p d a b) :=
  fun h _ hw => decode_wordOf (i := .shr p d a b) hw ((major_01 _ _).trans (by simp [dec01])) h
theorem sar (p : Pred) (d : BitVec 5) (a : BitVec 5) (b : BitVec 5) : Statement (.sar p d a b) :=
  fun h _ hw => decode_wordOf (i := .sar p d a b) hw ((major_01 _ _).trans (by simp [dec01])) h
theorem ror (p : Pred) (d : BitVec 5) (a : BitVec 5) (b : BitVec 5) : Statement (.ror p d a b) :=
  fun h _ hw => decode_wordOf (i := .ror p d a b) hw ((major_01 _ _).trans (by simp [dec01])) h
theorem minS64 (p : Pred) (d : BitVec 5) (a : BitVec 5) (b : BitVec 5) : Statement (.minS64 p d a b) :=
  fun h _ hw => decode_wordOf (i := .minS64 p d a b) hw ((major_01 _ _).trans (by simp [dec01])) h
theorem minZ64 (p : Pred) (d : BitVec 5) (a : BitVec 5) (b : BitVec 5) : Statement (.minZ64 p d a b) :=
  fun h _ hw => decode_wordOf (i := .minZ64 p d a b) hw ((major_01 _ _).trans (by simp [dec01])) h
theorem maxS64 (p : Pred) (d : BitVec 5) (a : BitVec 5) (b : BitVec 5) : Statement (.maxS64 p d a b) :=
  fun h _ hw => decode_wordOf (i := .maxS64 p d a b) hw ((major_01 _ _).trans (by simp [dec01])) h
theorem maxZ64 (p : Pred) (d : BitVec 5) (a : BitVec 5) (b : BitVec 5) : Statement (.maxZ64 p d a b) :=
  fun h _ hw => decode_wordOf (i := .maxZ64 p d a b) hw ((major_01 _ _).trans (by simp [dec01])) h
theorem addsS64 (p : Pred) (d : BitVec 5) (a : BitVec 5) (b : BitVec 5) : Statement (.addsS64 p d a b) :=
  fun h _ hw => decode_wordOf (i := .addsS64 p d a b) hw ((major_01 _ _).trans (by simp [dec01])) h
theorem subsS64 (p : Pred) (d : BitVec 5) (a : BitVec 5) (b : BitVec 5) : Statement (.subsS64 p d a b) :=
  fun h _ hw => decode_wordOf (i := .subsS64 p d a b) hw ((major_01 _ _).trans (by simp [dec01])) h
theorem mul (p : Pred) (d : BitVec 5) (a : BitVec 5) (b : BitVec 5) : Statement (.mul p d a b) :=
  fun h _ hw => decode_wordOf (i := .mul p d a b) hw ((major_02 _ _).trans (by simp [dec02])) h
theorem mulhS64 (p : Pred) (d : BitVec 5) (a : BitVec 5) (b : BitVec 5) : Statement (.mulhS64 p d a b) :=
  fun h _ hw => decode_wordOf (i := .mulhS64 p d a b) hw ((major_02 _ _).trans (by simp [dec02])) h
theorem mulhZ64 (p : Pred) (d : BitVec 5) (a : BitVec 5) (b : BitVec 5) : Statement (.mulhZ64 p d a b) :=
  fun h _ hw => decode_wordOf (i := .mulhZ64 p d a b) hw ((major_02 _ _).trans (by simp [dec02])) h
theorem divS64 (p : Pred) (d : BitVec 5) (a : BitVec 5) (b : BitVec 5) : Statement (.divS64 p d a b) :=
  fun h _ hw => decode_wordOf (i := .divS64 p d a b) hw ((major_02 _ _).trans (by simp [dec02])) h
theorem divZ64 (p : Pred) (d : BitVec 5) (a : BitVec 5) (b : BitVec 5) : Statement (.divZ64 p d a b) :=
  fun h _ hw => decode_wordOf (i := .divZ64 p d a b) hw ((major_02 _ _).trans (by simp [dec02])) h
theorem remS64 (p : Pred) (d : BitVec 5) (a : BitVec 5) (b : BitVec 5) : Statement (.remS64 p d a b) :=
  fun h _ hw => decode_wordOf (i := .remS64 p d a b) hw ((major_02 _ _).trans (by simp [dec02])) h
theorem remZ64 (p : Pred) (d : BitVec 5) (a : BitVec 5) (b : BitVec 5) : Statement (.remZ64 p d a b) :=
  fun h _ hw => decode_wordOf (i := .remZ64 p d a b) hw ((major_02 _ _).trans (by simp [dec02])) h
theorem clz (p : Pred) (d : BitVec 5) (a : BitVec 5) : Statement (.clz p d a) :=
  fun h _ hw => decode_wordOf (i := .clz p d a) hw ((major_03 _ _).trans (by simp [dec03])) h
theorem ctz (p : Pred) (d : BitVec 5) (a : BitVec 5) : Statement (.ctz p d a) :=
  fun h _ hw => decode_wordOf (i := .ctz p d a) hw ((major_03 _ _).trans (by simp [dec03])) h
theorem popc (p : Pred) (d : BitVec 5) (a : BitVec 5) : Statement (.popc p d a) :=
  fun h _ hw => decode_wordOf (i := .popc p d a) hw ((major_03 _ _).trans (by simp [dec03])) h
theorem brev (p : Pred) (d : BitVec 5) (a : BitVec 5) : Statement (.brev p d a) :=
  fun h _ hw => decode_wordOf (i := .brev p d a) hw ((major_03 _ _).trans (by simp [dec03])) h
theorem bswap (p : Pred) (d : BitVec 5) (a : BitVec 5) : Statement (.bswap p d a) :=
  fun h _ hw => decode_wordOf (i := .bswap p d a) hw ((major_03 _ _).trans (by simp [dec03])) h
theorem bfxZ (p : Pred) (d : BitVec 5) (a : BitVec 5) (b : BitVec 5) : Statement (.bfxZ p d a b) :=
  fun h _ hw => decode_wordOf (i := .bfxZ p d a b) hw ((major_03 _ _).trans (by simp [dec03])) h
theorem bfxS (p : Pred) (d : BitVec 5) (a : BitVec 5) (b : BitVec 5) : Statement (.bfxS p d a b) :=
  fun h _ hw => decode_wordOf (i := .bfxS p d a b) hw ((major_03 _ _).trans (by simp [dec03])) h
theorem bfi (p : Pred) (d : BitVec 5) (a : BitVec 5) (b : BitVec 5) : Statement (.bfi p d a b) :=
  fun h _ hw => decode_wordOf (i := .bfi p d a b) hw ((major_03 _ _).trans (by simp [dec03])) h
theorem extS8 (p : Pred) (d : BitVec 5) (a : BitVec 5) : Statement (.extS8 p d a) :=
  fun h _ hw => decode_wordOf (i := .extS8 p d a) hw ((major_03 _ _).trans (by simp [dec03])) h
theorem extS16 (p : Pred) (d : BitVec 5) (a : BitVec 5) : Statement (.extS16 p d a) :=
  fun h _ hw => decode_wordOf (i := .extS16 p d a) hw ((major_03 _ _).trans (by simp [dec03])) h
theorem extS32 (p : Pred) (d : BitVec 5) (a : BitVec 5) : Statement (.extS32 p d a) :=
  fun h _ hw => decode_wordOf (i := .extS32 p d a) hw ((major_03 _ _).trans (by simp [dec03])) h
theorem extZ8 (p : Pred) (d : BitVec 5) (a : BitVec 5) : Statement (.extZ8 p d a) :=
  fun h _ hw => decode_wordOf (i := .extZ8 p d a) hw ((major_03 _ _).trans (by simp [dec03])) h
theorem extZ16 (p : Pred) (d : BitVec 5) (a : BitVec 5) : Statement (.extZ16 p d a) :=
  fun h _ hw => decode_wordOf (i := .extZ16 p d a) hw ((major_03 _ _).trans (by simp [dec03])) h
theorem extZ32 (p : Pred) (d : BitVec 5) (a : BitVec 5) : Statement (.extZ32 p d a) :=
  fun h _ hw => decode_wordOf (i := .extZ32 p d a) hw ((major_03 _ _).trans (by simp [dec03])) h
theorem cmpEq (p : Pred) (d : BitVec 5) (a : BitVec 5) (b : BitVec 5) : Statement (.cmpEq p d a b) :=
  fun h _ hw => decode_wordOf (i := .cmpEq p d a b) hw ((major_04 _ _).trans (by simp [dec04])) h
theorem cmpNe (p : Pred) (d : BitVec 5) (a : BitVec 5) (b : BitVec 5) : Statement (.cmpNe p d a b) :=
  fun h _ hw => decode_wordOf (i := .cmpNe p d a b) hw ((major_04 _ _).trans (by simp [dec04])) h
theorem cmpLtS64 (p : Pred) (d : BitVec 5) (a : BitVec 5) (b : BitVec 5) : Statement (.cmpLtS64 p d a b) :=
  fun h _ hw => decode_wordOf (i := .cmpLtS64 p d a b) hw ((major_04 _ _).trans (by simp [dec04])) h
theorem cmpLtZ64 (p : Pred) (d : BitVec 5) (a : BitVec 5) (b : BitVec 5) : Statement (.cmpLtZ64 p d a b) :=
  fun h _ hw => decode_wordOf (i := .cmpLtZ64 p d a b) hw ((major_04 _ _).trans (by simp [dec04])) h
theorem cmpLeS64 (p : Pred) (d : BitVec 5) (a : BitVec 5) (b : BitVec 5) : Statement (.cmpLeS64 p d a b) :=
  fun h _ hw => decode_wordOf (i := .cmpLeS64 p d a b) hw ((major_04 _ _).trans (by simp [dec04])) h
theorem cmpLeZ64 (p : Pred) (d : BitVec 5) (a : BitVec 5) (b : BitVec 5) : Statement (.cmpLeZ64 p d a b) :=
  fun h _ hw => decode_wordOf (i := .cmpLeZ64 p d a b) hw ((major_04 _ _).trans (by simp [dec04])) h
theorem addl (p : Pred) (d : BitVec 5) (i : BitVec 15) : Statement (.addl p d i) :=
  fun h _ hw => decode_wordOf (i := .addl p d i) hw ((major_05 _ _).trans (by simp [dec05])) h
theorem addi (p : Pred) (d : BitVec 5) (a : BitVec 5) (i : BitVec 10) : Statement (.addi p d a i) :=
  fun h _ hw => decode_wordOf (i := .addi p d a i) hw ((major_06 _ _).trans (by simp [dec06])) h
theorem andi (p : Pred) (d : BitVec 5) (a : BitVec 5) (i : BitVec 10) : Statement (.andi p d a i) :=
  fun h _ hw => decode_wordOf (i := .andi p d a i) hw ((major_07 _ _).trans (by simp [dec07])) h
theorem ori (p : Pred) (d : BitVec 5) (a : BitVec 5) (i : BitVec 10) : Statement (.ori p d a i) :=
  fun h _ hw => decode_wordOf (i := .ori p d a i) hw ((major_08 _ _).trans (by simp [dec08])) h
theorem xori (p : Pred) (d : BitVec 5) (a : BitVec 5) (i : BitVec 10) : Statement (.xori p d a i) :=
  fun h _ hw => decode_wordOf (i := .xori p d a i) hw ((major_09 _ _).trans (by simp [dec09])) h
theorem shli (p : Pred) (d : BitVec 5) (a : BitVec 5) (c : BitVec 6) : Statement (.shli p d a c) :=
  fun h _ hw => decode_wordOf (i := .shli p d a c) hw ((major_0A _ _).trans (by simp [dec0A])) h
theorem shri (p : Pred) (d : BitVec 5) (a : BitVec 5) (c : BitVec 6) : Statement (.shri p d a c) :=
  fun h _ hw => decode_wordOf (i := .shri p d a c) hw ((major_0A _ _).trans (by simp [dec0A])) h
theorem sari (p : Pred) (d : BitVec 5) (a : BitVec 5) (c : BitVec 6) : Statement (.sari p d a c) :=
  fun h _ hw => decode_wordOf (i := .sari p d a c) hw ((major_0A _ _).trans (by simp [dec0A])) h
theorem rori (p : Pred) (d : BitVec 5) (a : BitVec 5) (c : BitVec 6) : Statement (.rori p d a c) :=
  fun h _ hw => decode_wordOf (i := .rori p d a c) hw ((major_0A _ _).trans (by simp [dec0A])) h
theorem cmpiEq (p : Pred) (d : BitVec 5) (a : BitVec 5) (i : BitVec 7) : Statement (.cmpiEq p d a i) :=
  fun h _ hw => decode_wordOf (i := .cmpiEq p d a i) hw ((major_0B _ _).trans (by simp [dec0B])) h
theorem cmpiNe (p : Pred) (d : BitVec 5) (a : BitVec 5) (i : BitVec 7) : Statement (.cmpiNe p d a i) :=
  fun h _ hw => decode_wordOf (i := .cmpiNe p d a i) hw ((major_0B _ _).trans (by simp [dec0B])) h
theorem cmpiLtS64 (p : Pred) (d : BitVec 5) (a : BitVec 5) (i : BitVec 7) : Statement (.cmpiLtS64 p d a i) :=
  fun h _ hw => decode_wordOf (i := .cmpiLtS64 p d a i) hw ((major_0B _ _).trans (by simp [dec0B])) h
theorem cmpiLtZ64 (p : Pred) (d : BitVec 5) (a : BitVec 5) (i : BitVec 7) : Statement (.cmpiLtZ64 p d a i) :=
  fun h _ hw => decode_wordOf (i := .cmpiLtZ64 p d a i) hw ((major_0B _ _).trans (by simp [dec0B])) h
theorem cmpiLeS64 (p : Pred) (d : BitVec 5) (a : BitVec 5) (i : BitVec 7) : Statement (.cmpiLeS64 p d a i) :=
  fun h _ hw => decode_wordOf (i := .cmpiLeS64 p d a i) hw ((major_0B _ _).trans (by simp [dec0B])) h
theorem cmpiLeZ64 (p : Pred) (d : BitVec 5) (a : BitVec 5) (i : BitVec 7) : Statement (.cmpiLeZ64 p d a i) :=
  fun h _ hw => decode_wordOf (i := .cmpiLeZ64 p d a i) hw ((major_0B _ _).trans (by simp [dec0B])) h
theorem cmpiGtS64 (p : Pred) (d : BitVec 5) (a : BitVec 5) (i : BitVec 7) : Statement (.cmpiGtS64 p d a i) :=
  fun h _ hw => decode_wordOf (i := .cmpiGtS64 p d a i) hw ((major_0B _ _).trans (by simp [dec0B])) h
theorem cmpiGtZ64 (p : Pred) (d : BitVec 5) (a : BitVec 5) (i : BitVec 7) : Statement (.cmpiGtZ64 p d a i) :=
  fun h _ hw => decode_wordOf (i := .cmpiGtZ64 p d a i) hw ((major_0B _ _).trans (by simp [dec0B])) h
theorem li (p : Pred) (d : BitVec 5) (i : BitVec 15) : Statement (.li p d i) :=
  fun h _ hw => decode_wordOf (i := .li p d i) hw ((major_0C _ _).trans (by simp [dec0C])) h
theorem lis (p : Pred) (d : BitVec 5) (i : BitVec 15) : Statement (.lis p d i) :=
  fun h _ hw => decode_wordOf (i := .lis p d i) hw ((major_0D _ _).trans (by simp [dec0D])) h
theorem addpc (p : Pred) (d : BitVec 5) (i : BitVec 15) : Statement (.addpc p d i) :=
  fun h _ hw => decode_wordOf (i := .addpc p d i) hw ((major_0E _ _).trans (by simp [dec0E])) h
theorem addpch (p : Pred) (d : BitVec 5) (i : BitVec 15) : Statement (.addpch p d i) :=
  fun h _ hw => decode_wordOf (i := .addpch p d i) hw ((major_0F _ _).trans (by simp [dec0F])) h
theorem faddD (p : Pred) (d : BitVec 5) (a : BitVec 5) (b : BitVec 5) : Statement (.faddD p d a b) :=
  fun h _ hw => decode_wordOf (i := .faddD p d a b) hw ((major_10 _ _).trans (by simp [dec10])) h
theorem fsubD (p : Pred) (d : BitVec 5) (a : BitVec 5) (b : BitVec 5) : Statement (.fsubD p d a b) :=
  fun h _ hw => decode_wordOf (i := .fsubD p d a b) hw ((major_10 _ _).trans (by simp [dec10])) h
theorem fmulD (p : Pred) (d : BitVec 5) (a : BitVec 5) (b : BitVec 5) : Statement (.fmulD p d a b) :=
  fun h _ hw => decode_wordOf (i := .fmulD p d a b) hw ((major_10 _ _).trans (by simp [dec10])) h
theorem fdivD (p : Pred) (d : BitVec 5) (a : BitVec 5) (b : BitVec 5) : Statement (.fdivD p d a b) :=
  fun h _ hw => decode_wordOf (i := .fdivD p d a b) hw ((major_10 _ _).trans (by simp [dec10])) h
theorem fsqrtD (p : Pred) (d : BitVec 5) (a : BitVec 5) : Statement (.fsqrtD p d a) :=
  fun h _ hw => decode_wordOf (i := .fsqrtD p d a) hw ((major_10 _ _).trans (by simp [dec10])) h
theorem fminD (p : Pred) (d : BitVec 5) (a : BitVec 5) (b : BitVec 5) : Statement (.fminD p d a b) :=
  fun h _ hw => decode_wordOf (i := .fminD p d a b) hw ((major_10 _ _).trans (by simp [dec10])) h
theorem fmaxD (p : Pred) (d : BitVec 5) (a : BitVec 5) (b : BitVec 5) : Statement (.fmaxD p d a b) :=
  fun h _ hw => decode_wordOf (i := .fmaxD p d a b) hw ((major_10 _ _).trans (by simp [dec10])) h
theorem fabsD (p : Pred) (d : BitVec 5) (a : BitVec 5) : Statement (.fabsD p d a) :=
  fun h _ hw => decode_wordOf (i := .fabsD p d a) hw ((major_10 _ _).trans (by simp [dec10])) h
theorem fnegD (p : Pred) (d : BitVec 5) (a : BitVec 5) : Statement (.fnegD p d a) :=
  fun h _ hw => decode_wordOf (i := .fnegD p d a) hw ((major_10 _ _).trans (by simp [dec10])) h
theorem faddF (p : Pred) (d : BitVec 5) (a : BitVec 5) (b : BitVec 5) : Statement (.faddF p d a b) :=
  fun h _ hw => decode_wordOf (i := .faddF p d a b) hw ((major_11 _ _).trans (by simp [dec11])) h
theorem fsubF (p : Pred) (d : BitVec 5) (a : BitVec 5) (b : BitVec 5) : Statement (.fsubF p d a b) :=
  fun h _ hw => decode_wordOf (i := .fsubF p d a b) hw ((major_11 _ _).trans (by simp [dec11])) h
theorem fmulF (p : Pred) (d : BitVec 5) (a : BitVec 5) (b : BitVec 5) : Statement (.fmulF p d a b) :=
  fun h _ hw => decode_wordOf (i := .fmulF p d a b) hw ((major_11 _ _).trans (by simp [dec11])) h
theorem fdivF (p : Pred) (d : BitVec 5) (a : BitVec 5) (b : BitVec 5) : Statement (.fdivF p d a b) :=
  fun h _ hw => decode_wordOf (i := .fdivF p d a b) hw ((major_11 _ _).trans (by simp [dec11])) h
theorem fsqrtF (p : Pred) (d : BitVec 5) (a : BitVec 5) : Statement (.fsqrtF p d a) :=
  fun h _ hw => decode_wordOf (i := .fsqrtF p d a) hw ((major_11 _ _).trans (by simp [dec11])) h
theorem fminF (p : Pred) (d : BitVec 5) (a : BitVec 5) (b : BitVec 5) : Statement (.fminF p d a b) :=
  fun h _ hw => decode_wordOf (i := .fminF p d a b) hw ((major_11 _ _).trans (by simp [dec11])) h
theorem fmaxF (p : Pred) (d : BitVec 5) (a : BitVec 5) (b : BitVec 5) : Statement (.fmaxF p d a b) :=
  fun h _ hw => decode_wordOf (i := .fmaxF p d a b) hw ((major_11 _ _).trans (by simp [dec11])) h
theorem fabsF (p : Pred) (d : BitVec 5) (a : BitVec 5) : Statement (.fabsF p d a) :=
  fun h _ hw => decode_wordOf (i := .fabsF p d a) hw ((major_11 _ _).trans (by simp [dec11])) h
theorem fnegF (p : Pred) (d : BitVec 5) (a : BitVec 5) : Statement (.fnegF p d a) :=
  fun h _ hw => decode_wordOf (i := .fnegF p d a) hw ((major_11 _ _).trans (by simp [dec11])) h
theorem fmaD (p : Pred) (d : BitVec 5) (a : BitVec 5) (b : BitVec 5) : Statement (.fmaD p d a b) :=
  fun h _ hw => decode_wordOf (i := .fmaD p d a b) hw ((major_12 _ _).trans (by simp [dec12])) h
theorem fmsD (p : Pred) (d : BitVec 5) (a : BitVec 5) (b : BitVec 5) : Statement (.fmsD p d a b) :=
  fun h _ hw => decode_wordOf (i := .fmsD p d a b) hw ((major_12 _ _).trans (by simp [dec12])) h
theorem fmaF (p : Pred) (d : BitVec 5) (a : BitVec 5) (b : BitVec 5) : Statement (.fmaF p d a b) :=
  fun h _ hw => decode_wordOf (i := .fmaF p d a b) hw ((major_12 _ _).trans (by simp [dec12])) h
theorem fmsF (p : Pred) (d : BitVec 5) (a : BitVec 5) (b : BitVec 5) : Statement (.fmsF p d a b) :=
  fun h _ hw => decode_wordOf (i := .fmsF p d a b) hw ((major_12 _ _).trans (by simp [dec12])) h
theorem fcmpEqD (p : Pred) (d : BitVec 5) (a : BitVec 5) (b : BitVec 5) : Statement (.fcmpEqD p d a b) :=
  fun h _ hw => decode_wordOf (i := .fcmpEqD p d a b) hw ((major_13 _ _).trans (by simp [dec13])) h
theorem fcmpLtD (p : Pred) (d : BitVec 5) (a : BitVec 5) (b : BitVec 5) : Statement (.fcmpLtD p d a b) :=
  fun h _ hw => decode_wordOf (i := .fcmpLtD p d a b) hw ((major_13 _ _).trans (by simp [dec13])) h
theorem fcmpLeD (p : Pred) (d : BitVec 5) (a : BitVec 5) (b : BitVec 5) : Statement (.fcmpLeD p d a b) :=
  fun h _ hw => decode_wordOf (i := .fcmpLeD p d a b) hw ((major_13 _ _).trans (by simp [dec13])) h
theorem fcmpUnD (p : Pred) (d : BitVec 5) (a : BitVec 5) (b : BitVec 5) : Statement (.fcmpUnD p d a b) :=
  fun h _ hw => decode_wordOf (i := .fcmpUnD p d a b) hw ((major_13 _ _).trans (by simp [dec13])) h
theorem fcmpEqF (p : Pred) (d : BitVec 5) (a : BitVec 5) (b : BitVec 5) : Statement (.fcmpEqF p d a b) :=
  fun h _ hw => decode_wordOf (i := .fcmpEqF p d a b) hw ((major_13 _ _).trans (by simp [dec13])) h
theorem fcmpLtF (p : Pred) (d : BitVec 5) (a : BitVec 5) (b : BitVec 5) : Statement (.fcmpLtF p d a b) :=
  fun h _ hw => decode_wordOf (i := .fcmpLtF p d a b) hw ((major_13 _ _).trans (by simp [dec13])) h
theorem fcmpLeF (p : Pred) (d : BitVec 5) (a : BitVec 5) (b : BitVec 5) : Statement (.fcmpLeF p d a b) :=
  fun h _ hw => decode_wordOf (i := .fcmpLeF p d a b) hw ((major_13 _ _).trans (by simp [dec13])) h
theorem fcmpUnF (p : Pred) (d : BitVec 5) (a : BitVec 5) (b : BitVec 5) : Statement (.fcmpUnF p d a b) :=
  fun h _ hw => decode_wordOf (i := .fcmpUnF p d a b) hw ((major_13 _ _).trans (by simp [dec13])) h
theorem cvtFD (p : Pred) (d : BitVec 5) (a : BitVec 5) (r : BitVec 5) : Statement (.cvtFD p d a r) :=
  fun h _ hw => decode_wordOf (i := .cvtFD p d a r) hw ((major_14 _ _).trans (by simp [dec14])) h
theorem cvtDF (p : Pred) (d : BitVec 5) (a : BitVec 5) : Statement (.cvtDF p d a) :=
  fun h _ hw => decode_wordOf (i := .cvtDF p d a) hw ((major_14 _ _).trans (by simp [dec14])) h
theorem cvtDS64 (p : Pred) (d : BitVec 5) (a : BitVec 5) (r : BitVec 5) : Statement (.cvtDS64 p d a r) :=
  fun h _ hw => decode_wordOf (i := .cvtDS64 p d a r) hw ((major_14 _ _).trans (by simp [dec14])) h
theorem cvtDZ64 (p : Pred) (d : BitVec 5) (a : BitVec 5) (r : BitVec 5) : Statement (.cvtDZ64 p d a r) :=
  fun h _ hw => decode_wordOf (i := .cvtDZ64 p d a r) hw ((major_14 _ _).trans (by simp [dec14])) h
theorem cvtS64D (p : Pred) (d : BitVec 5) (a : BitVec 5) (r : BitVec 5) : Statement (.cvtS64D p d a r) :=
  fun h _ hw => decode_wordOf (i := .cvtS64D p d a r) hw ((major_14 _ _).trans (by simp [dec14])) h
theorem cvtZ64D (p : Pred) (d : BitVec 5) (a : BitVec 5) (r : BitVec 5) : Statement (.cvtZ64D p d a r) :=
  fun h _ hw => decode_wordOf (i := .cvtZ64D p d a r) hw ((major_14 _ _).trans (by simp [dec14])) h
theorem cvtFS64 (p : Pred) (d : BitVec 5) (a : BitVec 5) (r : BitVec 5) : Statement (.cvtFS64 p d a r) :=
  fun h _ hw => decode_wordOf (i := .cvtFS64 p d a r) hw ((major_14 _ _).trans (by simp [dec14])) h
theorem cvtS64F (p : Pred) (d : BitVec 5) (a : BitVec 5) (r : BitVec 5) : Statement (.cvtS64F p d a r) :=
  fun h _ hw => decode_wordOf (i := .cvtS64F p d a r) hw ((major_14 _ _).trans (by simp [dec14])) h
theorem cvtFZ64 (p : Pred) (d : BitVec 5) (a : BitVec 5) (r : BitVec 5) : Statement (.cvtFZ64 p d a r) :=
  fun h _ hw => decode_wordOf (i := .cvtFZ64 p d a r) hw ((major_14 _ _).trans (by simp [dec14])) h
theorem cvtZ64F (p : Pred) (d : BitVec 5) (a : BitVec 5) (r : BitVec 5) : Statement (.cvtZ64F p d a r) :=
  fun h _ hw => decode_wordOf (i := .cvtZ64F p d a r) hw ((major_14 _ _).trans (by simp [dec14])) h
theorem fclassD (p : Pred) (d : BitVec 5) (a : BitVec 5) : Statement (.fclassD p d a) :=
  fun h _ hw => decode_wordOf (i := .fclassD p d a) hw ((major_15 _ _).trans (by simp [dec15])) h
theorem fclassF (p : Pred) (d : BitVec 5) (a : BitVec 5) : Statement (.fclassF p d a) :=
  fun h _ hw => decode_wordOf (i := .fclassF p d a) hw ((major_15 _ _).trans (by simp [dec15])) h
theorem br (p : Pred) (i : BitVec 20) : Statement (.br p i) :=
  fun h _ hw => decode_wordOf (i := .br p i) hw ((major_18 _ _).trans (by simp [dec18])) h
theorem call (p : Pred) (i : BitVec 20) : Statement (.call p i) :=
  fun h _ hw => decode_wordOf (i := .call p i) hw ((major_19 _ _).trans (by simp [dec19])) h
theorem jmp (p : Pred) (a : BitVec 5) : Statement (.jmp p a) :=
  fun h _ hw => decode_wordOf (i := .jmp p a) hw ((major_1A _ _).trans (by simp [dec1A])) h
theorem callr (p : Pred) (d : BitVec 5) (a : BitVec 5) : Statement (.callr p d a) :=
  fun h _ hw => decode_wordOf (i := .callr p d a) hw ((major_1A _ _).trans (by simp [dec1A])) h
theorem loop (p : Pred) (d : BitVec 5) (i : BitVec 15) : Statement (.loop p d i) :=
  fun h _ hw => decode_wordOf (i := .loop p d i) hw ((major_1B _ _).trans (by simp [dec1B])) h
theorem bany (p : Pred) (g : BitVec 4) (i : BitVec 15) : Statement (.bany p g i) :=
  fun h _ hw => decode_wordOf (i := .bany p g i) hw ((major_1C _ _).trans (by simp [dec1C])) h
theorem ball (p : Pred) (g : BitVec 4) (i : BitVec 15) : Statement (.ball p g i) :=
  fun h _ hw => decode_wordOf (i := .ball p g i) hw ((major_1C _ _).trans (by simp [dec1C])) h
theorem mfs (p : Pred) (d : BitVec 5) (c : BitVec 15) : Statement (.mfs p d c) :=
  fun h _ hw => decode_wordOf (i := .mfs p d c) hw ((major_20 _ _).trans (by simp [dec20])) h
theorem mts (p : Pred) (d : BitVec 5) (c : BitVec 15) : Statement (.mts p d c) :=
  fun h _ hw => decode_wordOf (i := .mts p d c) hw ((major_21 _ _).trans (by simp [dec21])) h
theorem eret (p : Pred) : Statement (.eret p) :=
  fun h _ hw => decode_wordOf (i := .eret p) hw ((major_22 _ _).trans (by simp [dec22])) h
theorem brk (p : Pred) : Statement (.brk p) :=
  fun h _ hw => decode_wordOf (i := .brk p) hw ((major_22 _ _).trans (by simp [dec22])) h
theorem halt (p : Pred) : Statement (.halt p) :=
  fun h _ hw => decode_wordOf (i := .halt p) hw ((major_22 _ _).trans (by simp [dec22])) h
theorem drainSt (p : Pred) : Statement (.drainSt p) :=
  fun h _ hw => decode_wordOf (i := .drainSt p) hw ((major_22 _ _).trans (by simp [dec22])) h
theorem fenceI (p : Pred) : Statement (.fenceI p) :=
  fun h _ hw => decode_wordOf (i := .fenceI p) hw ((major_22 _ _).trans (by simp [dec22])) h
theorem tlbwWriteEntry (p : Pred) (a : BitVec 5) (b : BitVec 5) : Statement (.tlbwWriteEntry p a b) :=
  fun h _ hw => decode_wordOf (i := .tlbwWriteEntry p a b) hw ((major_22 _ _).trans (by simp [dec22])) h
theorem tlbwInvalidatePage (p : Pred) (a : BitVec 5) (b : BitVec 5) : Statement (.tlbwInvalidatePage p a b) :=
  tlbwWriteEntry p a b
theorem tlbwFailMiss (p : Pred) (a : BitVec 5) (b : BitVec 5) : Statement (.tlbwFailMiss p a b) :=
  tlbwWriteEntry p a b
theorem tlbwInvalidateContext (p : Pred) (a : BitVec 5) (b : BitVec 5) : Statement (.tlbwInvalidateContext p a b) :=
  tlbwWriteEntry p a b
theorem sleep (p : Pred) : Statement (.sleep p) :=
  fun h _ hw => decode_wordOf (i := .sleep p) hw ((major_22 _ _).trans (by simp [dec22])) h
theorem nop (p : Pred) : Statement (.nop p) :=
  fun h _ hw => decode_wordOf (i := .nop p) hw ((major_22 _ _).trans (by simp [dec22])) h
theorem trap (p : Pred) (i : BitVec 10) : Statement (.trap p i) :=
  fun h _ hw => decode_wordOf (i := .trap p i) hw ((major_23 _ _).trans (by simp [dec23])) h
theorem ld (p : Pred) (t : BitVec 5) (b : BitVec 5) (l : BitVec 4) (o : BitVec 6) : Statement (.ld p t b l o) :=
  fun h _ hw => decode_wordOf (i := .ld p t b l o) hw ((major_28 _ _).trans (by simp [dec28])) h
theorem ldS32 (p : Pred) (t : BitVec 5) (b : BitVec 5) (l : BitVec 4) (o : BitVec 6) : Statement (.ldS32 p t b l o) :=
  fun h _ hw => decode_wordOf (i := .ldS32 p t b l o) hw ((major_29 _ _).trans (by simp [dec29])) h
theorem ldZ32 (p : Pred) (t : BitVec 5) (b : BitVec 5) (l : BitVec 4) (o : BitVec 6) : Statement (.ldZ32 p t b l o) :=
  fun h _ hw => decode_wordOf (i := .ldZ32 p t b l o) hw ((major_2A _ _).trans (by simp [dec2A])) h
theorem ldS16 (p : Pred) (t : BitVec 5) (b : BitVec 5) (l : BitVec 4) (o : BitVec 6) : Statement (.ldS16 p t b l o) :=
  fun h _ hw => decode_wordOf (i := .ldS16 p t b l o) hw ((major_2B _ _).trans (by simp [dec2B])) h
theorem ldZ16 (p : Pred) (t : BitVec 5) (b : BitVec 5) (l : BitVec 4) (o : BitVec 6) : Statement (.ldZ16 p t b l o) :=
  fun h _ hw => decode_wordOf (i := .ldZ16 p t b l o) hw ((major_2C _ _).trans (by simp [dec2C])) h
theorem ldS8 (p : Pred) (t : BitVec 5) (b : BitVec 5) (l : BitVec 4) (o : BitVec 6) : Statement (.ldS8 p t b l o) :=
  fun h _ hw => decode_wordOf (i := .ldS8 p t b l o) hw ((major_2D _ _).trans (by simp [dec2D])) h
theorem ldZ8 (p : Pred) (t : BitVec 5) (b : BitVec 5) (l : BitVec 4) (o : BitVec 6) : Statement (.ldZ8 p t b l o) :=
  fun h _ hw => decode_wordOf (i := .ldZ8 p t b l o) hw ((major_2E _ _).trans (by simp [dec2E])) h
theorem st (p : Pred) (t : BitVec 5) (b : BitVec 5) (o : BitVec 6) : Statement (.st p t b o) :=
  fun h _ hw => decode_wordOf (i := .st p t b o) hw ((major_2F _ _).trans (by simp [dec2F])) h
theorem st32 (p : Pred) (t : BitVec 5) (b : BitVec 5) (o : BitVec 6) : Statement (.st32 p t b o) :=
  fun h _ hw => decode_wordOf (i := .st32 p t b o) hw ((major_30 _ _).trans (by simp [dec30])) h
theorem st16 (p : Pred) (t : BitVec 5) (b : BitVec 5) (o : BitVec 6) : Statement (.st16 p t b o) :=
  fun h _ hw => decode_wordOf (i := .st16 p t b o) hw ((major_31 _ _).trans (by simp [dec31])) h
theorem st8 (p : Pred) (t : BitVec 5) (b : BitVec 5) (o : BitVec 6) : Statement (.st8 p t b o) :=
  fun h _ hw => decode_wordOf (i := .st8 p t b o) hw ((major_32 _ _).trans (by simp [dec32])) h
theorem ldW (p : Pred) (t : BitVec 5) (b : BitVec 5) (l : BitVec 4) (o : BitVec 6) : Statement (.ldW p t b l o) :=
  fun h _ hw => decode_wordOf (i := .ldW p t b l o) hw ((major_33 _ _).trans (by simp [dec33])) h
theorem ldT (p : Pred) (t : BitVec 5) (b : BitVec 5) (l : BitVec 4) (o : BitVec 6) : Statement (.ldT p t b l o) :=
  fun h _ hw => decode_wordOf (i := .ldT p t b l o) hw ((major_34 _ _).trans (by simp [dec34])) h
theorem stF (p : Pred) (t : BitVec 5) (b : BitVec 5) (o : BitVec 6) : Statement (.stF p t b o) :=
  fun h _ hw => decode_wordOf (i := .stF p t b o) hw ((major_35 _ _).trans (by simp [dec35])) h
theorem stS (p : Pred) (t : BitVec 5) (b : BitVec 5) (o : BitVec 6) : Statement (.stS p t b o) :=
  fun h _ hw => decode_wordOf (i := .stS p t b o) hw ((major_36 _ _).trans (by simp [dec36])) h
theorem feProbe (p : Pred) (t : BitVec 5) (b : BitVec 5) (l : BitVec 4) (o : BitVec 6) : Statement (.feProbe p t b l o) :=
  fun h _ hw => decode_wordOf (i := .feProbe p t b l o) hw ((major_37 _ _).trans (by simp [dec37])) h
theorem feClr (p : Pred) (b : BitVec 5) (o : BitVec 6) : Statement (.feClr p b o) :=
  fun h _ hw => decode_wordOf (i := .feClr p b o) hw ((major_38 _ _).trans (by simp [dec38])) h
theorem amoAdd (p : Pred) (x : BitVec 5) (y : BitVec 5) (l : BitVec 4) : Statement (.amoAdd p x y l) :=
  fun h _ hw => decode_wordOf (i := .amoAdd p x y l) hw ((major_39 _ _).trans (by simp [dec39])) h
theorem amoAnd (p : Pred) (x : BitVec 5) (y : BitVec 5) (l : BitVec 4) : Statement (.amoAnd p x y l) :=
  fun h _ hw => decode_wordOf (i := .amoAnd p x y l) hw ((major_39 _ _).trans (by simp [dec39])) h
theorem amoOr (p : Pred) (x : BitVec 5) (y : BitVec 5) (l : BitVec 4) : Statement (.amoOr p x y l) :=
  fun h _ hw => decode_wordOf (i := .amoOr p x y l) hw ((major_39 _ _).trans (by simp [dec39])) h
theorem amoXor (p : Pred) (x : BitVec 5) (y : BitVec 5) (l : BitVec 4) : Statement (.amoXor p x y l) :=
  fun h _ hw => decode_wordOf (i := .amoXor p x y l) hw ((major_39 _ _).trans (by simp [dec39])) h
theorem amoMinS64 (p : Pred) (x : BitVec 5) (y : BitVec 5) (l : BitVec 4) : Statement (.amoMinS64 p x y l) :=
  fun h _ hw => decode_wordOf (i := .amoMinS64 p x y l) hw ((major_39 _ _).trans (by simp [dec39])) h
theorem amoMaxS64 (p : Pred) (x : BitVec 5) (y : BitVec 5) (l : BitVec 4) : Statement (.amoMaxS64 p x y l) :=
  fun h _ hw => decode_wordOf (i := .amoMaxS64 p x y l) hw ((major_39 _ _).trans (by simp [dec39])) h
theorem amoMinZ64 (p : Pred) (x : BitVec 5) (y : BitVec 5) (l : BitVec 4) : Statement (.amoMinZ64 p x y l) :=
  fun h _ hw => decode_wordOf (i := .amoMinZ64 p x y l) hw ((major_39 _ _).trans (by simp [dec39])) h
theorem amoMaxZ64 (p : Pred) (x : BitVec 5) (y : BitVec 5) (l : BitVec 4) : Statement (.amoMaxZ64 p x y l) :=
  fun h _ hw => decode_wordOf (i := .amoMaxZ64 p x y l) hw ((major_39 _ _).trans (by simp [dec39])) h
theorem amoSwap (p : Pred) (x : BitVec 5) (y : BitVec 5) (l : BitVec 4) : Statement (.amoSwap p x y l) :=
  fun h _ hw => decode_wordOf (i := .amoSwap p x y l) hw ((major_39 _ _).trans (by simp [dec39])) h
theorem amoCas (p : Pred) (x : BitVec 4) (y : BitVec 5) (l : BitVec 4) : Statement (.amoCas p x y l) :=
  fun h _ hw => decode_wordOf (i := .amoCas p x y l) hw ((major_39 _ _).trans (by simp [dec39])) h
theorem redAdd (p : Pred) (x : BitVec 5) (y : BitVec 5) : Statement (.redAdd p x y) :=
  fun h _ hw => decode_wordOf (i := .redAdd p x y) hw ((major_3A _ _).trans (by simp [dec3A])) h
theorem redAnd (p : Pred) (x : BitVec 5) (y : BitVec 5) : Statement (.redAnd p x y) :=
  fun h _ hw => decode_wordOf (i := .redAnd p x y) hw ((major_3A _ _).trans (by simp [dec3A])) h
theorem redOr (p : Pred) (x : BitVec 5) (y : BitVec 5) : Statement (.redOr p x y) :=
  fun h _ hw => decode_wordOf (i := .redOr p x y) hw ((major_3A _ _).trans (by simp [dec3A])) h
theorem redMinS64 (p : Pred) (x : BitVec 5) (y : BitVec 5) : Statement (.redMinS64 p x y) :=
  fun h _ hw => decode_wordOf (i := .redMinS64 p x y) hw ((major_3A _ _).trans (by simp [dec3A])) h
theorem redMaxS64 (p : Pred) (x : BitVec 5) (y : BitVec 5) : Statement (.redMaxS64 p x y) :=
  fun h _ hw => decode_wordOf (i := .redMaxS64 p x y) hw ((major_3A _ _).trans (by simp [dec3A])) h
theorem redMinZ64 (p : Pred) (x : BitVec 5) (y : BitVec 5) : Statement (.redMinZ64 p x y) :=
  fun h _ hw => decode_wordOf (i := .redMinZ64 p x y) hw ((major_3A _ _).trans (by simp [dec3A])) h
theorem redMaxZ64 (p : Pred) (x : BitVec 5) (y : BitVec 5) : Statement (.redMaxZ64 p x y) :=
  fun h _ hw => decode_wordOf (i := .redMaxZ64 p x y) hw ((major_3A _ _).trans (by simp [dec3A])) h
theorem rfence (p : Pred) : Statement (.rfence p) :=
  fun h _ hw => decode_wordOf (i := .rfence p) hw ((major_3A _ _).trans (by simp [dec3A])) h
theorem cpPlain (p : Pred) (d : BitVec 5) (a : BitVec 5) (b : BitVec 5) : Statement (.cpPlain p d a b) :=
  fun h _ hw => decode_wordOf (i := .cpPlain p d a b) hw ((major_3B _ _).trans (by simp [dec3B])) h
theorem cpCopy (p : Pred) (d : BitVec 5) (a : BitVec 5) (b : BitVec 5) : Statement (.cpCopy p d a b) :=
  fun h _ hw => decode_wordOf (i := .cpCopy p d a b) hw ((major_3B _ _).trans (by simp [dec3B])) h
theorem cpFill (p : Pred) (d : BitVec 5) (a : BitVec 5) (b : BitVec 5) : Statement (.cpFill p d a b) :=
  fun h _ hw => decode_wordOf (i := .cpFill p d a b) hw ((major_3B _ _).trans (by simp [dec3B])) h
theorem cpNeed (p : Pred) (d : BitVec 5) (a : BitVec 5) (b : BitVec 5) : Statement (.cpNeed p d a b) :=
  fun h _ hw => decode_wordOf (i := .cpNeed p d a b) hw ((major_3B _ _).trans (by simp [dec3B])) h
theorem cpTake (p : Pred) (d : BitVec 5) (a : BitVec 5) (b : BitVec 5) : Statement (.cpTake p d a b) :=
  fun h _ hw => decode_wordOf (i := .cpTake p d a b) hw ((major_3B _ _).trans (by simp [dec3B])) h
theorem cbatch (p : Pred) (d : BitVec 5) : Statement (.cbatch p d) :=
  fun h _ hw => decode_wordOf (i := .cbatch p d) hw ((major_3C _ _).trans (by simp [dec3C])) h
theorem cwait (p : Pred) (a : BitVec 5) : Statement (.cwait p a) :=
  fun h _ hw => decode_wordOf (i := .cwait p a) hw ((major_3C _ _).trans (by simp [dec3C])) h
theorem xfence (p : Pred) : Statement (.xfence p) :=
  fun h _ hw => decode_wordOf (i := .xfence p) hw ((major_3C _ _).trans (by simp [dec3C])) h
theorem vAdd (p : Pred) (d : BitVec 5) (a : BitVec 5) (b : BitVec 5) : Statement (.vAdd p d a b) :=
  fun h _ hw => decode_wordOf (i := .vAdd p d a b) hw ((major_40 _ _).trans (by simp [dec40])) h
theorem vSub (p : Pred) (d : BitVec 5) (a : BitVec 5) (b : BitVec 5) : Statement (.vSub p d a b) :=
  fun h _ hw => decode_wordOf (i := .vSub p d a b) hw ((major_40 _ _).trans (by simp [dec40])) h
theorem vMul (p : Pred) (d : BitVec 5) (a : BitVec 5) (b : BitVec 5) : Statement (.vMul p d a b) :=
  fun h _ hw => decode_wordOf (i := .vMul p d a b) hw ((major_40 _ _).trans (by simp [dec40])) h
theorem vMulhS32 (p : Pred) (d : BitVec 5) (a : BitVec 5) (b : BitVec 5) : Statement (.vMulhS32 p d a b) :=
  fun h _ hw => decode_wordOf (i := .vMulhS32 p d a b) hw ((major_40 _ _).trans (by simp [dec40])) h
theorem vMulhZ32 (p : Pred) (d : BitVec 5) (a : BitVec 5) (b : BitVec 5) : Statement (.vMulhZ32 p d a b) :=
  fun h _ hw => decode_wordOf (i := .vMulhZ32 p d a b) hw ((major_40 _ _).trans (by simp [dec40])) h
theorem vAnd (p : Pred) (d : BitVec 5) (a : BitVec 5) (b : BitVec 5) : Statement (.vAnd p d a b) :=
  fun h _ hw => decode_wordOf (i := .vAnd p d a b) hw ((major_40 _ _).trans (by simp [dec40])) h
theorem vOr (p : Pred) (d : BitVec 5) (a : BitVec 5) (b : BitVec 5) : Statement (.vOr p d a b) :=
  fun h _ hw => decode_wordOf (i := .vOr p d a b) hw ((major_40 _ _).trans (by simp [dec40])) h
theorem vXor (p : Pred) (d : BitVec 5) (a : BitVec 5) (b : BitVec 5) : Statement (.vXor p d a b) :=
  fun h _ hw => decode_wordOf (i := .vXor p d a b) hw ((major_40 _ _).trans (by simp [dec40])) h
theorem vShl (p : Pred) (d : BitVec 5) (a : BitVec 5) (b : BitVec 5) : Statement (.vShl p d a b) :=
  fun h _ hw => decode_wordOf (i := .vShl p d a b) hw ((major_40 _ _).trans (by simp [dec40])) h
theorem vShr (p : Pred) (d : BitVec 5) (a : BitVec 5) (b : BitVec 5) : Statement (.vShr p d a b) :=
  fun h _ hw => decode_wordOf (i := .vShr p d a b) hw ((major_40 _ _).trans (by simp [dec40])) h
theorem vSar (p : Pred) (d : BitVec 5) (a : BitVec 5) (b : BitVec 5) : Statement (.vSar p d a b) :=
  fun h _ hw => decode_wordOf (i := .vSar p d a b) hw ((major_40 _ _).trans (by simp [dec40])) h
theorem vMinS32 (p : Pred) (d : BitVec 5) (a : BitVec 5) (b : BitVec 5) : Statement (.vMinS32 p d a b) :=
  fun h _ hw => decode_wordOf (i := .vMinS32 p d a b) hw ((major_40 _ _).trans (by simp [dec40])) h
theorem vMinZ32 (p : Pred) (d : BitVec 5) (a : BitVec 5) (b : BitVec 5) : Statement (.vMinZ32 p d a b) :=
  fun h _ hw => decode_wordOf (i := .vMinZ32 p d a b) hw ((major_40 _ _).trans (by simp [dec40])) h
theorem vMaxS32 (p : Pred) (d : BitVec 5) (a : BitVec 5) (b : BitVec 5) : Statement (.vMaxS32 p d a b) :=
  fun h _ hw => decode_wordOf (i := .vMaxS32 p d a b) hw ((major_40 _ _).trans (by simp [dec40])) h
theorem vMaxZ32 (p : Pred) (d : BitVec 5) (a : BitVec 5) (b : BitVec 5) : Statement (.vMaxZ32 p d a b) :=
  fun h _ hw => decode_wordOf (i := .vMaxZ32 p d a b) hw ((major_40 _ _).trans (by simp [dec40])) h
theorem vAddsS32 (p : Pred) (d : BitVec 5) (a : BitVec 5) (b : BitVec 5) : Statement (.vAddsS32 p d a b) :=
  fun h _ hw => decode_wordOf (i := .vAddsS32 p d a b) hw ((major_40 _ _).trans (by simp [dec40])) h
theorem vSubsS32 (p : Pred) (d : BitVec 5) (a : BitVec 5) (b : BitVec 5) : Statement (.vSubsS32 p d a b) :=
  fun h _ hw => decode_wordOf (i := .vSubsS32 p d a b) hw ((major_40 _ _).trans (by simp [dec40])) h
theorem vAbsS32 (p : Pred) (d : BitVec 5) (a : BitVec 5) : Statement (.vAbsS32 p d a) :=
  fun h _ hw => decode_wordOf (i := .vAbsS32 p d a) hw ((major_40 _ _).trans (by simp [dec40])) h
theorem vFaddF (p : Pred) (d : BitVec 5) (a : BitVec 5) (b : BitVec 5) : Statement (.vFaddF p d a b) :=
  fun h _ hw => decode_wordOf (i := .vFaddF p d a b) hw ((major_41 _ _).trans (by simp [dec41])) h
theorem vFsubF (p : Pred) (d : BitVec 5) (a : BitVec 5) (b : BitVec 5) : Statement (.vFsubF p d a b) :=
  fun h _ hw => decode_wordOf (i := .vFsubF p d a b) hw ((major_41 _ _).trans (by simp [dec41])) h
theorem vFmulF (p : Pred) (d : BitVec 5) (a : BitVec 5) (b : BitVec 5) : Statement (.vFmulF p d a b) :=
  fun h _ hw => decode_wordOf (i := .vFmulF p d a b) hw ((major_41 _ _).trans (by simp [dec41])) h
theorem vFdivF (p : Pred) (d : BitVec 5) (a : BitVec 5) (b : BitVec 5) : Statement (.vFdivF p d a b) :=
  fun h _ hw => decode_wordOf (i := .vFdivF p d a b) hw ((major_41 _ _).trans (by simp [dec41])) h
theorem vFsqrtF (p : Pred) (d : BitVec 5) (a : BitVec 5) : Statement (.vFsqrtF p d a) :=
  fun h _ hw => decode_wordOf (i := .vFsqrtF p d a) hw ((major_41 _ _).trans (by simp [dec41])) h
theorem vFminF (p : Pred) (d : BitVec 5) (a : BitVec 5) (b : BitVec 5) : Statement (.vFminF p d a b) :=
  fun h _ hw => decode_wordOf (i := .vFminF p d a b) hw ((major_41 _ _).trans (by simp [dec41])) h
theorem vFmaxF (p : Pred) (d : BitVec 5) (a : BitVec 5) (b : BitVec 5) : Statement (.vFmaxF p d a b) :=
  fun h _ hw => decode_wordOf (i := .vFmaxF p d a b) hw ((major_41 _ _).trans (by simp [dec41])) h
theorem vFabsF (p : Pred) (d : BitVec 5) (a : BitVec 5) : Statement (.vFabsF p d a) :=
  fun h _ hw => decode_wordOf (i := .vFabsF p d a) hw ((major_41 _ _).trans (by simp [dec41])) h
theorem vFnegF (p : Pred) (d : BitVec 5) (a : BitVec 5) : Statement (.vFnegF p d a) :=
  fun h _ hw => decode_wordOf (i := .vFnegF p d a) hw ((major_41 _ _).trans (by simp [dec41])) h
theorem vFmaF (p : Pred) (d : BitVec 5) (a : BitVec 5) (b : BitVec 5) : Statement (.vFmaF p d a b) :=
  fun h _ hw => decode_wordOf (i := .vFmaF p d a b) hw ((major_41 _ _).trans (by simp [dec41])) h
theorem vFmsF (p : Pred) (d : BitVec 5) (a : BitVec 5) (b : BitVec 5) : Statement (.vFmsF p d a b) :=
  fun h _ hw => decode_wordOf (i := .vFmsF p d a b) hw ((major_41 _ _).trans (by simp [dec41])) h
theorem vFaddH (p : Pred) (d : BitVec 5) (a : BitVec 5) (b : BitVec 5) : Statement (.vFaddH p d a b) :=
  fun h _ hw => decode_wordOf (i := .vFaddH p d a b) hw ((major_42 _ _).trans (by simp [dec42])) h
theorem vFmulH (p : Pred) (d : BitVec 5) (a : BitVec 5) (b : BitVec 5) : Statement (.vFmulH p d a b) :=
  fun h _ hw => decode_wordOf (i := .vFmulH p d a b) hw ((major_42 _ _).trans (by simp [dec42])) h
theorem vFmaH (p : Pred) (d : BitVec 5) (a : BitVec 5) (b : BitVec 5) : Statement (.vFmaH p d a b) :=
  fun h _ hw => decode_wordOf (i := .vFmaH p d a b) hw ((major_42 _ _).trans (by simp [dec42])) h
theorem vFaddB (p : Pred) (d : BitVec 5) (a : BitVec 5) (b : BitVec 5) : Statement (.vFaddB p d a b) :=
  fun h _ hw => decode_wordOf (i := .vFaddB p d a b) hw ((major_42 _ _).trans (by simp [dec42])) h
theorem vFmulB (p : Pred) (d : BitVec 5) (a : BitVec 5) (b : BitVec 5) : Statement (.vFmulB p d a b) :=
  fun h _ hw => decode_wordOf (i := .vFmulB p d a b) hw ((major_42 _ _).trans (by simp [dec42])) h
theorem vFmaB (p : Pred) (d : BitVec 5) (a : BitVec 5) (b : BitVec 5) : Statement (.vFmaB p d a b) :=
  fun h _ hw => decode_wordOf (i := .vFmaB p d a b) hw ((major_42 _ _).trans (by simp [dec42])) h
theorem vFaddD (p : Pred) (d : BitVec 5) (a : BitVec 5) (b : BitVec 5) : Statement (.vFaddD p d a b) :=
  fun h _ hw => decode_wordOf (i := .vFaddD p d a b) hw ((major_43 _ _).trans (by simp [dec43])) h
theorem vFsubD (p : Pred) (d : BitVec 5) (a : BitVec 5) (b : BitVec 5) : Statement (.vFsubD p d a b) :=
  fun h _ hw => decode_wordOf (i := .vFsubD p d a b) hw ((major_43 _ _).trans (by simp [dec43])) h
theorem vFmulD (p : Pred) (d : BitVec 5) (a : BitVec 5) (b : BitVec 5) : Statement (.vFmulD p d a b) :=
  fun h _ hw => decode_wordOf (i := .vFmulD p d a b) hw ((major_43 _ _).trans (by simp [dec43])) h
theorem vFmaD (p : Pred) (d : BitVec 5) (a : BitVec 5) (b : BitVec 5) : Statement (.vFmaD p d a b) :=
  fun h _ hw => decode_wordOf (i := .vFmaD p d a b) hw ((major_43 _ _).trans (by simp [dec43])) h
theorem vFminD (p : Pred) (d : BitVec 5) (a : BitVec 5) (b : BitVec 5) : Statement (.vFminD p d a b) :=
  fun h _ hw => decode_wordOf (i := .vFminD p d a b) hw ((major_43 _ _).trans (by simp [dec43])) h
theorem vFmaxD (p : Pred) (d : BitVec 5) (a : BitVec 5) (b : BitVec 5) : Statement (.vFmaxD p d a b) :=
  fun h _ hw => decode_wordOf (i := .vFmaxD p d a b) hw ((major_43 _ _).trans (by simp [dec43])) h
theorem vFdivD (p : Pred) (d : BitVec 5) (a : BitVec 5) (b : BitVec 5) : Statement (.vFdivD p d a b) :=
  fun h _ hw => decode_wordOf (i := .vFdivD p d a b) hw ((major_43 _ _).trans (by simp [dec43])) h
theorem vFsqrtD (p : Pred) (d : BitVec 5) (a : BitVec 5) : Statement (.vFsqrtD p d a) :=
  fun h _ hw => decode_wordOf (i := .vFsqrtD p d a) hw ((major_43 _ _).trans (by simp [dec43])) h
theorem vCmpEq (p : Pred) (d : BitVec 5) (a : BitVec 5) (b : BitVec 5) : Statement (.vCmpEq p d a b) :=
  fun h _ hw => decode_wordOf (i := .vCmpEq p d a b) hw ((major_44 _ _).trans (by simp [dec44])) h
theorem vCmpNe (p : Pred) (d : BitVec 5) (a : BitVec 5) (b : BitVec 5) : Statement (.vCmpNe p d a b) :=
  fun h _ hw => decode_wordOf (i := .vCmpNe p d a b) hw ((major_44 _ _).trans (by simp [dec44])) h
theorem vCmpLtS32 (p : Pred) (d : BitVec 5) (a : BitVec 5) (b : BitVec 5) : Statement (.vCmpLtS32 p d a b) :=
  fun h _ hw => decode_wordOf (i := .vCmpLtS32 p d a b) hw ((major_44 _ _).trans (by simp [dec44])) h
theorem vCmpLtZ32 (p : Pred) (d : BitVec 5) (a : BitVec 5) (b : BitVec 5) : Statement (.vCmpLtZ32 p d a b) :=
  fun h _ hw => decode_wordOf (i := .vCmpLtZ32 p d a b) hw ((major_44 _ _).trans (by simp [dec44])) h
theorem vCmpLeS32 (p : Pred) (d : BitVec 5) (a : BitVec 5) (b : BitVec 5) : Statement (.vCmpLeS32 p d a b) :=
  fun h _ hw => decode_wordOf (i := .vCmpLeS32 p d a b) hw ((major_44 _ _).trans (by simp [dec44])) h
theorem vCmpLeZ32 (p : Pred) (d : BitVec 5) (a : BitVec 5) (b : BitVec 5) : Statement (.vCmpLeZ32 p d a b) :=
  fun h _ hw => decode_wordOf (i := .vCmpLeZ32 p d a b) hw ((major_44 _ _).trans (by simp [dec44])) h
theorem vFcmpEqF (p : Pred) (d : BitVec 5) (a : BitVec 5) (b : BitVec 5) : Statement (.vFcmpEqF p d a b) :=
  fun h _ hw => decode_wordOf (i := .vFcmpEqF p d a b) hw ((major_44 _ _).trans (by simp [dec44])) h
theorem vFcmpLtF (p : Pred) (d : BitVec 5) (a : BitVec 5) (b : BitVec 5) : Statement (.vFcmpLtF p d a b) :=
  fun h _ hw => decode_wordOf (i := .vFcmpLtF p d a b) hw ((major_44 _ _).trans (by simp [dec44])) h
theorem vFcmpLeF (p : Pred) (d : BitVec 5) (a : BitVec 5) (b : BitVec 5) : Statement (.vFcmpLeF p d a b) :=
  fun h _ hw => decode_wordOf (i := .vFcmpLeF p d a b) hw ((major_44 _ _).trans (by simp [dec44])) h
theorem vFcmpUnF (p : Pred) (d : BitVec 5) (a : BitVec 5) (b : BitVec 5) : Statement (.vFcmpUnF p d a b) :=
  fun h _ hw => decode_wordOf (i := .vFcmpUnF p d a b) hw ((major_44 _ _).trans (by simp [dec44])) h
theorem vCvtFS32 (p : Pred) (d : BitVec 5) (a : BitVec 5) (r : BitVec 5) : Statement (.vCvtFS32 p d a r) :=
  fun h _ hw => decode_wordOf (i := .vCvtFS32 p d a r) hw ((major_45 _ _).trans (by simp [dec45])) h
theorem vCvtS32F (p : Pred) (d : BitVec 5) (a : BitVec 5) (r : BitVec 5) : Statement (.vCvtS32F p d a r) :=
  fun h _ hw => decode_wordOf (i := .vCvtS32F p d a r) hw ((major_45 _ _).trans (by simp [dec45])) h
theorem vCvtHF (p : Pred) (d : BitVec 5) (a : BitVec 5) (r : BitVec 5) : Statement (.vCvtHF p d a r) :=
  fun h _ hw => decode_wordOf (i := .vCvtHF p d a r) hw ((major_45 _ _).trans (by simp [dec45])) h
theorem vCvtFH (p : Pred) (d : BitVec 5) (a : BitVec 5) : Statement (.vCvtFH p d a) :=
  fun h _ hw => decode_wordOf (i := .vCvtFH p d a) hw ((major_45 _ _).trans (by simp [dec45])) h
theorem vCvtBF (p : Pred) (d : BitVec 5) (a : BitVec 5) (r : BitVec 5) : Statement (.vCvtBF p d a r) :=
  fun h _ hw => decode_wordOf (i := .vCvtBF p d a r) hw ((major_45 _ _).trans (by simp [dec45])) h
theorem vCvtFB (p : Pred) (d : BitVec 5) (a : BitVec 5) : Statement (.vCvtFB p d a) :=
  fun h _ hw => decode_wordOf (i := .vCvtFB p d a) hw ((major_45 _ _).trans (by simp [dec45])) h
theorem vCvtE43F (p : Pred) (d : BitVec 5) (a : BitVec 5) (r : BitVec 5) : Statement (.vCvtE43F p d a r) :=
  fun h _ hw => decode_wordOf (i := .vCvtE43F p d a r) hw ((major_45 _ _).trans (by simp [dec45])) h
theorem vCvtFE43 (p : Pred) (d : BitVec 5) (a : BitVec 5) : Statement (.vCvtFE43 p d a) :=
  fun h _ hw => decode_wordOf (i := .vCvtFE43 p d a) hw ((major_45 _ _).trans (by simp [dec45])) h
theorem vCvtE52F (p : Pred) (d : BitVec 5) (a : BitVec 5) (r : BitVec 5) : Statement (.vCvtE52F p d a r) :=
  fun h _ hw => decode_wordOf (i := .vCvtE52F p d a r) hw ((major_45 _ _).trans (by simp [dec45])) h
theorem vCvtFE52 (p : Pred) (d : BitVec 5) (a : BitVec 5) : Statement (.vCvtFE52 p d a) :=
  fun h _ hw => decode_wordOf (i := .vCvtFE52 p d a) hw ((major_45 _ _).trans (by simp [dec45])) h
theorem vCvtDF (p : Pred) (d : BitVec 5) (a : BitVec 5) : Statement (.vCvtDF p d a) :=
  fun h _ hw => decode_wordOf (i := .vCvtDF p d a) hw ((major_45 _ _).trans (by simp [dec45])) h
theorem vCvtFD (p : Pred) (d : BitVec 5) (a : BitVec 5) (r : BitVec 5) : Statement (.vCvtFD p d a r) :=
  fun h _ hw => decode_wordOf (i := .vCvtFD p d a r) hw ((major_45 _ _).trans (by simp [dec45])) h
theorem vMov (p : Pred) (d : BitVec 5) (a : BitVec 5) : Statement (.vMov p d a) :=
  fun h _ hw => decode_wordOf (i := .vMov p d a) hw ((major_46 _ _).trans (by simp [dec46])) h
theorem vBcast (p : Pred) (d : BitVec 5) (a : BitVec 5) : Statement (.vBcast p d a) :=
  fun h _ hw => decode_wordOf (i := .vBcast p d a) hw ((major_46 _ _).trans (by simp [dec46])) h
theorem vPerm (p : Pred) (d : BitVec 5) (a : BitVec 5) (b : BitVec 5) : Statement (.vPerm p d a b) :=
  fun h _ hw => decode_wordOf (i := .vPerm p d a b) hw ((major_46 _ _).trans (by simp [dec46])) h
theorem vRev (p : Pred) (d : BitVec 5) (a : BitVec 5) : Statement (.vRev p d a) :=
  fun h _ hw => decode_wordOf (i := .vRev p d a) hw ((major_46 _ _).trans (by simp [dec46])) h
theorem vRot (p : Pred) (d : BitVec 5) (a : BitVec 5) (b : BitVec 5) : Statement (.vRot p d a b) :=
  fun h _ hw => decode_wordOf (i := .vRot p d a b) hw ((major_46 _ _).trans (by simp [dec46])) h
theorem vIns (p : Pred) (d : BitVec 5) (a : BitVec 5) (b : BitVec 5) : Statement (.vIns p d a b) :=
  fun h _ hw => decode_wordOf (i := .vIns p d a b) hw ((major_46 _ _).trans (by simp [dec46])) h
theorem vExt (p : Pred) (d : BitVec 5) (a : BitVec 5) (b : BitVec 5) : Statement (.vExt p d a b) :=
  fun h _ hw => decode_wordOf (i := .vExt p d a b) hw ((major_46 _ _).trans (by simp [dec46])) h
theorem vFirst (p : Pred) (d : BitVec 5) (a : BitVec 5) : Statement (.vFirst p d a) :=
  fun h _ hw => decode_wordOf (i := .vFirst p d a) hw ((major_46 _ _).trans (by simp [dec46])) h
theorem vRsumF (p : Pred) (d : BitVec 5) (a : BitVec 5) : Statement (.vRsumF p d a) :=
  fun h _ hw => decode_wordOf (i := .vRsumF p d a) hw ((major_47 _ _).trans (by simp [dec47])) h
theorem vRsumS32 (p : Pred) (d : BitVec 5) (a : BitVec 5) : Statement (.vRsumS32 p d a) :=
  fun h _ hw => decode_wordOf (i := .vRsumS32 p d a) hw ((major_47 _ _).trans (by simp [dec47])) h
theorem vRminF (p : Pred) (d : BitVec 5) (a : BitVec 5) : Statement (.vRminF p d a) :=
  fun h _ hw => decode_wordOf (i := .vRminF p d a) hw ((major_47 _ _).trans (by simp [dec47])) h
theorem vRmaxF (p : Pred) (d : BitVec 5) (a : BitVec 5) : Statement (.vRmaxF p d a) :=
  fun h _ hw => decode_wordOf (i := .vRmaxF p d a) hw ((major_47 _ _).trans (by simp [dec47])) h
theorem vRminS32 (p : Pred) (d : BitVec 5) (a : BitVec 5) : Statement (.vRminS32 p d a) :=
  fun h _ hw => decode_wordOf (i := .vRminS32 p d a) hw ((major_47 _ _).trans (by simp [dec47])) h
theorem vRmaxS32 (p : Pred) (d : BitVec 5) (a : BitVec 5) : Statement (.vRmaxS32 p d a) :=
  fun h _ hw => decode_wordOf (i := .vRmaxS32 p d a) hw ((major_47 _ _).trans (by simp [dec47])) h
theorem vRand (p : Pred) (d : BitVec 5) (a : BitVec 5) : Statement (.vRand p d a) :=
  fun h _ hw => decode_wordOf (i := .vRand p d a) hw ((major_47 _ _).trans (by simp [dec47])) h
theorem vRbor (p : Pred) (d : BitVec 5) (a : BitVec 5) : Statement (.vRbor p d a) :=
  fun h _ hw => decode_wordOf (i := .vRbor p d a) hw ((major_47 _ _).trans (by simp [dec47])) h
theorem vRxor (p : Pred) (d : BitVec 5) (a : BitVec 5) : Statement (.vRxor p d a) :=
  fun h _ hw => decode_wordOf (i := .vRxor p d a) hw ((major_47 _ _).trans (by simp [dec47])) h
theorem vJ4dec (p : Pred) (d : BitVec 5) (a : BitVec 5) (b : BitVec 5) : Statement (.vJ4dec p d a b) :=
  fun h _ hw => decode_wordOf (i := .vJ4dec p d a b) hw ((major_48 _ _).trans (by simp [dec48])) h
theorem vJ4enc (p : Pred) (d : BitVec 5) (a : BitVec 5) (b : BitVec 5) : Statement (.vJ4enc p d a b) :=
  fun h _ hw => decode_wordOf (i := .vJ4enc p d a b) hw ((major_48 _ _).trans (by simp [dec48])) h
theorem vBaddq (p : Pred) (d : BitVec 5) (a : BitVec 5) (r : BitVec 5) : Statement (.vBaddq p d a r) :=
  fun h _ hw => decode_wordOf (i := .vBaddq p d a r) hw ((major_48 _ _).trans (by simp [dec48])) h
theorem vLd (p : Pred) (t : BitVec 5) (b : BitVec 5) (l : BitVec 4) (o : BitVec 6) : Statement (.vLd p t b l o) :=
  fun h _ hw => decode_wordOf (i := .vLd p t b l o) hw ((major_50 _ _).trans (by simp [dec50])) h
theorem vSt (p : Pred) (t : BitVec 5) (b : BitVec 5) (o : BitVec 6) : Statement (.vSt p t b o) :=
  fun h _ hw => decode_wordOf (i := .vSt p t b o) hw ((major_51 _ _).trans (by simp [dec51])) h
theorem vLds (p : Pred) (x : BitVec 5) (y : BitVec 5) (l : BitVec 4) (s : BitVec 5) : Statement (.vLds p x y l s) :=
  fun h _ hw => decode_wordOf (i := .vLds p x y l s) hw ((major_52 _ _).trans (by simp [dec52])) h
theorem vSts (p : Pred) (x : BitVec 5) (y : BitVec 5) (s : BitVec 5) : Statement (.vSts p x y s) :=
  fun h _ hw => decode_wordOf (i := .vSts p x y s) hw ((major_53 _ _).trans (by simp [dec53])) h
theorem vGather (p : Pred) (x : BitVec 5) (y : BitVec 5) (l : BitVec 4) (k : BitVec 5) : Statement (.vGather p x y l k) :=
  fun h _ hw => decode_wordOf (i := .vGather p x y l k) hw ((major_54 _ _).trans (by simp [dec54])) h
theorem vScatter (p : Pred) (x : BitVec 5) (y : BitVec 5) (k : BitVec 5) : Statement (.vScatter p x y k) :=
  fun h _ hw => decode_wordOf (i := .vScatter p x y k) hw ((major_55 _ _).trans (by simp [dec55])) h
theorem fAnd (p : Pred) (d : BitVec 5) (a : BitVec 5) (b : BitVec 5) : Statement (.fAnd p d a b) :=
  fun h _ hw => decode_wordOf (i := .fAnd p d a b) hw ((major_60 _ _).trans (by simp [dec60])) h
theorem fOr (p : Pred) (d : BitVec 5) (a : BitVec 5) (b : BitVec 5) : Statement (.fOr p d a b) :=
  fun h _ hw => decode_wordOf (i := .fOr p d a b) hw ((major_60 _ _).trans (by simp [dec60])) h
theorem fXor (p : Pred) (d : BitVec 5) (a : BitVec 5) (b : BitVec 5) : Statement (.fXor p d a b) :=
  fun h _ hw => decode_wordOf (i := .fXor p d a b) hw ((major_60 _ _).trans (by simp [dec60])) h
theorem fAndn (p : Pred) (d : BitVec 5) (a : BitVec 5) (b : BitVec 5) : Statement (.fAndn p d a b) :=
  fun h _ hw => decode_wordOf (i := .fAndn p d a b) hw ((major_60 _ _).trans (by simp [dec60])) h
theorem fNot (p : Pred) (d : BitVec 5) (a : BitVec 5) : Statement (.fNot p d a) :=
  fun h _ hw => decode_wordOf (i := .fNot p d a) hw ((major_60 _ _).trans (by simp [dec60])) h
theorem fSet (p : Pred) (d : BitVec 5) (a : BitVec 5) : Statement (.fSet p d a) :=
  fun h _ hw => decode_wordOf (i := .fSet p d a) hw ((major_60 _ _).trans (by simp [dec60])) h
theorem fGet (p : Pred) (d : BitVec 5) (a : BitVec 5) : Statement (.fGet p d a) :=
  fun h _ hw => decode_wordOf (i := .fGet p d a) hw ((major_60 _ _).trans (by simp [dec60])) h
theorem fPopc (p : Pred) (d : BitVec 5) (a : BitVec 5) : Statement (.fPopc p d a) :=
  fun h _ hw => decode_wordOf (i := .fPopc p d a) hw ((major_60 _ _).trans (by simp [dec60])) h
theorem pub (i : BitVec 10) : Statement (.pub i) :=
  fun h _ hw => decode_wordOf (i := .pub i) hw ((major_68 _ _).trans (by simp [dec68])) h
theorem endpub : Statement (.endpub) :=
  fun h _ hw => decode_wordOf (i := .endpub) hw ((major_69 _ _).trans (by simp [dec69])) h
theorem subscribe (a : BitVec 5) : Statement (.subscribe a) :=
  fun h _ hw => decode_wordOf (i := .subscribe a) hw ((major_69 _ _).trans (by simp [dec69])) h
theorem join (k : BitVec 5) : Statement (.join k) :=
  fun h _ hw => decode_wordOf (i := .join k) hw ((major_69 _ _).trans (by simp [dec69])) h
theorem rdv (k : BitVec 5) : Statement (.rdv k) :=
  fun h _ hw => decode_wordOf (i := .rdv k) hw ((major_69 _ _).trans (by simp [dec69])) h
theorem chSync : Statement (.chSync) :=
  fun h _ hw => decode_wordOf (i := .chSync) hw ((major_69 _ _).trans (by simp [dec69])) h
theorem sqkill (p : Pred) (a : BitVec 5) : Statement (.sqkill p a) :=
  fun h _ hw => decode_wordOf (i := .sqkill p a) hw ((major_69 _ _).trans (by simp [dec69])) h
theorem leave (g : BitVec 4) (k : BitVec 5) (i : BitVec 10) : Statement (.leave g k i) :=
  fun h _ hw => decode_wordOf (i := .leave g k i) hw ((major_6A _ _).trans (by simp [dec6A])) h
theorem portcfg (p : Pred) (a : BitVec 5) : Statement (.portcfg p a) :=
  fun h _ hw => decode_wordOf (i := .portcfg p a) hw ((major_6B _ _).trans (by simp [dec6B])) h
theorem send (p : Pred) (a : BitVec 5) (b : BitVec 5) : Statement (.send p a b) :=
  fun h _ hw => decode_wordOf (i := .send p a b) hw ((major_6B _ _).trans (by simp [dec6B])) h
theorem btag (p : Pred) (d : BitVec 5) (i : BitVec 15) : Statement (.btag p d i) :=
  fun h _ hw => decode_wordOf (i := .btag p d i) hw ((major_6C _ _).trans (by simp [dec6C])) h
theorem mxCtx (p : Pred) (x : BitVec 5) : Statement (.mxCtx p x) :=
  fun h _ hw => decode_wordOf (i := .mxCtx p x) hw ((major_70 _ _).trans (by simp [dec70])) h
theorem mxLdb (p : Pred) (y : BitVec 5) (k : BitVec 5) : Statement (.mxLdb p y k) :=
  fun h _ hw => decode_wordOf (i := .mxLdb p y k) hw ((major_71 _ _).trans (by simp [dec71])) h
theorem mxSetb (p : Pred) (q : BitVec 2) (k : BitVec 5) : Statement (.mxSetb p q k) :=
  fun h _ hw => decode_wordOf (i := .mxSetb p q k) hw ((major_72 _ _).trans (by simp [dec72])) h
theorem mxMma (p : Pred) (x : BitVec 5) (y : BitVec 5) (q : BitVec 2) (w : BitVec 1) : Statement (.mxMma p x y q w) :=
  fun h _ hw => decode_wordOf (i := .mxMma p x y q w) hw ((major_73 _ _).trans (by simp [dec73])) h
theorem mxZero (p : Pred) (w : BitVec 1) : Statement (.mxZero p w) :=
  fun h _ hw => decode_wordOf (i := .mxZero p w) hw ((major_74 _ _).trans (by simp [dec74])) h
theorem mxDrain (p : Pred) (x : BitVec 5) (y : BitVec 5) (w : BitVec 1) : Statement (.mxDrain p x y w) :=
  fun h _ hw => decode_wordOf (i := .mxDrain p x y w) hw ((major_75 _ _).trans (by simp [dec75])) h
theorem mxDrainRaw (p : Pred) (x : BitVec 5) (y : BitVec 5) (w : BitVec 1) : Statement (.mxDrainRaw p x y w) :=
  fun h _ hw => decode_wordOf (i := .mxDrainRaw p x y w) hw ((major_75 _ _).trans (by simp [dec75])) h
theorem hresv (p : Pred) (x : BitVec 5) (l : BitVec 4) : Statement (.hresv p x l) :=
  fun h _ hw => decode_wordOf (i := .hresv p x l) hw ((major_76 _ _).trans (by simp [dec76])) h
theorem rowout (p : Pred) (x : BitVec 5) (y : BitVec 5) : Statement (.rowout p x y) :=
  fun h _ hw => decode_wordOf (i := .rowout p x y) hw ((major_76 _ _).trans (by simp [dec76])) h
theorem mxBatch (p : Pred) (x : BitVec 5) (l : BitVec 4) : Statement (.mxBatch p x l) :=
  fun h _ hw => decode_wordOf (i := .mxBatch p x l) hw ((major_76 _ _).trans (by simp [dec76])) h
theorem mxWait (p : Pred) (x : BitVec 5) : Statement (.mxWait p x) :=
  fun h _ hw => decode_wordOf (i := .mxWait p x) hw ((major_76 _ _).trans (by simp [dec76])) h
theorem mxCnt (p : Pred) (x : BitVec 5) (l : BitVec 4) (g : BitVec 4) : Statement (.mxCnt p x l g) :=
  fun h _ hw => decode_wordOf (i := .mxCnt p x l g) hw ((major_77 _ _).trans (by simp [dec77])) h
theorem barCfg (p : Pred) (a : BitVec 5) (k : BitVec 4) : Statement (.barCfg p a k) :=
  fun h _ hw => decode_wordOf (i := .barCfg p a k) hw ((major_78 _ _).trans (by simp [dec78])) h
theorem barArrive (p : Pred) (k : BitVec 4) : Statement (.barArrive p k) :=
  fun h _ hw => decode_wordOf (i := .barArrive p k) hw ((major_78 _ _).trans (by simp [dec78])) h
theorem barWait (p : Pred) (k : BitVec 4) : Statement (.barWait p k) :=
  fun h _ hw => decode_wordOf (i := .barWait p k) hw ((major_78 _ _).trans (by simp [dec78])) h
theorem barSync (p : Pred) (k : BitVec 4) : Statement (.barSync p k) :=
  fun h _ hw => decode_wordOf (i := .barSync p k) hw ((major_78 _ _).trans (by simp [dec78])) h
theorem ticket (p : Pred) (x : BitVec 5) (y : BitVec 5) (l : BitVec 4) : Statement (.ticket p x y l) :=
  fun h _ hw => decode_wordOf (i := .ticket p x y l) hw ((major_79 _ _).trans (by simp [dec79])) h
theorem ticketBc (p : Pred) (x : BitVec 5) (y : BitVec 5) (l : BitVec 4) : Statement (.ticketBc p x y l) :=
  fun h _ hw => decode_wordOf (i := .ticketBc p x y l) hw ((major_79 _ _).trans (by simp [dec79])) h
theorem fenceS (p : Pred) (a : BitVec 5) : Statement (.fenceS p a) :=
  fun h _ hw => decode_wordOf (i := .fenceS p a) hw ((major_7A _ _).trans (by simp [dec7A])) h
theorem go (p : Pred) (a : BitVec 5) : Statement (.go p a) :=
  fun h _ hw => decode_wordOf (i := .go p a) hw ((major_7C _ _).trans (by simp [dec7C])) h
theorem launch (p : Pred) (d : BitVec 5) (a : BitVec 5) : Statement (.launch p d a) :=
  fun h _ hw => decode_wordOf (i := .launch p d a) hw ((major_7C _ _).trans (by simp [dec7C])) h
theorem idemBegin (p : Pred) (a : BitVec 5) : Statement (.idemBegin p a) :=
  fun h _ hw => decode_wordOf (i := .idemBegin p a) hw ((major_7C _ _).trans (by simp [dec7C])) h
theorem idemEnd (p : Pred) : Statement (.idemEnd p) :=
  fun h _ hw => decode_wordOf (i := .idemEnd p) hw ((major_7C _ _).trans (by simp [dec7C])) h
theorem xfer (p : Pred) (x : BitVec 5) : Statement (.xfer p x) :=
  fun h _ hw => decode_wordOf (i := .xfer p x) hw ((major_7D _ _).trans (by simp [dec7D])) h
theorem bqPop (p : Pred) (x : BitVec 5) (y : BitVec 5) (l : BitVec 4) : Statement (.bqPop p x y l) :=
  fun h _ hw => decode_wordOf (i := .bqPop p x y l) hw ((major_7E _ _).trans (by simp [dec7E])) h
theorem rotation : Statement (.rotation) := by
  intro _ w hw; simp [encode] at hw
theorem channelInstructionDue (m : ThreadRef) : Statement (.channelInstructionDue m) := by
  intro _ w hw; simp [encode] at hw
theorem resultWrite (t : ThreadRef) (id : Nat) : Statement (.resultWrite t id) := by
  intro _ w hw; simp [encode] at hw
theorem storeFault (t : ThreadRef) : Statement (.storeFault t) := by
  intro _ w hw; simp [encode] at hw
theorem withdrawal (id : Nat) : Statement (.withdrawal id) := by
  intro _ w hw; simp [encode] at hw
theorem withdrawalArrival (id : Nat) : Statement (.withdrawalArrival id) := by
  intro _ w hw; simp [encode] at hw
theorem feTimeout (id : Nat) : Statement (.feTimeout id) := by
  intro _ w hw; simp [encode] at hw
theorem feTimeoutReport (prio : Nat) : Statement (.feTimeoutReport prio) := by
  intro _ w hw; simp [encode] at hw
theorem chTimeout (t : ThreadRef) : Statement (.chTimeout t) := by
  intro _ w hw; simp [encode] at hw
theorem barTimeout (t : ThreadRef) : Statement (.barTimeout t) := by
  intro _ w hw; simp [encode] at hw
theorem conditionalRequestArrival (id : Nat) : Statement (.conditionalRequestArrival id) := by
  intro _ w hw; simp [encode] at hw
theorem parkResend (id : Nat) : Statement (.parkResend id) := by
  intro _ w hw; simp [encode] at hw
theorem plainAccessArrival (id : Nat) (lane : Nat) : Statement (.plainAccessArrival id lane) := by
  intro _ w hw; simp [encode] at hw
theorem atomicTakeGrant (id : Nat) : Statement (.atomicTakeGrant id) := by
  intro _ w hw; simp [encode] at hw
theorem atomicFillArrival (id : Nat) : Statement (.atomicFillArrival id) := by
  intro _ w hw; simp [encode] at hw
theorem reductionPerform (id : Nat) : Statement (.reductionPerform id) := by
  intro _ w hw; simp [encode] at hw
theorem storeLeave (t : ThreadRef) : Statement (.storeLeave t) := by
  intro _ w hw; simp [encode] at hw
theorem storeCheck (t : ThreadRef) : Statement (.storeCheck t) := by
  intro _ w hw; simp [encode] at hw
theorem tlbMiss (unit : Nat) : Statement (.tlbMiss unit) := by
  intro _ w hw; simp [encode] at hw
theorem copyWord (core : Nat) (id : Nat) : Statement (.copyWord core id) := by
  intro _ w hw; simp [encode] at hw
theorem mboxReserve (t : ThreadRef) : Statement (.mboxReserve t) := by
  intro _ w hw; simp [encode] at hw
theorem mboxDelivery (core : Nat) : Statement (.mboxDelivery core) := by
  intro _ w hw; simp [encode] at hw
theorem portWordAccept (t : ThreadRef) : Statement (.portWordAccept t) := by
  intro _ w hw; simp [encode] at hw
theorem pubAccept (t : ThreadRef) : Statement (.pubAccept t) := by
  intro _ w hw; simp [encode] at hw
theorem rdvComplete (t : ThreadRef) : Statement (.rdvComplete t) := by
  intro _ w hw; simp [encode] at hw
theorem chSyncComplete (t : ThreadRef) : Statement (.chSyncComplete t) := by
  intro _ w hw; simp [encode] at hw
theorem publicationEnd (core : Nat) : Statement (.publicationEnd core) := by
  intro _ w hw; simp [encode] at hw
theorem sqkillTargetHalt (t : ThreadRef) : Statement (.sqkillTargetHalt t) := by
  intro _ w hw; simp [encode] at hw
theorem arrayGrant (cluster : Nat) (hold : Nat) : Statement (.arrayGrant cluster hold) := by
  intro _ w hw; simp [encode] at hw
theorem powerHold (cluster : Nat) : Statement (.powerHold cluster) := by
  intro _ w hw; simp [encode] at hw
theorem mxCtxApply (core : Nat) : Statement (.mxCtxApply core) := by
  intro _ w hw; simp [encode] at hw
theorem mxZeroBegin (core : Nat) : Statement (.mxZeroBegin core) := by
  intro _ w hw; simp [encode] at hw
theorem mxLdbLoad (core : Nat) : Statement (.mxLdbLoad core) := by
  intro _ w hw; simp [encode] at hw
theorem mxSetbComplete (cluster : Nat) : Statement (.mxSetbComplete cluster) := by
  intro _ w hw; simp [encode] at hw
theorem mxMmaComplete (cluster : Nat) : Statement (.mxMmaComplete cluster) := by
  intro _ w hw; simp [encode] at hw
theorem mxCntWrite (core : Nat) : Statement (.mxCntWrite core) := by
  intro _ w hw; simp [encode] at hw
theorem drainRowEnter (core : Nat) : Statement (.drainRowEnter core) := by
  intro _ w hw; simp [encode] at hw
theorem drainDispatch (core : Nat) : Statement (.drainDispatch core) := by
  intro _ w hw; simp [encode] at hw
theorem drainDoneFill (core : Nat) : Statement (.drainDoneFill core) := by
  intro _ w hw; simp [encode] at hw
theorem drainFail (core : Nat) : Statement (.drainFail core) := by
  intro _ w hw; simp [encode] at hw
theorem barCfgArrival (id : Nat) : Statement (.barCfgArrival id) := by
  intro _ w hw; simp [encode] at hw
theorem barrierArrival (id : Nat) : Statement (.barrierArrival id) := by
  intro _ w hw; simp [encode] at hw
theorem pennantRecordWrite (cluster : Nat) (unit : Nat) : Statement (.pennantRecordWrite cluster unit) := by
  intro _ w hw; simp [encode] at hw
theorem post (ctx : Nat) (size : Nat) (a : (BitVec 64)) : Statement (.post ctx size a) := by
  intro _ w hw; simp [encode] at hw
theorem launchAccept : Statement (.launchAccept) := by
  intro _ w hw; simp [encode] at hw
theorem bandPlace : Statement (.bandPlace) := by
  intro _ w hw; simp [encode] at hw
theorem bandStart (b : BandRef) : Statement (.bandStart b) := by
  intro _ w hw; simp [encode] at hw
theorem preempt : Statement (.preempt) := by
  intro _ w hw; simp [encode] at hw
theorem bandSave (b : BandRef) : Statement (.bandSave b) := by
  intro _ w hw; simp [encode] at hw
theorem bandResume (b : BandRef) : Statement (.bandResume b) := by
  intro _ w hw; simp [encode] at hw
theorem bandEnd (b : BandRef) : Statement (.bandEnd b) := by
  intro _ w hw; simp [encode] at hw
theorem launchEnd (l : LaunchRef) : Statement (.launchEnd l) := by
  intro _ w hw; simp [encode] at hw
theorem migrationDeparture (t : ThreadRef) : Statement (.migrationDeparture t) := by
  intro _ w hw; simp [encode] at hw
theorem migrationArrival (id : Nat) : Statement (.migrationArrival id) := by
  intro _ w hw; simp [encode] at hw
theorem migrationInstall (core : Nat) : Statement (.migrationInstall core) := by
  intro _ w hw; simp [encode] at hw
theorem overflowRefill (die : Nat) : Statement (.overflowRefill die) := by
  intro _ w hw; simp [encode] at hw
theorem portCfgWrite (t : ThreadRef) (v : (BitVec 64)) : Statement (.portCfgWrite t v) := by
  intro _ w hw; simp [encode] at hw
theorem rngWrite (t : ThreadRef) (v : (BitVec 64)) : Statement (.rngWrite t v) := by
  intro _ w hw; simp [encode] at hw
theorem mboxBaseWrite (core : Nat) : Statement (.mboxBaseWrite core) := by
  intro _ w hw; simp [encode] at hw
theorem mboxHeadWrite (core : Nat) (v : (BitVec 64)) : Statement (.mboxHeadWrite core v) := by
  intro _ w hw; simp [encode] at hw
theorem ctxActivate : Statement (.ctxActivate) := by
  intro _ w hw; simp [encode] at hw
theorem ctxDeactivate : Statement (.ctxDeactivate) := by
  intro _ w hw; simp [encode] at hw
theorem ctlEvpendClear (t : ThreadRef) (v : (BitVec 64)) : Statement (.ctlEvpendClear t v) := by
  intro _ w hw; simp [encode] at hw
theorem ctlTimerWrite (t : ThreadRef) (v : (BitVec 64)) : Statement (.ctlTimerWrite t v) := by
  intro _ w hw; simp [encode] at hw
theorem timer (t : ThreadRef) : Statement (.timer t) := by
  intro _ w hw; simp [encode] at hw
theorem pwrFstepWrite : Statement (.pwrFstepWrite) := by
  intro _ w hw; simp [encode] at hw
theorem errCountRead (t : ThreadRef) (uncorr : Bool) (d : (BitVec 5)) : Statement (.errCountRead t uncorr d) := by
  intro _ w hw; simp [encode] at hw
theorem keyGenerate : Statement (.keyGenerate) := by
  intro _ w hw; simp [encode] at hw
theorem keyErase : Statement (.keyErase) := by
  intro _ w hw; simp [encode] at hw
theorem powerCheck (watts : Nat) (temp : Nat) : Statement (.powerCheck watts temp) := by
  intro _ w hw; simp [encode] at hw
theorem currentTrip : Statement (.currentTrip) := by
  intro _ w hw; simp [encode] at hw
theorem thermalTrip : Statement (.thermalTrip) := by
  intro _ w hw; simp [encode] at hw
theorem coldReset : Statement (.coldReset) := by
  intro _ w hw; simp [encode] at hw
theorem packageReset : Statement (.packageReset) := by
  intro _ w hw; simp [encode] at hw
theorem dieReset (die : Nat) : Statement (.dieReset die) := by
  intro _ w hw; simp [encode] at hw
theorem bootStage (images : List BootImage) (trained tested : Bool) : Statement (.bootStage images trained tested) := by
  intro _ w hw; simp [encode] at hw
theorem dieFence (die : Nat) : Statement (.dieFence die) := by
  intro _ w hw; simp [encode] at hw
theorem scrub : Statement (.scrub) := by
  intro _ w hw; simp [encode] at hw
theorem profilerSum (die : Nat) : Statement (.profilerSum die) := by
  intro _ w hw; simp [encode] at hw
theorem debugChallenge : Statement (.debugChallenge) := by
  intro _ w hw; simp [encode] at hw
theorem debugSignature (sig : (List (BitVec 8))) : Statement (.debugSignature sig) := by
  intro _ w hw; simp [encode] at hw
theorem debugStop (t : ThreadRef) : Statement (.debugStop t) := by
  intro _ w hw; simp [encode] at hw
theorem debugImageAccess (t : ThreadRef) (off : Nat) (wr : (Option (BitVec 64))) : Statement (.debugImageAccess t off wr) := by
  intro _ w hw; simp [encode] at hw
theorem debugResume (t : ThreadRef) : Statement (.debugResume t) := by
  intro _ w hw; simp [encode] at hw
theorem breakpointSet (ctx : Nat) (idx : Nat) (pc : (Option (BitVec 64))) : Statement (.breakpointSet ctx idx pc) := by
  intro _ w hw; simp [encode] at hw
theorem doorbell : Statement (.doorbell) := by
  intro _ w hw; simp [encode] at hw
theorem hdmPlainWrite (port : Nat) (o : Nat) (data : (List (BitVec 8))) : Statement (.hdmPlainWrite port o data) := by
  intro _ w hw; simp [encode] at hw
theorem hdmFillWrite (port : Nat) (o : Nat) (data : (List (BitVec 8))) : Statement (.hdmFillWrite port o data) := by
  intro _ w hw; simp [encode] at hw
theorem hdmEmptyWrite (port : Nat) (o : Nat) (data : (List (BitVec 8))) : Statement (.hdmEmptyWrite port o data) := by
  intro _ w hw; simp [encode] at hw
theorem hdmRead (port : Nat) (o : Nat) (size : Nat) : Statement (.hdmRead port o size) := by
  intro _ w hw; simp [encode] at hw
theorem bar2Access (port : Nat) (o : Nat) (size : Nat) (wr : (Option (List (BitVec 8)))) : Statement (.bar2Access port o size wr) := by
  intro _ w hw; simp [encode] at hw
theorem linkInit (port : Nat) (peer : (BitVec 16)) : Statement (.linkInit port peer) := by
  intro _ w hw; simp [encode] at hw
theorem flitReceive (port : Nat) (flit : (List (BitVec 8))) : Statement (.flitReceive port flit) := by
  intro _ w hw; simp [encode] at hw
theorem nak (port : Nat) (ack : (BitVec 12)) : Statement (.nak port ack) := by
  intro _ w hw; simp [encode] at hw
theorem linkFail (port : Nat) : Statement (.linkFail port) := by
  intro _ w hw; simp [encode] at hw
theorem fabLoad (tx : FabTx) : Statement (.fabLoad tx) := by
  intro _ w hw; simp [encode] at hw
theorem fabStore (tx : FabTx) : Statement (.fabStore tx) := by
  intro _ w hw; simp [encode] at hw
theorem fabLdW (tx : FabTx) : Statement (.fabLdW tx) := by
  intro _ w hw; simp [encode] at hw
theorem fabLdT (tx : FabTx) : Statement (.fabLdT tx) := by
  intro _ w hw; simp [encode] at hw
theorem fabStF (tx : FabTx) : Statement (.fabStF tx) := by
  intro _ w hw; simp [encode] at hw
theorem fabStS (tx : FabTx) : Statement (.fabStS tx) := by
  intro _ w hw; simp [encode] at hw
theorem fabFeClr (tx : FabTx) : Statement (.fabFeClr tx) := by
  intro _ w hw; simp [encode] at hw
theorem fabFeProbe (tx : FabTx) : Statement (.fabFeProbe tx) := by
  intro _ w hw; simp [encode] at hw
theorem fabAmo (tx : FabTx) : Statement (.fabAmo tx) := by
  intro _ w hw; simp [encode] at hw
theorem fabRed (tx : FabTx) : Statement (.fabRed tx) := by
  intro _ w hw; simp [encode] at hw
theorem fabWithdraw (tx : FabTx) : Statement (.fabWithdraw tx) := by
  intro _ w hw; simp [encode] at hw
theorem fabReply (tx : FabTx) : Statement (.fabReply tx) := by
  intro _ w hw; simp [encode] at hw
theorem fabTmo (id : Nat) : Statement (.fabTmo id) := by
  intro _ w hw; simp [encode] at hw
theorem xferWrite (tx : FabTx) : Statement (.xferWrite tx) := by
  intro _ w hw; simp [encode] at hw
theorem xferRead (tx : FabTx) : Statement (.xferRead tx) := by
  intro _ w hw; simp [encode] at hw
theorem xferReadData (tx : FabTx) : Statement (.xferReadData tx) := by
  intro _ w hw; simp [encode] at hw
theorem xferComplete (id : Nat) : Statement (.xferComplete id) := by
  intro _ w hw; simp [encode] at hw
theorem xferFail (id : Nat) : Statement (.xferFail id) := by
  intro _ w hw; simp [encode] at hw
theorem mastheadPost (ctx : Nat) : Statement (.mastheadPost ctx) := by
  intro _ w hw; simp [encode] at hw
theorem gangPost (ctx : Nat) : Statement (.gangPost ctx) := by
  intro _ w hw; simp [encode] at hw
theorem prepare (tx : FabTx) : Statement (.prepare tx) := by
  intro _ w hw; simp [encode] at hw
theorem acknowledge (tx : FabTx) : Statement (.acknowledge tx) := by
  intro _ w hw; simp [encode] at hw
theorem gangTimeout (gang : Nat) : Statement (.gangTimeout gang) := by
  intro _ w hw; simp [encode] at hw
theorem commit (tx : FabTx) : Statement (.commit tx) := by
  intro _ w hw; simp [encode] at hw
theorem abort (tx : FabTx) : Statement (.abort tx) := by
  intro _ w hw; simp [encode] at hw
theorem query (tx : FabTx) : Statement (.query tx) := by
  intro _ w hw; simp [encode] at hw
theorem gangQueryTimer (idx : Nat) : Statement (.gangQueryTimer idx) := by
  intro _ w hw; simp [encode] at hw
theorem decision (tx : FabTx) : Statement (.decision tx) := by
  intro _ w hw; simp [encode] at hw
theorem retire (tx : FabTx) : Statement (.retire tx) := by
  intro _ w hw; simp [encode] at hw
theorem instructionFetch (t : ThreadRef) : Statement (.instructionFetch t) := by
  intro _ w hw; simp [encode] at hw
theorem hostWriteAck (id : Nat) : Statement (.hostWriteAck id) := by
  intro _ w hw; simp [encode] at hw
theorem xferElement (id : Nat) : Statement (.xferElement id) := by
  intro _ w hw; simp [encode] at hw
theorem decisionRepeat (gang : Nat) (member : Nat) : Statement (.decisionRepeat gang member) := by
  intro _ w hw; simp [encode] at hw

end Sys2Proof.Laws.Roundtrip
end

