-- ==== Sys2Proof/Laws/Requests.lean ====
section
/-! SUPPORT. Requests by serial number, and what taking a trap does to the thread that takes it. -/

namespace Sys2Proof.Machine

/-- The first element found, changed by a function under which it is still found. -/
theorem find?_modFirst {α : Type} {p : α → Bool} {g : α → α} {l : List α} {x : α} (h : l.find? p = some x)
    (hg : p (g x) = true) : (modFirst p g l).find? p = some (g x) := by
  induction l with
  | nil => simp at h
  | cons a r ih =>
    by_cases e : p a = true
    · simp [List.find?, e] at h; subst h; simp [modFirst, e, hg]
    · simp [List.find?, e] at h; simp [modFirst, e, ih h]

namespace State

theorem flight?_id {s : State} {id : Nat} {f : Flight} (h : s.flight? id = some f) : f.id = id := by
  have := List.find?_some h; simpa using this

/-- A request that is there, changed. -/
theorem flight?_modFlight {s : State} {id : Nat} {f : Flight} (h : s.flight? id = some f) (g : Flight → Flight)
    (hg : (g f).id = f.id) : (s.modFlight id g).flight? id = some (g f) :=
  find?_modFirst h (by simp [hg, flight?_id h])

/-- A thread is in its core. -/
theorem thread?_congr {s t : State} (h : t.cores = s.cores) (r : ThreadRef) : t.thread? r = s.thread? r := by
  simp only [thread?, slot, core, h]

theorem writeBytes_cores (s : State) (k : Nat) (bs : List Byte) : (s.writeBytes k bs).cores = s.cores := by
  induction bs generalizing s k with
  | nil => rfl
  | cons b r ih => simp only [writeBytes]; rw [ih]; rfl
@[simp] theorem writeWord_cores (s : State) (k : Nat) (w : Word) : (s.writeWord k w).cores = s.cores := writeBytes_cores ..
@[simp] theorem setFull_cores (s : State) (k : Nat) (b : Bool) : (s.setFull k b).cores = s.cores := by
  simp only [setFull]; split
  · rfl
  · split <;> rfl

theorem writeBytes_flights (s : State) (k : Nat) (bs : List Byte) : (s.writeBytes k bs).flights = s.flights := by
  induction bs generalizing s k with
  | nil => rfl
  | cons b r ih => simp only [writeBytes]; rw [ih]; rfl
@[simp] theorem writeWord_flights (s : State) (k : Nat) (w : Word) : (s.writeWord k w).flights = s.flights := writeBytes_flights ..
@[simp] theorem setFull_flights (s : State) (k : Nat) (b : Bool) : (s.setFull k b).flights = s.flights := by
  simp only [setFull]; split
  · rfl
  · split <;> rfl

@[simp] theorem sealFor_cores (s : State) (c k n : Nat) : (s.sealFor c k n).cores = s.cores := by
  simp only [sealFor]; repeat' split
  all_goals rfl
@[simp] theorem sealFor_flights (s : State) (c k n : Nat) : (s.sealFor c k n).flights = s.flights := by
  simp only [sealFor]; repeat' split
  all_goals rfl

/-- Words written one after another change no core and no request. -/
theorem foldl_writeWord_kept (f : Word × Nat → Nat) (l : List (Word × Nat)) (s : State) :
    (l.foldl (fun a p => a.writeWord (f p) p.1) s).cores = s.cores ∧ (l.foldl (fun a p => a.writeWord (f p) p.1) s).flights = s.flights := by
  induction l generalizing s with
  | nil => exact ⟨rfl, rfl⟩
  | cons p r ih => simpa using ih (s.writeWord (f p) p.1)

@[simp] theorem putEntry_cores (s : State) (c k : Nat) (ws : List Word) : (s.putEntry c k ws).cores = s.cores := by
  simp [putEntry, (foldl_writeWord_kept (fun p => k + 8 * (p.2 + 1)) ..).1]
@[simp] theorem putEntry_flights (s : State) (c k : Nat) (ws : List Word) : (s.putEntry c k ws).flights = s.flights := by
  simp [putEntry, (foldl_writeWord_kept (fun p => k + 8 * (p.2 + 1)) ..).2]

@[simp] theorem traceWrite_cores (s : State) (c : Nat) (ws : List Word) : (s.traceWrite c ws).cores = s.cores := by
  simp only [traceWrite]; repeat' split
  all_goals simp
@[simp] theorem traceWrite_flights (s : State) (c : Nat) (ws : List Word) : (s.traceWrite c ws).flights = s.flights := by
  simp only [traceWrite]; repeat' split
  all_goals simp

/-- A trace record changes memory and its own places alone. -/
@[simp] theorem traceEvent_cores (s : State) (k c n l : Nat) (pc d : Word) : (s.traceEvent k c n l pc d).cores = s.cores := by
  simp only [traceEvent]
  repeat' split
  all_goals simp
@[simp] theorem traceEvent_flights (s : State) (k c n l : Nat) (pc d : Word) : (s.traceEvent k c n l pc d).flights = s.flights := by
  simp only [traceEvent]
  repeat' split
  all_goals simp

theorem unsubscribe_thread? (s : State) (t r : ThreadRef) (th : Thread) : (s.unsubscribe t th).thread? r = s.thread? r := by
  simp only [unsubscribe]
  split
  · rename_i n _
    by_cases e : r.core = n
    · simp [thread?, slot, e]
    · simp [thread?, slot, core_modCore_ne _ _ e]
  · rfl
@[simp] theorem unsubscribe_flights (s : State) (t : ThreadRef) (th : Thread) : (s.unsubscribe t th).flights = s.flights := by
  simp only [unsubscribe]; split <;> simp

/-- Taking a trap in run or control mode (R76): what the thread holds. -/
theorem enterTrap_thread? {s : State} {t : ThreadRef} {th : Thread} (h : s.thread? t = some th) (m : th.mode ≠ .trap)
    {c : Cause} (hc : c ≠ .eccUncorrectable) (addr info pc : Word) :
    ∃ x, (s.enterTrap t c addr info pc).thread? t = some x ∧ x.mode = .trap ∧ x.trapCause = BitVec.ofNat 8 c.code ∧
      x.trapAddr = addr ∧ x.trapInfo = info ∧ x.trapPc = pc ∧ x.pc = pcOf (th.trapVec + ofN (64 * c.code)) ∧ x.s = th.s ∧
      x.trapCtl = (th.mode == .control) := by
  simp only [enterTrap, hc, if_false, h, m]
  refine ⟨_, (thread?_congr (traceEvent_cores ..) t).trans (thread?_setThread_self _ _ (slot_lt_of_thread? h)), ?_⟩
  exact ⟨rfl, rfl, rfl, rfl, rfl, rfl, rfl, rfl⟩

/-- The requests of every thread go on when one takes a trap. -/
theorem enterTrap_flights {s : State} {t : ThreadRef} {th : Thread} (h : s.thread? t = some th) (m : th.mode ≠ .trap)
    {c : Cause} (hc : c ≠ .eccUncorrectable) (addr info pc : Word) : (s.enterTrap t c addr info pc).flights = s.flights := by
  simp only [enterTrap, hc, if_false, h, m, traceEvent_flights, setThread_flights]
  split <;> simp

end State

end Sys2Proof.Machine
end

