-- ==== Sys2Proof/Tests/Slice0.lean ====
section
/-! SUPPORT. Tests: ill-formed terms are refused, words written out from the manual decode, the manual's worked examples
come out, and for every statement with hypotheses a state and operands that meet them. -/

set_option Elab.async false

namespace Sys2Proof.Tests

open Sys2Proof Machine

/-! ## Ill-formed instructions (R15, R20, R30, R69, R115, R119, R165) -/

theorem test_wf_predicate : wf (.add ⟨1, 15⟩ 2 3 2) = false ∧ wf (.add ⟨0, 12⟩ 2 3 2) = false ∧ wf (.add ⟨1, 11⟩ 2 3 2) = true := by
  decide +kernel
theorem test_wf_compare_flag : wf (.cmpEq .always 12 3 2) = false ∧ wf (.cmpEq .always 28 3 2) = false ∧
    wf (.cmpEq .always 27 3 2) = true := by decide +kernel
theorem test_wf_flag_test : wf (.bany .always 12 0) = false ∧ wf (.leave 12 1 0) = false := by decide +kernel
theorem test_wf_flag_form : wf (.fAnd .always 12 0 0) = false ∧ wf (.fAnd .always 0 12 0) = false ∧ wf (.fAnd .always 0 0 12) = false ∧
    wf (.fGet .always 31 12) = false ∧ wf (.fSet .always 12 31) = false := by decide +kernel
theorem test_wf_rounding : wf (.cvtFD .always 1 2 7) = false ∧ wf (.cvtS64D .always 1 2 6) = false ∧ wf (.vCvtS32F .always 1 2 6) = false ∧
    wf (.vBaddq .always 1 2 7) = false ∧ wf (.cvtFD .always 1 2 6) = true := by decide +kernel
theorem test_wf_register : wf (.mfs .always 1 0x00A) = false ∧ wf (.mts .always 1 0x4006) = false ∧ wf (.mfs .always 1 0x4005) = true := by
  decide +kernel
theorem test_wf_depth : wf (.pub 3) = false ∧ wf (.pub 12) = true := by decide +kernel
theorem test_wf_loop : wf (.loop .always 0 1) = false := by decide +kernel

/-! ## Words of the manual -/

/-- R28, R38: NOP, an unassigned function of its major, and a field that must be zero. -/
theorem test_decode_nop : decode 0x7A200007#32 = some (.nop .always) ∧ decode 0x7A200008#32 = none ∧ decode 0x7A208007#32 = none := by
  decide +kernel
/-- R119, R46, R108, R109: LOOP s16 back two words, JMP s1, CMPI.EQ f1, s16, -1. -/
theorem test_decode_scalar : decode 0x79B87FFE#32 = some (.loop .always 16 (-2)) ∧ decode 0x79A00400#32 = some (.jmp .always 1) ∧
    decode 0x78B0C07F#32 = some (.cmpiEq .always 1 16 (-1)) ∧ decode 0x793198C7#32 = some (.fcmpUnF .always 3 6 6) := by decide +kernel
/-- R20, R152: V.CMP.LT.S32.AND f5, v2, v9, V.GATHER v4, [s7], v9 la:1 and V.LD v8, [s6+256] la:3. -/
theorem test_decode_vector : decode 0x7C4A8922#32 = some (.vCmpLtS32 .always 21 2 9) ∧ decode 0x7D421C49#32 = some (.vGather .always 4 7 1 9) ∧
    decode 0x7D0418C2#32 = some (.vLd .always 8 6 3 2) ∧ decode 0x2465C007#32 = some (.vFirst ⟨0, 4⟩ 11 16) := by decide +kernel
/-- R193: LD.T s16, [s20+0], ST.F s16, [s20+0], FE.CLR [s20+0], LD.W s13, [s10+0]. -/
theorem test_decode_memory : decode 0x7B485000#32 = some (.ldT .always 16 20 0 0) ∧ decode 0x7B585000#32 = some (.stF .always 16 20 0) ∧
    decode 0x7B805000#32 = some (.feClr .always 20 0) ∧ decode 0x7B36A800#32 = some (.ldW .always 13 10 0 0) := by decide +kernel
/-- R165-R171: LEAVE f5 forward 14 words under id 1, RDV 1, JOIN 1 beside it. -/
theorem test_decode_stream : decode 0x7EA2840E#32 = some (.leave 5 1 14) ∧ decode 0x7E900061#32 = some (.rdv 1) ∧
    decode 0x7E900041#32 = some (.join 1) := by decide +kernel
/-- R222-R233: MX.CTX s20, MX.SETB 0, 0, MX.MMA a0, s21, [s12], 0, MX.CNT v8, 5, MX.CNT v5, 5 la:1, MX.DRAIN a0, s18, s17,
ROWOUT s6, s7. -/
theorem test_decode_array : decode 0x7F0A0000#32 = some (.mxCtx .always 20) ∧ decode 0x7F200000#32 = some (.mxSetb .always 0 0) ∧
    decode 0x7F3AB000#32 = some (.mxMma .always 21 12 0 0) ∧ decode 0x7F740005#32 = some (.mxCnt .always 8 0 5) ∧
    decode 0x7F728045#32 = some (.mxCnt .always 5 1 5) ∧ decode 0x7F594400#32 = some (.mxDrain .always 18 17 0) ∧
    decode 0x7F631C01#32 = some (.rowout .always 6 7) := by decide +kernel
/-- R257, R259, R263, R267: FENCE.S s20, BAR.CFG 0, s7, BAR.SYNC 2, TICKET.BC s16, [s10] la:2. -/
theorem test_decode_cluster : decode 0x7FA05000#32 = some (.fenceS .always 20) ∧ decode 0x7F801C00#32 = some (.barCfg .always 7 0) ∧
    decode 0x7F8000C2#32 = some (.barSync .always 2) ∧ decode 0x7F982881#32 = some (.ticketBc .always 16 10 2) := by decide +kernel
/-- R128, R293, R298, R307, R370, R378: TLBW s16, s17, GO s5, LAUNCH s14, s11, IDEM.BEGIN s12, IDEM.END, XFER s11,
BQ.POP s16, [s10] la:1. -/
theorem test_decode_system : decode 0x7A204225#32 = some (.tlbwWriteEntry .always 16 17) ∧ decode 0x7FC01400#32 = some (.go .always 5) ∧
    decode 0x7FC72C01#32 = some (.launch .always 14 11) ∧ decode 0x7FC03002#32 = some (.idemBegin .always 12) ∧
    decode 0x7FC00003#32 = some (.idemEnd .always) ∧ decode 0x7FD58000#32 = some (.xfer .always 11) ∧
    decode 0x7FE82840#32 = some (.bqPop .always 16 10 1) := by decide +kernel
/-- R68-R70: MFS s16, ctl.evpend and MFS s16, trap.addr. -/
theorem test_decode_registers : decode 0x7A084001#32 = some (.mfs .always 16 0x4001) ∧ decode 0x7A080043#32 = some (.mfs .always 16 0x043) := by
  decide +kernel

/-! ## The manual's numbers -/

/-- R93: one step of rng from 1, and FP32 1 + 2^-9 to BF16 with R = 0 and to nearest. -/
theorem test_stochastic : xorShift64 1 = 0x40822041#64 ∧ fpConvert fp32 bf16 (.sr 0) false 0x3F804000 = (0x3F81, 16) ∧
    (fpConvert fp32 bf16 .rne false 0x3F804000).1 = 0x3F80 := by decide +kernel
/-- R116: 2.5 and -2.5 to S64 in each mode, 2^63, and a quiet NaN. -/
theorem test_cvt_table :
    ([.rne, .rtz, .rdn, .rup, .rna].map fun m => (fpToInt fp64 m false (-2 ^ 63) (2 ^ 63 - 1) 0x4004000000000000).1) = [2, 2, 2, 3, 3] ∧
    ([.rne, .rtz, .rdn, .rup, .rna].map fun m => (fpToInt fp64 m false (-2 ^ 63) (2 ^ 63 - 1) 0xC004000000000000).1) = [-2, -2, -3, -2, -3] ∧
    fpToInt fp64 .rne false (-2 ^ 63) (2 ^ 63 - 1) 0x43E0000000000000 = (2 ^ 63 - 1, 1) ∧
    fpToInt fp64 .rne false (-2 ^ 63) (2 ^ 63 - 1) 0x7FF8000000000000 = (0, 1) := by decide +kernel
/-- R89: the values 22, 12 and -22 of a block with s = 0x80. -/
theorem test_j4_values : roundFp fp32 .rne false (j4Value 8 0x80 0x53) = (0x41B00000, 0) ∧
    roundFp fp32 .rne false (j4Value 7 0x80 0x53) = (0x41400000, 0) ∧ roundFp fp32 .rne false (j4Value 8 0x80 0xD3) = (0xC1B00000, 0) := by
  decide +kernel
/-- R269, R358: the check values of CRC-64 of ECMA-182, reflected, and of CRC-32C. -/
theorem test_checksums : crc64 [0x31, 0x32, 0x33, 0x34, 0x35, 0x36, 0x37, 0x38, 0x39] = 0x995DC9BBDF1939FA#64 ∧
    crc32c [0x31, 0x32, 0x33, 0x34, 0x35, 0x36, 0x37, 0x38, 0x39] = 0xE3069283 := by decide +kernel

/-! ## States for the witnesses -/

/-- What `Ready` asks for, in a form that is computed. -/
def isReady (m : Meta) (s : State) (th : Thread) : Bool :=
  th.live && !th.expired && (!m.notMast || roleOf s.cur.core != .masthead) && (!m.inTrap || th.mode == .trap) &&
    (!m.priv || th.privileged) && (!m.trapOnly || th.mode == .trap) && (th.hazard m).isNone &&
    decide (th.outstanding < 4) &&
    (!(m.rd.contains 30) || m.noPort || !th.inEn) && (!(m.wr.contains 31) || !th.outEn)

/-- The always predicate holds, so what isReady computes is enough. -/
theorem ready_of_isReady {m : Meta} {s : State} {th : Thread} (h : s.thread? s.cur = some th) (r : isReady m s th = true) :
    Ready m .always s th := by
  constructor
  case here => exact h
  case pred => exact .inr rfl
  all_goals (intros; simp_all [isReady])

/-- A thread is ready for an instruction of encoding m in s, and pre holds of the begun state and thread: the hypotheses of
`Runs`, `Gives`, `Traps`, `Waits`, `Blocks` and `LocalTo`. -/
def meets (m : Meta) (s : State) (pre : State → Thread → Bool) : Bool :=
  match s.thread? s.cur with
  | some th => isReady m s th && pre (begun m s th) (th.begin_ m.occ)
  | none => false

theorem ready_of_meets {m : Meta} {s : State} {pre : State → Thread → Bool} (h : meets m s pre = true) :
    ∃ th, Ready m .always s th ∧ pre (begun m s th) (th.begin_ m.occ) = true := by
  unfold meets at h
  split at h
  · rename_i th e
    simp only [Bool.and_eq_true] at h
    exact ⟨th, ready_of_isReady e h.1, h.2⟩
  · exact absurd h (by decide)

/-- The first slot of core 0, and the address its scratchpad begins at. -/
def r0 : ThreadRef := ⟨0, 0⟩
def pad : Word := 0xFFFFFFFFFFFC0000

/-- A run-mode thread in that slot. -/
def run : State := State.reset.withFetchWord 32 0x7A200007

/-- The same, its thread changed, or the state as well. -/
def put (f : Thread → Thread) (s : State := run) : State := s.modThread r0 f

/-- Values in scalar registers. -/
def regs (l : List (Nat × Word)) (th : Thread) : Thread := l.foldl (fun t p => t.writeS p.1 p.2 0) th

/-- In control mode, and in trap mode. -/
def ctl : State := put fun th => { th with mode := .control }
def trp : State := put fun th => { th with mode := .trap, trapPc := 0x1000, trapCtl := true }

/-- Context 0, whose logical cores 0 to 3 are the same physical cores. -/
def ctx0 : Context :=
  { num := 0, conf := false, pennant := false, trace := false, kdbg := false, plim := 7, key := 0, hport := 0, rect := 0
    coreTab := [(0, 0), (1, 1), (2, 2), (3, 3)], routeTab := [], save := 0x100000, saveSz := 0x100000, park := 0, parkN := 0
    fq := 0, fqN := 0, plog := 0, plogN := 0, fwin := 0, tbuf := 0, tbufN := 0, fqNext := 0, plogNext := 0, tbufNext := 0
    breakpoints := [], measurement := [] }

/-- The band of the thread in r0, and its grant on core 0. -/
def band0 : BandRef := ⟨0, 0, 0⟩
def grant0 : Grant := ⟨band0, 0, 0x10000, false⟩

/-- The page at 0x10000 of context 0: near memory of die 0, all permissions. -/
def page0 : TlbEntry := ⟨0, 1, 0, true, true, true, false, 0, 0, 1⟩

/-- Context 0 active: cores 0 and 1 its own, the grant, and the page in the unit of cluster 0. -/
def live (s : State := run) : State :=
  (({ s with contexts := [ctx0] }.modCore 0 fun c => { c.assign 0 with grants := [grant0] }).modCore 1 fun c => c.assign 0).modUnit 0
    fun u => { u with tlb := [page0] }

/-! ## Witnesses: instructions of one thread

Each theorem names the statement whose hypotheses it meets; a statement with several clauses has one conjunct for each. -/

/-- A thread that changes nothing else is ready for any register and vector form, ports off, at both ends of the register
numbers. -/
theorem witness_IntegerArithmetic : meets (.scalar [0, 31] [31]) run (fun _ _ => true) = true ∧
    meets { Meta.scalar [30, 31] [0] with occ := 3 } run (fun _ _ => true) = true := by decide +kernel
theorem witness_BitOperations : meets (.scalar [31] [0]) run (fun _ _ => true) = true ∧
    meets (.scalar [1, 2, 3] [1]) run (fun _ _ => true) = true := by decide +kernel
theorem witness_ComparesAndImmediates : meets (.scalar [1, 2] []) run (fun _ _ => true) = true ∧
    meets (.scalar [] [31]) run (fun _ _ => true) = true := by decide +kernel
theorem witness_ScalarFloat : meets { Meta.scalar [1, 2] [3] with occ := 4 } run (fun _ _ => true) = true := by decide +kernel
theorem witness_VectorInteger : meets (.vec [0, 31, 1] [] [] 1) run (fun _ _ => true) = true := by decide +kernel
theorem witness_VectorFloat : meets (.vec [0, 31, 1] [] [] 16) run (fun _ _ => true) = true := by decide +kernel
theorem witness_VectorMovesAndReductions : meets (.vec [1] [2, 3] [4] 2) run (fun _ _ => true) = true := by decide +kernel
theorem witness_VectorBlocks : meets (.vec [1, 2] [3] [3] 2) run (fun _ _ => true) = true ∧
    meets (.vec [1, 2] [] [] 8) run (fun _ _ => true) = true := by decide +kernel
theorem witness_FlagForms : meets (.vec [] [31] [31] 1) run (fun _ _ => true) = true := by decide +kernel

/-- The thread of the present slot is live, and this holds of it. -/
def stands (s : State) (b : Thread → Bool) : Bool := (s.thread? s.cur).any fun th => th.live && b th

/-- The thread with n results outstanding that meet no register, due five instructions on. -/
def owing (n : Nat) (th : Thread) : Thread := { th with outs := List.replicate n ⟨0, .s, 29, 9, 5, 0, 0, .pending⟩ }

/-- What `Gated` asks for in each of its clauses: an expired window; a masthead core, and a mode other than trap mode; a mode
without control privilege; a register of an open window; a predicate that fails; a fifth result, an inbound queue that is empty
or whose word is not there yet, and an outbound queue of eight. -/
theorem witness_Gated :
    stands (put fun th => { th with outs := [⟨3, .s, 4, 0, 0, 0x80, 0, .pending⟩] }) (fun th => th.expired) = true ∧
    (let c : State := { ctl.setThread ⟨mastBase, 0⟩ ((ctl.thread? r0).getD Thread.blank) with cur := ⟨mastBase, 0⟩ }
     stands c (fun th => !th.expired && roleOf c.cur.core == .masthead) = true) ∧
    stands run (fun th => !th.expired && th.mode != .trap && !th.privileged && (th.hazard .plain).isNone) = true ∧
    stands (put (owing 1)) (fun th => !th.expired && (th.hazard (.scalar [29] [])).isSome) = true ∧
    stands run (fun th => !predHolds ⟨0, 1⟩ th && !th.member) = true ∧
    stands (put fun th => { th with sq := .subscribed, subBuf := [⟨0, 0x40, 0, false⟩] }) (fun th => !predHolds ⟨0, 1⟩ th && th.member) = true ∧
    stands (put (owing 4)) (fun th => !th.expired && (th.hazard .plain).isNone && th.outstanding == 4) = true ∧
    stands (put fun th => { th with portCfg := 1 }) (fun th => th.inEn && th.inq == [] && decide (th.outstanding < 4)) = true ∧
    stands (put fun th => { th with portCfg := 1, inq := [⟨9, 0, 1⟩] }) (fun th => th.inEn && th.inq.all fun w => run.beat < w.avail) = true ∧
    stands (put fun th => { th with portCfg := 2, outq := List.replicate 8 ⟨0, 0, 0⟩ }) (fun th => th.outEn && th.outq.length + th.bound31 == 8) = true := by
  decide +kernel

/-- Taken, not taken, a target that is not canonical, and one that is not aligned; a member. -/
theorem witness_ControlTransfers :
    meets (.scalar [5] [5]) (put (regs [(5, 2)])) (fun _ th => !th.member && th.readS 5 - 1 != 0 && canonical (th.pc + 4)) = true ∧
    meets (.scalar [5] [5]) (put (regs [(5, 1)])) (fun _ th => th.readS 5 - 1 == 0) = true ∧
    meets .plain (put fun th => { th with pc := 0x007FFFFFFFFFFFFC }) (fun _ th => !th.member && !canonical (th.pc + 4)) = true ∧
    meets (.scalar [2] []) (put (regs [(2, 0x40)])) (fun _ th => canonical (th.readS 2) && wbits (th.readS 2) 1 0 == 0) = true ∧
    meets (.scalar [2] []) (put (regs [(2, 0x80000000000000)])) (fun _ th => !canonical (th.readS 2)) = true ∧
    meets (.scalar [2] []) (put (regs [(2, 2)])) (fun _ th => canonical (th.readS 2) && wbits (th.readS 2) 1 0 != 0) = true ∧
    meets .plain (put fun th => { th with sq := .subscribed, subBuf := [⟨0, 0x40, 0, false⟩] }) (fun _ th => th.member) = true ∧
    meets .plain (put fun th => th.writeF 1 1) (fun _ th => th.readF 1 != 0) = true ∧
    meets .plain (put fun th => th.writeF 1 0xFFFFFFFF) (fun _ th => th.readF 1 == BitVec.allOnes 32) = true := by decide +kernel

/-- The thread with one outstanding result that has faulted, one window instruction on or at its own instruction, and with a
trap that waits. -/
def lateFault (n : Nat) (f : Thread → Thread := id) : State :=
  put fun th => { f th with outs := [⟨3, .s, 4, 2, n, 0x80, 0, .fault .eccUncorrectable 0x40 0x0200000000000000⟩] }
def owesTrap (s : State) (b : Thread → Bool) : Bool :=
  (s.thread? r0).any fun th => !th.engaged && th.resolved && th.trapDue && s.slotFree th && b th

/-- A late fault outside trap mode and in it, precise and window-late, before and after a trap that waits, and that trap
alone; a trap in trap mode under a context without a fault queue, and one outside it, of a settled thread. -/
theorem witness_TrapEntry :
    (owesTrap (lateFault 0) fun th => (firstFault th.outs).any (fun x => x.1.issued == 0) && th.mode != .trap) = true ∧
    (owesTrap (lateFault 2) fun th => (firstFault th.outs).any (fun x => x.1.issued != 0) && !th.member && th.trapPend == none) = true ∧
    (owesTrap (lateFault 1 fun th => { th with mode := .trap }) fun th => (firstFault th.outs).isSome && th.mode == .trap) = true ∧
    (owesTrap (lateFault 1 fun th => { th with trapPend := some ⟨.ill, 0, 9, 0x84⟩ }) fun th =>
      (firstFault th.outs).isSome && th.trapPend.isSome) = true ∧
    (owesTrap (put fun th => { th with trapPend := some ⟨.ill, 0, 9, 0x84⟩ }) fun th =>
      (firstFault th.outs).isNone && th.trapPend.isSome && th.mode != .trap) = true ∧
    (∃ th, (live trp).thread? r0 = some th ∧ th.mode = .trap ∧ th.settled = true ∧ th.sq = .fetching ∧ (live trp).recordsOf r0 = [] ∧
      (live trp).context? th.ctx = some ctx0) ∧
    ∃ th, run.thread? r0 = some th ∧ th.mode ≠ .trap ∧ th.settled = true :=
  by
  refine ⟨by decide +kernel, by decide +kernel, by decide +kernel, by decide +kernel, by decide +kernel, ?_, ?_⟩
  · exact ⟨((live trp).thread? r0).getD Thread.blank, by decide +kernel⟩
  · exact ⟨(run.thread? r0).getD Thread.blank, by decide +kernel⟩

theorem witness_TrapReturn :
    meets { Meta.plain with inTrap := true } trp (fun _ th => canonical (th.trapPc &&& ~~~(3#64))) = true ∧
    meets { Meta.plain with inTrap := true } (put (fun th => { th with trapPc := 0x80000000000000 }) trp)
      (fun _ th => !canonical (th.trapPc &&& ~~~(3#64)) && th.settled) = true ∧
    meets { Meta.plain with inTrap := true } (put (fun th => { th with trapPc := 0x80000000000000, outs := [⟨3, .s, 4, 2, 0, 0x80, 0, .pending⟩] }) trp)
      (fun _ th => !canonical (th.trapPc &&& ~~~(3#64)) && !th.settled) = true ∧
    ((run.thread? run.cur).any fun th => th.live && !th.expired && th.mode != .trap) = true := by decide +kernel

/-- A context with a debug session, and core 0 with something in its thread's store queue. -/
def session : State := { live with contexts := [{ ctx0 with kdbg := true, breakpoints := [(0, 0x40)] }] }
def storing : State := put fun th => { th with storeQ := [⟨0, [(pad, 8, 0)], false, pad, 0, none, none, false, [some (scratchKey 0 0)]⟩] }

/-- A fault record of the thread in its core's RECORD area. -/
def faulted : State :=
  ((live.writeRecord 0 0 3 0 false 3 0x400 pad 7).getD live).modCore 0 fun c => { c with recNew := [] }

/-- A thread that waits at an instruction for older work. -/
def atWork (w : Work) (f : Thread → Thread := id) : State := put fun th => { f th with wait := some ⟨.work w, 0, 0⟩ }
def workIsOver (s : State) (w : Work) (b : Bool) : Bool :=
  (s.thread? r0).any fun th => s.workOver r0 th w == b && th.wait == some ⟨.work w, 0, 0⟩

/-- Each kind of work, over and, where the state can hold it, not over. -/
theorem witness_endWork :
    (∀ w ∈ [Work.drain, .fenceI, .fenceS false false, .fenceS true true, .reductions, .accesses, .copies 3, .portCfg 5],
      workIsOver (atWork w) w true = true) ∧
    workIsOver (atWork .drain fun th => { th with storeQ := [⟨0, [(pad, 8, 0)], false, pad, 0, none, none, false, [some (scratchKey 0 0)]⟩] }) .drain false = true ∧
    workIsOver (atWork .reductions fun th => { th with pending := 1 }) .reductions false = true ∧
    workIsOver (atWork (.portCfg 5) fun th => { th with outq := [⟨7, 1, 0⟩] }) (.portCfg 5) false = true := by decide +kernel

theorem witness_SystemInstructions :
    meets .plain run (fun s th => !s.sessionHolds th) = true ∧ meets .plain session (fun s th => s.sessionHolds th) = true ∧
    meets { Meta.plain with leaveOff := true } run (fun s th => th.settled && !s.haltBusy s.cur th && !s.undelivered s.cur) = true ∧
    meets { Meta.plain with leaveOff := true } trp (fun s th => th.settled && !s.haltBusy s.cur th && th.mode == .trap) = true ∧
    (let m := { Meta.plain with leaveOff := true }
     let found (s : State) (th : Thread) : Bool := th.settled && th.mode != .trap && !s.haltBusy s.cur th && s.undelivered s.cur
     meets m (put (owing 1)) (fun _ th => !th.settled) = true ∧ meets m storing (fun s th => th.settled && s.haltBusy s.cur th) = true ∧
     meets m faulted (fun s th => found s th && s.storeFaultPending s.cur) = true ∧
     meets m (faulted.modCore 0 fun c => { c with recNew := [0] }) (fun s th => found s th && !s.storeFaultPending s.cur) = true) ∧
    meets .plain run (fun s th => s.drained s.cur th) = true ∧ meets .plain storing (fun s th => !s.drained s.cur th) = true ∧
    meets { Meta.plain with priv := true } ctl (fun s _ => !(s.slot s.cur).event) = true ∧
    meets { Meta.plain with priv := true } (ctl.modSlot r0 fun x => { x with event := true }) (fun s _ => (s.slot s.cur).event) = true := by
  decide +kernel

theorem witness_SpecialRegisterReads : meets (.scalar [] [31]) run (fun _ _ => true) = true ∧
    meets { Meta.scalar [] [1] with priv := true } ctl (fun _ _ => true) = true ∧
    meets { Meta.scalar [] [1] with trapOnly := true } trp (fun _ _ => true) = true := by decide +kernel

/-- Values at the ends of the ranges of scope.d and fp.ctl, and the trap registers in and out of trap mode. -/
theorem witness_SpecialRegisterWrites :
    meets (mtsMeta 2 0x020) (put (regs [(2, 0x1F1F0000)])) (fun _ th => scopeOk (th.readS 2)) = true ∧
    meets (mtsMeta 2 0x020) (put (regs [(2, 0xFFFFFFFFFFFFFFFF)])) (fun _ th => !scopeOk (th.readS 2)) = true ∧
    meets (mtsMeta 2 0x026) (put (regs [(2, 4)])) (fun _ th => decide (wbits (th.readS 2) 2 0 ≤ 4)) = true ∧
    meets (mtsMeta 2 0x026) (put (regs [(2, 5)])) (fun _ th => decide (4 < wbits (th.readS 2) 2 0)) = true ∧
    meets (mtsMeta 2 0x041) trp (fun _ th => th.mode == .trap) = true ∧ meets (mtsMeta 2 0x044) run (fun _ th => th.mode != .trap) = true ∧
    meets (mtsMeta 2 0x04B) trp (fun _ _ => true) = true ∧ meets (mtsMeta 2 0x4051) ctl (fun _ _ => true) = true ∧
    meets (mtsMeta 2 0x000) run (fun _ _ => true) = true := by decide +kernel

/-- The control thread of masthead core 0 of I/O die 0, which alone writes pwr.fstep and key.cmd. -/
def chief : State := { ctl.setThread ⟨mastBase, 0⟩ ((ctl.thread? r0).getD Thread.blank) with cur := ⟨mastBase, 0⟩ }

theorem witness_ControlRegisterWrites :
    meets (mtsMeta 2 0x060) run (fun s _ => (s.core s.cur.core).deliveries == [] && (s.core s.cur.core).mboxPend == []) = true ∧
    meets (mtsMeta 2 0x062) (run.modCore 0 fun c => { c with mboxSize := 64 }) (fun s th => decide ((th.readS 2).toNat < (s.core s.cur.core).mboxSize)) = true ∧
    meets (mtsMeta 2 0x060) (run.modCore 0 fun c => { c with deliveries := [⟨[(0, 1)], 0, none, 0, 0x400, [0, 0, 0, 0]⟩] }) (fun s _ => (s.core s.cur.core).deliveries != []) = true ∧
    meets (mtsMeta 2 0x061) (run.modCore 0 fun c => { c with mboxPend := [(true, 0)] }) (fun s _ => (s.core s.cur.core).mboxPend != []) = true ∧
    meets (mtsMeta 2 0x062) run (fun s th => decide ((s.core s.cur.core).mboxSize ≤ (th.readS 2).toNat)) = true ∧
    meets (mtsMeta 2 0x4030) { chief with keyBusy := true } (fun s _ => s.keyBusy) = true ∧
    meets (mtsMeta 2 0x4005) ctl (fun s _ => s.ctxActBusy == none) = true ∧
    meets (mtsMeta 2 0x4005) { ctl with ctxActBusy := some 1 } (fun s _ => s.ctxActBusy != none) = true ∧
    meets (mtsMeta 2 0x4010) (chief.modThread ⟨mastBase, 0⟩ (regs [(2, 18)])) (fun s th => s.cur.core == mastBase && decide ((th.readS 2).toNat ≤ 18)) = true ∧
    meets (mtsMeta 2 0x4010) ctl (fun s _ => s.cur.core != mastBase) = true ∧
    meets (mtsMeta 2 0x4010) (put (regs [(2, 19)]) ctl) (fun _ th => decide (18 < (th.readS 2).toNat)) = true ∧
    meets (mtsMeta 2 0x4030) chief (fun s _ => s.cur.core == mastBase && !s.keyBusy) = true := by decide +kernel

theorem witness_PrivilegeRules :
    (∃ th, run.thread? run.cur = some th ∧ th.live = true ∧ th.expired = false ∧ th.privileged = false ∧ th.mode ≠ .trap) ∧
    ∃ th, ctl.thread? ctl.cur = some th ∧ th.live = true ∧ th.expired = false ∧ th.mode ≠ .trap :=
  ⟨⟨(run.thread? r0).getD Thread.blank, by decide +kernel⟩, ⟨(ctl.thread? r0).getD Thread.blank, by decide +kernel⟩⟩

/-! ## Witnesses: memory -/

/-- Context 0 with one fabric window onto package 5 through port 0, for loads, stores and full/empty forms. -/
def wired : State :=
  ((({ live with contexts := [{ ctx0 with fwin := 0x200000 }] }).writeMem 0x200000 8 1).writeMem 0x200040 8 0x5000F).writeMem
    0x200050 8 0x1000000

/-- The thread with an address in s2, in one of these states. -/
def atAddr (s : State) (a : Word) (f : Thread → Thread := id) : State := s.modThread r0 fun th => f (regs [(2, a)] th)

/-- What `Accesses` asks for in each of its clauses: an address that is misaligned, one that faults, one without a
translation, one held by a take, one on its way, one of another slot's record, and one of a remote package. -/
def accessWitness (m : Meta) (a : Acc) : Bool :=
  let go (s : State) (va : Word) (k : Xl → State → Thread → Bool) (f : Thread → Thread := id) : Bool :=
    meets m (atAddr s va f) fun b y => y.readS 2 == va && decide (va.toNat % a.size = 0) && k (b.resolve b.cur y va a (.thread b.cur)) b y
  (a.size == 1 || meets m (atAddr run (pad + 1)) fun _ y => decide ((y.readS 2).toNat % a.size ≠ 0)) &&
  go run 0x80000000000000 (fun r _ _ => match r with | .fault .. => true | _ => false) &&
  go live 0x20000 (fun r _ _ => r == .miss) &&
  go live pad (fun r b y => match r with | .ok k _ => b.holdsTake b.cur y pad k | _ => false) (fun th => { th with heldTakes := [pad] }) &&
  go live 0x10000 (fun r b y => match r with | .ok k e => y.heldTakes == [] && (b.homeExec? b.cur y 0x10000 k e).isNone | _ => false) &&
  go live (pad + 0xFFF8) (fun r _ y => (match r with | .ok .. => true | _ => false) && y.heldTakes == []) &&
  (!a.record || go (trp.writeMem (recordKey 0 0) 8 3) 0xFFFFFFFFFFFBFF00 (fun r _ _ => r == .zero)) &&
  (!a.fabric || go wired 0xFF80000000000040 (fun r _ y => (match r with | .remote _ => true | _ => false) && decide (y.pending < 8)))

/-- The page is home-execute and lies in near memory of die 1, beside core 1088, which context 0 has as its logical core 4; one of
the thread's takes names a word of another package. -/
def homeward : State :=
  (({ live with contexts := [{ ctx0 with coreTab := ctx0.coreTab ++ [(4, 1088)] }] }.modCore 1088 fun c => c.assign 0).modUnit 0
    fun u => { u with tlb := [{ page0 with hx := true, frame := 2 ^ 19 + 1 }] })

theorem witness_Access : meets (.mem [2] [3] true) (atAddr homeward 0x10000) (fun b y =>
      match b.resolve b.cur y (y.readS 2) accFeTake (.thread b.cur) with
      | .ok k e => b.homeExec? b.cur y (y.readS 2) k e == some 1088 && y.heldTakes == []
      | _ => false) = true ∧
    meets (.mem [2] [3] true) (atAddr wired 0xFF80000000000040 fun th => { th with heldTakes := [0xFF80000000000040] }) (fun b y =>
      match b.resolve b.cur y (y.readS 2) accFeTake (.thread b.cur) with
      | .remote w => b.holdsTake b.cur y (y.readS 2) w.key
      | _ => false) = true ∧
    meets (.mem [2, 3] [] false) (atAddr live 0x10000 fun th => { th with pending := 8 }) (fun b y =>
      (match b.resolve b.cur y (y.readS 2) accFeWrite (.thread b.cur) with | .ok .. => true | _ => false) && decide (8 ≤ y.pending)) = true ∧
    meets (.mem [2, 3] [] false) (atAddr live pad fun th => { th with storeQ := List.replicate 16 ⟨0, [(pad, 8, 0)], false, pad, 0, none, none, false, [some (scratchKey 0 0)]⟩ })
      (fun b y => b.storeWindowOk b.cur y (y.memAddr 2 0 8) true && decide (16 ≤ y.storeQ.length)) = true := by decide +kernel

theorem witness_LoadsIssue : accessWitness (.mem [2] [3] true) (accLoad 8) = true ∧ accessWitness (.mem [2] [2] true) (accLoad 1) = true ∧
    accessWitness (.mem [2] [3] true) accFeRead = true ∧ accessWitness (.mem [2] [31] true) accFeTake = true := by decide +kernel
theorem witness_StoresAndFillsIssue : accessWitness (.mem [2, 3] [] false) accFeWrite = true ∧ accessWitness (.mem [2] [] false) accFeTake = true ∧
    meets (.mem [2, 3] [] false) (atAddr run (pad + 1)) (fun _ y => decide ((y.memAddr 2 0 2).toNat % 2 ≠ 0)) = true ∧
    meets (.mem [2, 3] [] false) (atAddr run 0x80000000000000) (fun b y => decide ((y.memAddr 2 0 8).toNat % 8 = 0) &&
      !b.storeWindowOk b.cur y (y.memAddr 2 0 8) true) = true ∧
    meets (.mem [2, 3] [] false) (atAddr live pad) (fun b y => decide ((y.memAddr 2 0 8).toNat % 8 = 0) &&
      b.storeWindowOk b.cur y (y.memAddr 2 0 8) true && decide (y.storeQ.length < 16)) = true := by decide +kernel
theorem witness_AtomicsAndClaimsIssue : accessWitness (.mem [3, 2] [3] true) accFeWrite = true ∧
    accessWitness (.mem [4, 5, 2] [4] true) accFeWrite = true ∧ accessWitness (.mem [3, 2] [] false) accFeWrite = true ∧
    accessWitness (.mem [2] [3] true) accClaim = true ∧ meets .plain run (fun _ th => th.pending == 0) = true ∧
    meets .plain (put fun th => { th with pending := 8 }) (fun _ th => th.pending != 0) = true := by decide +kernel

/-- The 32 lanes of V.LD at 0x10000 pass their checks, and with no lane enabled there is nothing to check. -/
theorem witness_VectorMemoryIssues :
    meets { Meta.vec [5] [2] [] 1 with window := true } (atAddr live 0x10000) (fun b y =>
      match b.checkLanes y ((List.range 32).map fun i => (i, y.readS 2 + ofN (4 * i))) with | .ok ls => ls.length == 32 | _ => false) = true ∧
    meets { Meta.vec [5] [2] [] 4 with window := true } (atAddr run 0) (fun b y =>
      match b.checkLanes y [] with | .ok ls => ls.isEmpty | _ => false) = true ∧
    meets { Meta.vec [5] [2] [] 1 with window := true } (atAddr live 0x10002) (fun b y =>
      match b.checkLanes y [(0, y.readS 2)] with | .error r => r == .trap .align 0x10002 0 | _ => false) = true ∧
    (let off (x : Nat × Word) : Bool := x.2.toNat % 4 != 0 || !canonical x.2 || windowOf x.2 == .fabric
     off (0, pad + 2) = true ∧ off (31, 0x80000000000000) = true ∧ off (5, 0xFF80000000000000) = true ∧ off (0, pad) = false) ∧
    meets (.vec [5] [2] [] 1) (atAddr live pad fun th => { th with storeQ := List.replicate 16 ⟨0, [(pad, 8, 0)], false, pad, 0, none, none, false, [some (scratchKey 0 0)]⟩ })
      (fun _ y => decide (16 ≤ y.storeQ.length)) = true ∧
    meets (.vec [5] [2] [] 1) (atAddr live pad) (fun _ y => decide (y.storeQ.length < 16)) = true := by decide +kernel

/-- An address of each window, at its first or last byte. -/
theorem witness_AddressChecks :
    windowOf 0x80000000000000 = .none ∧ windowOf 0x7FFFFFFFFFFFFF = .global ∧ windowOf 0xFFFFFFFFFFFBFF00 = .record 0 ∧
    windowOf 0xFFFFFFFFFFFBFFFF = .record 255 ∧ windowOf pad = .local_ 0 ∧ windowOf 0xFFFFFFFFFFFFFFFF = .local_ 0x3FFFF ∧
    windowOf 0xFFFE000000000000 = .core 0 0 ∧ windowOf 0xFFFE00017FFFFFFF = .core 24575 0x3FFFF ∧ windowOf 0xFFFE000180000000 = .none ∧
    windowOf 0xFF80000000000000 = .fabric ∧ windowOf 0xFFBFFFFFFFFFFFFF = .fabric ∧
    run.grantAt? 0 0 0 = none ∧ (run.thread? r0).any (fun th => !th.privileged && th.mode != .trap) = true ∧
    (∃ x, (wired.fabWindow? 0 0xFF80000000000000 1) = some x ∧ (wired.fabWindow? 0 0xFF80000000000000 3) = some x) ∧ live.physical? 0 1 = some 1 ∧ live.grantAt? 1 0 0 = none ∧
    (ctl.thread? r0).any (fun th => th.privileged) = true ∧ ctl.grantAt? 0 0 0 = none ∧ (live ctl).physical? 0 0 = some 0 ∧
    live.grantAt? 0 0xFFFF 0 = some grant0 ∧ live.grantAt? 0 0x10000 0 = none ∧ live.physical? 0 0 = some 0 ∧ live.physical? 0 4 = none ∧
    run.fabWindow? 0 0xFF80000000000000 1 = none ∧ live.findEntry 0 0 0x1FFFF = some page0 ∧ page0.grants .wr = true ∧
    TlbEntry.grants { page0 with wr := false } .wr = false ∧ TlbEntry.grants { page0 with tier := 2 } .rd = true := by decide +kernel

/-- A request with number 0 for the word at key 0x10000. -/
def req (k : ReqKind) : Flight :=
  { id := 0, thread := r0, ctx := 0, kind := k, va := 0x10000, key := 0x10000, data := 7, data2 := 0, issuedAt := 0, budget := 0
    pc := 0x400, scope := 0, stage := .sent, withdrawal := false, cipher := .plain, orphan := false, detached := none }

/-- A package with that request on its way. -/
def flying (f : Flight) (s : State := run) : State := { s with flights := [f], serial := 1 }

/-- The band of core 0's grant is saved, and its context has a park list of two entries, the first of them taken. -/
def parking : Context := { ctx0 with park := 0x300000, parkN := 2 }
def away : State :=
  { live.modCore 0 fun c => { c with grants := [{ grant0 with saved := true }] } with contexts := [parking], feFlips := [0x300020] }

theorem witness_RequestArrivals :
    (∀ k ∈ [ReqKind.load 8 false, .stF, .red 0, .amo 0], (flying (req k)).flight? 0 = some (req k) ∧ (flying (req k)).blocked (req k) = false) ∧
    (let x := (3, 0x10000#64, 0x10000, Keying.plain)
     let f := req (.vload [x] none)
     [x].find? (fun y => y.1 == 3) = some x ∧ (flying f).held 0x10000 = false ∧ (flying f).grantSaved 0 0x10000 = false ∧
       (flying f).blocked { f with kind := .load 4 false, key := 0x10000 } = false) ∧
    (State.held { flying (req .ldW) with holds := [⟨0x10000, 9, []⟩] } 0x10000 = true) ∧
    (let f := req .ldW
     let s := { flying f with feFlips := [0x10000] }
     s.held f.key = false ∧ s.holdsFor f = false ∧ s.waitersAt (holderOf f.key) < waiterEntries (holderOf f.key) ∧
       s.grantSaved f.ctx f.key = false ∧ ∀ g ∈ s.flights, g.stage.spilled = false) ∧
    (∀ k ∈ [ReqKind.ldT, .bqPop], let f := req k
     (flying f).held f.key = false ∧ (flying f).holdsFor f = true ∧ (flying f).grantSaved f.ctx f.key = false) ∧
    (∀ k ∈ [ReqKind.load 8 false, .ldW], let f := { req k with key := scratchKey 0 8 }
     let s := flying f away
     s.grantSaved f.ctx f.key = true ∧ s.context? f.ctx = some parking ∧ s.parkFree? parking = some 0x300020) := by decide +kernel

/-- An access as it was written is one that meets its words so, in a form that is computed. -/
def isClear (s : State) (c : Keying) (key n : Nat) : Bool :=
  match c with
  | .plain => true
  | .under k => s.keyFits k key n
  | .sealed _ => false

theorem clear_of_isClear {s : State} {c : Keying} {key n : Nat} (h : isClear s c key n = true) : Clear s c key n := by
  cases c with
  | plain => exact .inl rfl
  | under k => exact .inr ⟨k, rfl, h⟩
  | sealed k => simp [isClear] at h

/-- No error anywhere, and each kind of request in turn. -/
theorem witness_HolderPerforms :
    (∀ k ∈ [ReqKind.load 2 true, .ldW, .feProbe, .ldT, .feClr, .stF, .stS, .ticket false, .ticket true, .bqPop, .red 8, .amo 9],
      let f := req k
      (flying f).eccAt f.key = false ∧ (flying f).eccSoft = [] ∧ isClear (flying f) f.cipher (wordKey f.key) 8 = true ∧
        isClear { flying f with keys := [(3, false, 1)], unitKeys := [(0x400, 3, 2)] } (.under 3) (wordKey f.key) 8 = true ∧
        (flying f).foreignRecord f.key f.thread.slot = false ∧ f.orphan = false ∧ f.detached = none ∧ f.home = false) ∧
    -- a claim: past COUNT, within it, and one that would cross its page; at its ready word
    ((flying (req .bqPop)).readMem 0x10000 4 = 0 ∧ (flying (req .bqPop)).readMem 0x10004 4 = 0 ∧ (req .bqPop).data2 = 0) ∧
    (let s := (flying (req .bqPop)).writeMem 0x10000 8 0x200000001
     s.readMem 0x10000 4 = 1 ∧ s.readMem 0x10004 4 = 2 ∧ 0x10000 % 2 ^ 16 + 8 + 8 * 2 ≤ 2 ^ 16) ∧
    ((flying (req .bqPop)).writeMem 0x10004 4 0x2000).readMem 0x10004 4 = 0x2000 ∧ 2 ^ 16 < 0x10000 % 2 ^ 16 + 8 + 8 * 0x2000 ∧
    (let f := { req .bqPop with data2 := 1, data := 0x10000, key := 0x10008 }
     f.data.toNat % 8 = 0 ∧ isClear (flying f) f.cipher f.data.toNat 4 = true ∧ (flying f).eccAt f.key = false) ∧
    -- the number of a TICKET.BC, to a register and, in outbound mode off, to s31
    (∀ d ∈ [5, 31], let o : Out := ⟨0, .s, d, 0, 0, 0x400, 0, .bcast 9 0⟩
      (run.thread? r0).any (fun th => ({ th with outs := [o] }.outs.find? fun x => x.id == 0) == some o && !th.outEn) = true ∧
        (put fun th => { th with outs := [o] }).bcastTurn 0 0 = true) := by
  and_intros <;> decide +kernel

/-- A core with an outstanding LD.W, in a package past its budget. -/
def late (f : Flight) (g : Thread → Thread) : State :=
  { flying f (put fun th => g { th with outs := [⟨0, .s, 3, 0, 0, th.pc - 4, 2, .pending⟩] }) with beat := 1 }

/-- A request withdrawn, at each place a withdrawal may find it, and its thread as `RequestEvents` asks. -/
theorem witness_RequestEvents :
    (∀ st ∈ [Stage.granted 5, .filling 6, .refused, .withdrawn],
      let f := { req (.amo 0) with stage := st }
      (flying f).flight? 0 = some f) ∧
    (∀ st ∈ [Stage.sent, .queued (some 8), .refused, .deferred],
      let f := { req .ldW with stage := st }
      (late f id).flight? 0 = some f ∧ f.kind.awaits ≠ none ∧ f.budget ≠ BitVec.allOnes 64 ∧ f.issuedAt + f.budget.toNat < (late f id).beat) ∧
    (∀ st ∈ [Stage.refused, .queued none], let f := { req .ldW with stage := st, withdrawal := true }
      (flying f).flight? 0 = some f ∧ ∀ g ∈ (flying f).flights, g.kind ≠ .bqPop ∧ g.stage.spilled = false) ∧
    (let s := late { req .ldW with stage := .withdrawn } id
     ((s.thread? r0).bind fun th => th.outs.head?).any (fun o => o.id == 0) = true ∧ (s.thread? r0).any (fun th => th.outs.length == 1) = true) ∧
    (let s := flying { req .stF with stage := .withdrawn }
     (s.thread? r0).any (fun th => th.mode != .trap && th.outs.isEmpty) = true) ∧
    (let s := flying { req (.red 0) with stage := .withdrawn }
     (s.writeRecord 0 0 5 1 false 3 0x400 0x10000 7).isSome = true ∧ (s.thread? r0).any (fun th => !th.halted) = true) := by
  and_intros <;> decide +kernel

/-- The thread with values in s2, s3 and s4. -/
def three (s : State) (a b c : Word) : State := s.modThread r0 (regs [(2, a), (3, b), (4, c)])

/-- A copy of sixteen bytes in the unit, and a unit that is full. -/
def aCopy : Copy := ⟨0, 0, 0, 0, pad, pad + 0x100, 16, 0, 0x400, none, none, 0, band0, false, false⟩
def copies (n : Nat) (s : State := live) : State := s.modCore 0 fun c => { c with copies := List.replicate n aCopy }

theorem witness_Copies :
    let m := Meta.scalar [2, 3, 4] []
    let n (y : Thread) := (y.readS 4).toNat
    let ranges (s : State) (y : Thread) : Bool := (s.rangeBad s.cur y (y.readS 2) (n y)).isNone && (s.rangeBad s.cur y (y.readS 3) (n y)).isNone
    meets m (three run 1 0 0) (fun _ y => (y.readS 2).toNat % 8 != 0) = true ∧
    meets m (three run 0 1 0) (fun _ y => (y.readS 2).toNat % 8 == 0 && (y.readS 3).toNat % 8 != 0) = true ∧
    meets m (three run 0 0 4) (fun _ y => (y.readS 2).toNat % 8 == 0 && (y.readS 3).toNat % 8 == 0 && n y % 8 != 0) = true ∧
    meets m (three live 0x80000000000000 0 8) (fun s y => (s.rangeBad s.cur y (y.readS 2) (n y)).isSome) = true ∧
    meets m (three live pad 0x80000000000000 8) (fun s y => (s.rangeBad s.cur y (y.readS 2) (n y)).isNone && (s.rangeBad s.cur y (y.readS 3) (n y)).isSome) = true ∧
    meets m (three (copies 16) pad (pad + 64) 8) (fun s y => ranges s y && decide (16 ≤ (s.core s.cur.core).copies.length)) = true ∧
    meets m (three (copies 15) pad (pad + 64) 8) (fun s y => ranges s y && decide ((s.core s.cur.core).copies.length < 16)) = true ∧
    meets m (three run 0 0 0) (fun _ y => n y == 0) = true ∧
    meets (.scalar [] [2]) run (fun _ _ => true) = true ∧
    meets (.scalar [2] []) run (fun s _ => (s.core s.cur.core).copies.isEmpty) = true ∧
    meets (.scalar [2] []) (put (fun th => { regs [(2, 1)] th with copyBatch := 1 }) (live.modCore 0 fun c => { c with copies := [{ aCopy with batch := some 1 }] }))
      (fun s y => (s.core s.cur.core).copies.any fun x => x.slot == s.cur.slot && !x.ended && x.batch == some (min (y.readS 2).toNat y.copyBatch)) = true ∧
    meets .plain run (fun s _ => s.allPerformed s.cur s.serial true) = true ∧
    meets .plain (flying (req .stS)) (fun s _ => !s.allPerformed s.cur s.serial true) = true ∧
    meets (.scalar [2] []) (put (regs [(2, 0x100000000)])) (fun s y => scopeOk (y.readS 2) && y.resolved && y.storeQ.isEmpty && s.flights.isEmpty &&
      s.fabReqs.isEmpty && s.barMsgs.isEmpty && s.hostWrites.isEmpty) = true ∧
    meets (.scalar [2] []) (flying (req .stS)) (fun s y => scopeOk (y.readS 2) && s.flights.any fun f => f.of s.cur && windowOf f.va != .fabric && !f.kind.isRed) = true ∧
    meets (.scalar [2] []) ((flying { req (.red 0) with va := 0xFF80000000000000 }).modThread r0 (regs [(2, 0x200000000)])) (fun s y =>
      scopeOk (y.readS 2) && wbit (y.readS 2) 33 && s.flights.any fun f => f.of s.cur && windowOf f.va == .fabric) = true ∧
    meets (.scalar [2] []) (put (regs [(2, 0xFFFFFFFFFFFFFFFF)])) (fun _ y => !scopeOk (y.readS 2)) = true ∧
    meets (.scalar [2] []) (put (regs [(2, 0)]) { run with fabReqs := [{ FabReq.mk' 0 (FabTx.request 2 0 ⟨0, none, 5, 0, 0x10000, 1⟩ 3 [7]) ⟨0, none, 5, 0, 0x10000, 1⟩ none (some r0) (some r0) 0xFF80000000000000 0x400 with xfer := none }] })
      (fun s y => scopeOk (y.readS 2) && !wbit (y.readS 2) 33 && s.fabReqs.any fun r => r.thread == some s.cur && r.store.isSome && r.xfer.isNone) = true := by decide +kernel

/-- A band of one thread, and a state in which it runs with barrier 0 of a count of two. -/
def bandOf (st : BandState) : Band := ⟨band0, st, 0, [0], [r0], false, [], [], false, none, 0⟩
def bar0 (g a : Nat) (pend : List (Nat × Nat)) : Barrier := ⟨band0, 0, 2, none, a, g, [], pend, [], false⟩
def barred (b : Barrier) (s : State := live) : State :=
  { s with bands := [bandOf .running] }.modCluster 0 fun c => { c with barriers := [b] }

theorem witness_Barriers :
    let m := { Meta.plain with notMast := true }
    let ma := { Meta.scalar [2] [] with notMast := true }
    let b (s : State) (y : Thread) : Barrier := (s.barrier? y.bandRef 0).getD (bar0 0 0 [])
    let has (s : State) (y : Thread) : Bool := (s.barrier? y.bandRef 0).isSome
    meets ma run (fun s y => !has s y) = true ∧ meets m run (fun s y => !has s y) = true ∧
    meets ma (atAddr (barred (bar0 0 0 [])) 1) (fun s y => has s y && y.readS 2 == 1) = true ∧
    meets ma (atAddr (barred (bar0 0 0 [])) 512) (fun s y => has s y && y.readS 2 == 512) = true ∧
    meets ma (atAddr (barred (bar0 0 0 [])) 0) (fun _ y => y.readS 2 == 0) = true ∧
    meets ma (atAddr (barred (bar0 0 0 [])) 513) (fun _ y => y.readS 2 == 513) = true ∧
    meets m (barred (bar0 0 0 [])) (fun s y => has s y && y.settled && !s.arriving s.cur 0) = true ∧
    meets m (barred (bar0 0 0 []) (put (fun th => { th with outs := [⟨0, .s, 3, 5, 0, 0, 0, .pending⟩] }) live)) (fun s y => has s y && !y.settled) = true ∧
    meets m (barred (bar0 1 0 [(0, 0)])) (fun s y => has s y && !s.arriving s.cur 0 && genDone (b s y).g ((b s y).target y.tib)) = true ∧
    meets m (barred (bar0 0 1 [(0, 0)])) (fun s y => has s y && !s.arriving s.cur 0 && !genDone (b s y).g ((b s y).target y.tib)) = true ∧
    meets m (barred (bar0 1 0 [(0, 0)])) (fun s y => y.settled && !s.arriving s.cur 0 && has s y && genDone (b s y).g (((b s y).pending? y.tib).getD 0)) = true := by
  decide +kernel

/-- A message to barrier 0 that is due. -/
def barMsg (cfg : Option Nat) : BarMsg := ⟨0, r0, band0, 0, cfg, 0, 0, 2, 0, []⟩
def told (cfg : Option Nat) (b : Barrier) : State := { barred b with barMsgs := [barMsg cfg], beat := 2 }

theorem witness_BarrierEvents :
    (run.thread? r0).any (fun th => !th.inEn && !th.outEn) = true ∧
    (let s := told (some 512) (bar0 0 0 [])
     s.barDue (barMsg (some 512)) = true ∧ s.barrier? band0 0 = some (bar0 0 0 [])) ∧
    (let s := told none (bar0 0 0 [])
     s.barDue (barMsg none) = true ∧ s.barrier? band0 0 = some (bar0 0 0 []) ∧ (bar0 0 0 []).a + 1 ≠ (bar0 0 0 []).c) ∧
    (let s := told none (bar0 0 1 [])
     s.barDue (barMsg none) = true ∧ s.barrier? band0 0 = some (bar0 0 1 []) ∧ (bar0 0 1 []).a + 1 = (bar0 0 1 []).c) ∧
    (let b := { bar0 1 0 [] with heldPennant := true }
     ((barred b).cluster 0).barriers[0]? = some b) ∧
    (let s := { put (fun th => { th with wait := some ⟨.bar 0 0, 0, 0⟩ }) live with beat := 1 }
     ((s.thread? r0).bind Thread.wait).any (fun w => w.budget != BitVec.allOnes 64 && decide (w.since + w.budget.toNat < s.beat)) = true) := by
  decide +kernel

/-- Core 1 publishes at class 2 for context 0, and slot 0 of core 0 stands so to its channel. -/
def pub1 (members : List ThreadRef) : Publication := ⟨7, 0, 2, 0, members, [], [⟨0, 0x40, 0, false⟩], false, none⟩
def onAir (members : List ThreadRef) (s : State := live) : State := s.modCore 1 fun c => { c with pub := some (pub1 members) }
def member (s : State) (f : Thread → Thread := id) : State :=
  s.modThread r0 fun th => f { th with sq := .subscribed, sqCh := 1, sqDepth := 2, publication := 7, subBuf := [⟨0, 0x40, 0, false⟩] }
/-- The thread publishes on its own core's channel. -/
def publisher (s : State := live) : State :=
  (s.modThread r0 fun th => { th with sq := .publishing, sqDepth := 2 }).modCore 0 fun c => { c with pub := some { pub1 [] with serial := 3 } }

theorem witness_Publishing :
    let ms := Meta.stream []
    let m2 := Meta.stream [2]
    let free (_ : State) (y : Thread) : Bool := y.handler == none && y.sq != .publishing && y.mode != .trap
    meets ms live (fun s y => free s y && (s.core s.cur.core).pub == none && s.allThreads.all fun q => q.2.wait == none) = true ∧
    meets ms (live.modCore 0 fun c => { c with pub := some (pub1 []) }) (fun s y => free s y && (s.core s.cur.core).pub != none) = true ∧
    meets ms publisher (fun _ y => y.handler == none && y.sq == .publishing) = true ∧ meets ms trp (fun _ y => y.mode == .trap) = true ∧
    meets .plain publisher (fun _ y => y.sq == .publishing && y.mode != .trap) = true ∧
    meets .plain (put (fun th => { th with mode := .trap }) publisher) (fun _ y => y.sq == .publishing && y.mode == .trap) = true ∧
    meets .plain (member (onAir [r0])) (fun _ y => y.member) = true ∧
    meets .plain run (fun _ y => y.sq != .publishing && !y.member) = true ∧
    meets m2 (atAddr (onAir []) 1) (fun s y => y.settled && free s y && !y.member && s.physical? y.ctx 1 == some 1 &&
      reachOk 1 (pub1 []) s.cur.core y.ctx) = true ∧
    meets m2 (atAddr live 1) (fun s y => y.settled && free s y && !y.member && s.physical? y.ctx 1 == some 1 && (s.core 1).pub == none) = true ∧
    meets ms (put (fun th => { th with handler := some ⟨false, 0⟩ }) live) (fun _ y => y.handler != none) = true ∧
    meets m2 (atAddr live 1 (owing 1)) (fun s y => !y.settled && free s y && !y.member && s.physical? y.ctx 1 == some 1) = true ∧
    meets m2 (atAddr live 24576) (fun _ y => y.handler == none && (y.readS 2).toNat == 24576) = true ∧
    meets m2 (atAddr live 4) (fun s y => (s.physical? y.ctx 4).isNone) = true := by decide +kernel

theorem witness_Rendezvous :
    meets .plain (member (onAir [r0]) fun th => th.writeF 5 1) (fun _ y => y.member && (y.readF 5).getLsbD 0) = true ∧
    meets .plain (member (onAir [r0])) (fun _ y => !(y.readF 5).getLsbD 0) = true ∧
    meets { Meta.plain with quiet := true } (member (onAir []) fun th => { th with sq := .away, sqRdv := 31, subBuf := [] }) (fun s y =>
      y.settled && y.sq == .away && y.sqRdv == 31 && s.physical? y.ctx y.sqCh == some 1 && ((s.core 1).pub.any fun b => b.serial == y.publication)) = true ∧
    meets { Meta.plain with quiet := true } (member (live.modCore 1 fun c => { c with pub := some { pub1 [] with syncAt := some 0 } })
        fun th => { th with sq := .away, sqRdv := 0, subBuf := [] }) (fun s y => y.settled && y.sq == .away && y.sqRdv == 0 &&
      s.physical? y.ctx y.sqCh == some 1 &&
      ((s.core 1).pub.any fun b => b.serial == y.publication && b.syncAt == some s.beat)) = true ∧
    (let mj := { Meta.plain with quiet := true }
     let gone (s : State) (f : Thread → Thread := id) : State := member s fun th => f { th with sq := .away, sqRdv := 3, subBuf := [] }
     let there (s : State) (y : Thread) : Option Publication := (s.physical? y.ctx y.sqCh).bind fun n => (s.core n).pub
     let v : SavedBand := ⟨0, 0, 0, [], [], [], [], [(1, pub1 [])], [], [], [], []⟩
     let saved : State := { live with bands := [{ bandOf .saved with saved := some v }] }
     meets mj (gone live) (fun s y => there s y == none && !s.savedPublication y.publication) = true ∧
     meets mj (gone (onAir [])) (fun s y => y.sqRdv == 3 && y.publication == 7 && (there s y).any fun b => b.serial == 7) = true ∧
     meets mj (gone (onAir []) fun th => { th with publication := 8 }) (fun s y => (there s y).any fun b => b.serial != y.publication) = true ∧
     meets mj (gone (onAir []) (owing 1)) (fun s y => !y.settled && (there s y).any fun b => b.serial == y.publication) = true ∧
     meets mj (gone saved) (fun s y => y.settled && there s y == none && s.savedPublication y.publication) = true ∧
     meets mj (gone saved (owing 1)) (fun s y => !y.settled && there s y == none && s.savedPublication y.publication) = true) ∧
    meets { Meta.plain with quiet := true } live (fun _ y => y.sq != .away) = true ∧
    meets .plain publisher (fun s y => y.sq == .publishing && y.mode == .run && (s.core s.cur.core).pub != none) = true ∧
    meets .plain live (fun _ y => y.sq != .publishing) = true := by decide +kernel

/-- A thread in inbound port mode with two words waiting, the tag of the second in the first. -/
def ported (t : Byte) (l : List (Nat × Word)) : State :=
  put fun th => { regs l th with portCfg := 1, inq := [⟨9, t, 0⟩, ⟨0, 9, 0⟩] }

/-- A message of one word after its header at 0x100 of the scratchpad, for core 0, whose ring holds 64 bytes, or none. -/
def posting (used : Nat) : State :=
  (((live.writeMem (scratchKey 0 0x100) 8 0x101).writeMem (scratchKey 0 0x108) 8 0x55).modCore 0 fun c =>
    { c with mboxSize := 64, mboxTail := used }).modThread r0 (regs [(2, 0), (3, pad + 0x100)])

theorem witness_SquadsPortsMailboxes :
    let mt := { Meta.scalar [2] [] with noPort := true }
    let m30 := { Meta.scalar [30] [] with noPort := true }
    let ms := { Meta.scalar [2, 3] [] with notMast := true }
    let head (y : Thread) : Bool := y.inEn && !y.member && (y.inq.head?.any fun h => h.avail == 0)
    meets { Meta.scalar [2] [] with quiet := true } (atAddr live 4) (fun s _ => (s.coreNamed? 0 4).isNone) = true ∧
    meets { Meta.scalar [2] [] with quiet := true } (atAddr live 0) (fun s _ => (s.coreNamed? 0 0).isSome) = true ∧
    meets mt run (fun _ y => !y.inEn) = true ∧
    meets mt (ported 9 [(2, 9)]) (fun _ y => head y && (y.inq.head?.any fun h => h.tag.toNat == wbits (y.readS 2) 7 0)) = true ∧
    meets mt (ported 8 [(2, 9)]) (fun _ y => head y && (y.inq.head?.any fun h => h.tag.toNat != wbits (y.readS 2) 7 0)) = true ∧
    meets m30 (ported 0 []) (fun _ y => match y.inq with | [w, h] => h.tag.toNat == wbits w.data 7 0 | _ => false) = true ∧
    meets m30 (put (fun th => { th with inq := [⟨8, 0, 0⟩, ⟨0, 9, 0⟩] }) (ported 0 [])) (fun _ y => match y.inq with | [w, h] => h.tag.toNat != wbits w.data 7 0 | _ => false) = true ∧
    meets mt (put (fun th => { th with pc := 0x007FFFFFFFFFFFFC }) (ported 9 [(2, 9)])) (fun _ y => head y && !canonical (y.pc + 4)) = true ∧
    meets m30 (put (fun th => { th with pc := 0x007FFFFFFFFFFFFC }) (ported 0 [])) (fun _ y => !canonical (y.pc + 4)) = true ∧
    meets mt (put fun th => { th with portCfg := 1 }) (fun _ y => y.inEn && !y.member && y.inq == []) = true ∧
    meets m30 (put fun th => { th with portCfg := 1, inq := [⟨8, 0, 0⟩] }) (fun _ y => y.inEn && !y.member && y.inq.length == 1) = true ∧
    meets m30 (put fun th => { th with portCfg := 1, inq := [⟨8, 0, 0⟩, ⟨9, 0, 1⟩] }) (fun s y => y.inq[1]?.any fun w => s.beat < w.avail) = true ∧
    meets ms (put (regs [(3, 0x80000000000000)]) (posting 0)) (fun s y => s.coreNamed? y.ctx 0 == some 0 &&
      (match s.sendWord s.cur y (y.readS 3) with | .error r => r == .trap .access 0x80000000000000 0 | _ => false)) = true ∧
    meets ms ((posting 0).writeMem (scratchKey 0 0x100) 8 0x40) (fun s y => s.coreNamed? y.ctx 0 == some 0 &&
      (match s.sendWord s.cur y (y.readS 3) with | .ok h => h == 0x40 | _ => false)) = true ∧
    meets ms (put (regs [(3, pad + 0xFFF8)]) ((posting 0).writeMem (scratchKey 0 0xFFF8) 8 0x101)) (fun s y =>
      (match s.sendWord s.cur y (y.readS 3) with | .ok h => h == 0x101 | _ => false) && ((s.core 0).reserve? (s.core 0).mboxHead 2).isSome &&
      (match (s.effectOut y).sendWords s.cur y (y.readS 3 + 8) 1 with | .error r => r == .trap .access (pad + 0x10000) 0 | _ => false)) = true ∧
    meets ms (posting 0) (fun s y => s.coreNamed? y.ctx 0 == some 0 && (match s.sendWord s.cur y (y.readS 3) with | .ok h => h == 0x101 | _ => false) &&
      (s.core 0).placeable 2 && (match s.sendWords s.cur y (y.readS 3) 2 with | .ok l => l == [0x101, 0x55] | _ => false) &&
      ((s.core 0).reserve? (s.core 0).mboxHead 2).isSome) = true ∧
    meets ms (posting 56) (fun s _ => ((s.core 0).reserve? (s.core 0).mboxHead 2).isNone && (s.core 0).placeable 2) = true ∧
    meets ms (put (regs [(2, 4)]) live) (fun s y => (s.coreNamed? y.ctx 4).isNone) = true ∧
    meets ms (put (regs [(2, 0), (3, pad + 4)]) live) (fun s y => (s.coreNamed? y.ctx 0).isSome && (y.readS 3).toNat % 8 != 0) = true := by
  decide +kernel

/-- Context 0 owns the array of cluster 0, whose plane 0 holds a J4 tile; s2 is an operand word of one row, s3 an address. -/
def arrayOn (s : State := live) (x : Word := 1) (y : Word := pad) : State :=
  (s.modCluster 0 fun c => { c with owner := some 0, planes := c.planes.setIfInBounds 0 { Plane.blank with tag := some (0, false) } }).modThread r0
    (regs [(2, x), (3, y)])

/-- A command of the thread, by major opcode and FN6. -/
def cmd (maj fn : Nat) (id : Nat := 0) : MxCmd :=
  newCmd { run with serial := id } ((run.thread? r0).getD Thread.blank) (mxWord 0 maj 0 0 0 fn) 1 pad 0

/-- Core 0 with a queue of commands. -/
def queued (cs : List MxCmd) (s : State := arrayOn) : State := s.modCore 0 fun c => { c with mxQueue := cs }

theorem witness_ArrayInstructions :
    let owned (s : State) (y : Thread) : Bool := (s.cluster (clusterOf s.cur.core)).owner == some y.ctx
    let free (s : State) : Bool := decide (((s.core s.cur.core).mxQueue.filter fun c => !c.begun).length < 16)
    let plane (s : State) : Plane := ((s.cluster 0).planes[0]?).getD Plane.blank
    let m := Meta.mx [2]
    let m2 := Meta.mx [2, 3]
    meets m (arrayOn live 0) (fun s y => mxValid (y.readS 2) && free s) = true ∧
    meets m (queued (List.replicate 16 (cmd 0x74 0)) (arrayOn live 0)) (fun s y => mxValid (y.readS 2) && !free s) = true ∧
    meets m (arrayOn live 3) (fun _ y => !mxValid (y.readS 2)) = true ∧
    meets (.mx [3]) (arrayOn live 0 0x10000) (fun s y => owned s y && (y.readS 3).toNat % 8 == 0 && (s.rangeBad s.cur y (y.readS 3) (mxImageBytes 0)).isNone) = true ∧
    meets (.mx []) run (fun s y => !owned s y) = true ∧ meets (.mx []) arrayOn owned = true ∧
    meets m2 arrayOn (fun s y => owned s y && !mmaBad (y.readS 2) 0 && (plane s).tag == some (mxB 0, mxTside 0) && (s.mmaOffends s.cur y (y.readS 2) 0 (y.readS 3)).isNone) = true ∧
    meets m2 (arrayOn live 0) (fun _ y => mmaBad (y.readS 2) 0) = true ∧ meets m2 (arrayOn live 33) (fun _ y => mmaBad (y.readS 2) 0) = true ∧
    meets m2 ((arrayOn live).modCluster 0 fun c => { c with planes := c.planes.setIfInBounds 0 Plane.blank }) (fun s y =>
      owned s y && !mmaBad (y.readS 2) 0 && (plane s).tag == none) = true ∧
    meets (.mx [3]) (arrayOn live 0 0x10004) (fun s y => owned s y && (y.readS 3).toNat % 8 != 0) = true ∧
    meets (.mx [3]) (arrayOn live 0 0x80000000000000) (fun s y => owned s y && (s.rangeBad s.cur y (y.readS 3) (mxImageBytes 0)).isSome) = true ∧
    meets m2 (arrayOn live 1 (pad + 4)) (fun s y => owned s y && !mmaBad (y.readS 2) 0 && (y.readS 3).toNat % 8 != 0) = true ∧
    meets m2 (arrayOn live 1 0x80000000000000) (fun s y => owned s y && !mmaBad (y.readS 2) 0 && (plane s).tag == some (mxB 0, mxTside 0) &&
      (s.mmaOffends s.cur y (y.readS 2) 0 (y.readS 3)).isSome) = true ∧
    meets { Meta.mx [] with vs := [31], window := true } arrayOn (fun s _ => free s) = true ∧
    meets { Meta.scalar [] [2] with notMast := true, window := true } arrayOn (fun _ _ => true) = true ∧
    meets m arrayOn (fun s _ => (s.cmdsOf s.cur).isEmpty) = true ∧
    meets m (put (fun th => { th with mxBatch := 1 }) (queued [{ cmd 0x74 0 with batch := some 1 }])) (fun s y =>
      (s.cmdsOf s.cur).any fun c => c.batch == some (min (y.readS 2).toNat y.mxBatch)) = true := by decide +kernel

/-- The drain forms: a reservation and an aligned, reachable done word; a handler with its row, the last or not. -/
def draining (h : Nat) (placed : Nat) : Drain :=
  { newDrain (cmd 0x75 0) { Tile.blank with h := h } with next := h, dispatched := placed + 1, placed := placed, done := pad }
def handling (h placed : Nat) : State :=
  put (fun th => regs [(6, pad + 0x400), (7, 1024)] { th with handler := some ⟨true, 0⟩ })
    (live.modCore 0 fun c => { c with reservation := some 0, drain := some (draining h placed) })

theorem witness_DrainForms :
    let m2 := Meta.mx [2, 3]
    let mr := { Meta.mx [6, 7] with vs := [0, 1, 2, 3, 4, 5, 6, 7] }
    let placed (s : State) (y : Thread) : Bool := y.handler == some ⟨true, 0⟩ && (s.rangeBad s.cur y (y.readS 6) 1024).isNone && y.settled
    meets m2 ((arrayOn live pad 0x400).modCore 0 fun c => { c with reservation := some 1 }) (fun s y =>
      (s.core s.cur.core).reservation != none && (y.readS 3).toNat % 4 == 0 && canonical (y.readS 3) &&
      (match s.resolve s.cur y (y.readS 2) (accEngineFe true) (.thread s.cur) with | .ok .. => true | _ => false)) = true ∧
    (let res (a b : Word) : State := (arrayOn live a b).modCore 0 fun c => { c with reservation := some 1 }
     let at_ (s : State) (y : Thread) := s.resolve s.cur y (y.readS 2) (accEngineFe true) (.thread s.cur)
     meets m2 (res pad 0x402) (fun _ y => (y.readS 3).toNat % 4 != 0) = true ∧
     meets m2 (res (pad + 4) 0x400) (fun _ y => (y.readS 2).toNat % 8 != 0 && (y.readS 3).toNat % 4 == 0) = true ∧
     meets m2 (res pad 0x80000000000000) (fun _ y => !canonical (y.readS 3)) = true ∧
     meets m2 (res 0x80000000000000 0x400) (fun s y => match at_ s y with | .fault .. => true | _ => false) = true ∧
     meets m2 (res 0x20000 0x400) (fun s y => at_ s y == .miss) = true ∧
     meets m2 (queued (List.replicate 16 (cmd 0x74 0)) (res pad 0x400)) (fun s y => (match at_ s y with | .ok .. => true | _ => false) &&
       (s.core 0).reservation == some 1) = true) ∧
    (let rows (a b : Word) : State := put (regs [(6, a), (7, b)]) (handling 2 0)
     meets mr (rows (pad + 4) 1024) (fun _ y => (y.readS 6).toNat % 8 != 0) = true ∧
     meets mr (rows pad 4) (fun _ y => (y.readS 7).toNat % 8 != 0) = true ∧
     meets mr (rows 0x80000000000000 1024) (fun s y => (s.rangeBad s.cur y (y.readS 6) 1024).isSome) = true ∧
     meets mr (put (owing 1) (handling 2 0)) (fun s y => (s.rangeBad s.cur y (y.readS 6) 1024).isNone && !y.settled) = true) ∧
    meets m2 arrayOn (fun s _ => (s.core s.cur.core).reservation == none) = true ∧
    meets mr (handling 2 0) placed = true ∧ meets mr (handling 1 0) placed = true ∧ meets mr arrayOn (fun _ y => y.handler == none) = true ∧
    (let s := live.modSlot ⟨0, 7⟩ fun x => { x with grant := some band0 }
     s.handlerSlot? 0 ((s.thread? r0).getD Thread.blank) = some 7) := by decide +kernel

/-- A granted command of core 0: a finished MX.SETB, or an MX.MMA. -/
def granted (maj : Nat) (valid : Bool := true) : Stepping := ⟨0, cmd maj 0, 0, 1, valid, none, []⟩

theorem witness_ArrayEvents :
    (∀ maj ∈ [0x70, 0x74, 0x71], (queued [cmd maj 0]).mayBegin 0 (cmd maj 0) = true ∧
      ((queued [cmd maj 0]).core 0).nextCmd? = some (cmd maj 0) ∧ (cmd maj 0).maj = maj) ∧
    (let s := (queued [cmd 0x77 1]).modThread r0 fun th => { th with outs := [⟨0, .v, 31, 0, 0, 0, 0, .pending⟩] }
     s.mayBegin 0 (cmd 0x77 1) = true ∧ (cmd 0x77 1).maj = 0x77 ∧ s.flight? 0 = none ∧ (s.thread? r0).any (fun th => th.trapPend == none) = true) ∧
    (let c := { cmd 0x71 31 with begun := true }
     (((queued [c]).core 0).mxQueue.find? fun x => x.maj == 0x71 && x.begun) = some c ∧
     (match (queued [c]).engineResolve r0 (engineThread 0 false) pad accEngineRead false 0 with
       | .ok key _ => !(queued [c]).held key && !(queued [c]).grantSaved 0 key | _ => false) = true) ∧
    ((queued [cmd 0x72 0]).arrayFree 0 = true ∧ (queued [cmd 0x72 0]).arbitrate 0 = some (0, cmd 0x72 0, 0) ∧
      ((queued [cmd 0x72 0]).cluster 0).holdFor = none ∧ (queued [cmd 0x72 0]).readyArray? (0 * 64 + 0) = some (cmd 0x72 0)) ∧
    (let s := { arrayOn.modCluster 0 (fun c => { c with hold := some 7 }) with beat := 0 }
     (s.cluster 0).hold = some 7 ∧ 7 ≤ 8 * s.beat + 7) ∧
    (∀ v ∈ [true, false], let s := { arrayOn.modCluster 0 (fun c => { c with stepping := some (granted 0x72 v) }) with beat := 0 }
     (s.cluster 0).stepping = some (granted 0x72 v) ∧ (granted 0x72 v).cmd.maj = 0x72 ∧ (granted 0x72 v).valid = v ∧
       (granted 0x72 v).grant + (granted 0x72 v).d ≤ 8 * s.beat + 8) ∧
    (let s := { arrayOn.modCluster 0 (fun c => { c with finishing := [granted 0x73] }) with beat := 5 }
     (s.cluster 0).oldest? = some (granted 0x73) ∧ (granted 0x73).cmd.maj = 0x73 ∧ (granted 0x73).grant + (granted 0x73).d + 39 ≤ 8 * s.beat + 7) := by
  decide +kernel

/-- Core 0 drains, with its handler in slot 1. -/
def drained (d : Drain) (buf : List (Nat × List (BitVec 36))) (h : Option Thread) : State :=
  (live.modSlot ⟨0, 1⟩ fun x => { x with thread := h }).modCore 0 fun c => { c with reservation := some 1, drain := some d, drainBuf := buf }

theorem witness_DrainEvents :
    (let d := { draining 8 0 with next := 7 }
     ((drained d [] none).core 0).drain = some d ∧ d.next < d.h ∧ d.failed = none) ∧
    (let s := queued [cmd 0x75 0]
     (s.core 0).drain = none ∧ (s.core 0).nextCmd? = some (cmd 0x75 0) ∧ (cmd 0x75 0).isDrain = true ∧ s.mayBegin 0 (cmd 0x75 0) = true) ∧
    (let th := newHandler live 0 (draining 8 0)
     let s := drained (draining 8 0) [(1, [])] (some th)
     s.thread? ⟨0, 1⟩ = some th ∧ (draining 8 0).slot.or (s.core 0).reservation = some 1 ∧ th.handler = some ⟨false, 0⟩ ∧ th.halted = false ∧ th.stopped = false ∧ th.busy = 0 ∧ s.stopping th = false ∧
       s.drainSaved (draining 8 0) = false ∧ (draining 8 0).dispatched = 1) ∧
    (let d := { draining 8 0 with dispatched := 0, next := 1 }
     let s := drained d [(0, [])] none
     (s.core 0).drain = some d ∧ d.failed = none ∧ s.drainSaved d = false ∧ s.thread? ⟨0, 1⟩ = none ∧ s.savingBand (newHandler s 0 d) = false) ∧
    (let d := { draining 1 1 with writes := [(pad, 5)] }
     let s := { drained d [] none with beat := 1 }
     d.placedAt < s.beat ∧ (match s.engineResolve r0 d.thread pad accEngineWrite false d.cmd with | .ok k e => !s.held k && !s.grantSaved 0 k && isClear s (s.cipherFor d.thread e) k 8 | _ => false) = true) ∧
    (let d := draining 1 1
     let s := drained d [] none
     d.writes = [] ∧ d.h ≤ d.placed ∧ s.flights = [] ∧ s.queues = [] ∧
     (match s.engineResolve r0 d.thread d.done (accEngineFe true) false d.cmd with | .ok k e => !s.held k && !s.grantSaved 0 k && isClear s (s.cipherFor d.thread e) k 8 | _ => false) = true) ∧
    (let d := { draining 1 0 with failed := some 3 }
     let s := drained d [] none
     d.writes = [] ∧ s.thread? ((s.core 0).handlerRef 0) = none ∧
     (match s.engineResolve r0 d.thread d.done (accEngineFe true) false d.cmd with
       | .ok k e => !s.held k && !s.grantSaved 0 k && isClear s (s.cipherFor d.thread e) k 8 | _ => false) = true) ∧
    (let d := draining 1 0
     (drained d [] none).handlerGone (((drained d [] none).core 0).handlerRef 0) d = true ∧ d.placed < d.h ∧ d.placed < d.dispatched) ∧
    (draining 255 255).placed < 256 := by decide +kernel

/-! ## Witnesses: launches, bands and migration -/

/-- A launch record at 0x10000: one band of one thread, entry 0x400; w0 its first word. -/
def recorded (w0 : Nat) (full : Bool := false) (s : State := live) : State :=
  ((s.writeMem 0x10000 8 w0).writeMem 0x10008 8 0x400).setFull 0x10000 full

theorem witness_LaunchPosts :
    let m := Meta.scalar [2] [3]
    let ready (s : State) (y : Thread) : Bool := y.readS 2 == 0x10000 &&
      s.divMiss? s.cur y ((s.recordWords .plain 0x10000).getD 5 0) == none && s.resolve s.cur y 0x10000 (accEngineFe true) (.thread s.cur) == .ok 0x10000 (some page0) &&
      isClear s (s.cipherFor y (some page0)) 0x10000 64 && s.allPerformed s.cur s.serial true && !s.held 0x10000 && !s.held 0x10038 && !s.eccAt 0x10000 &&
      s.flights == [] && s.queues == []
    let reason (s : State) : Nat := recReason 7 (setBits ((s.recordWords .plain 0x10000).getD 0 0) 27 16 0 :: (s.recordWords .plain 0x10000).tail) true
    (let at_ (s : State) (y : Thread) := s.resolve s.cur y (y.readS 2) (accEngineFe true) (.thread s.cur)
     meets m (atAddr run 0x80000000000000) (fun s y => match at_ s y with | .fault .. => true | _ => false) = true ∧
     meets m (atAddr live 0x20000) (fun s y => at_ s y == .miss) = true ∧
     meets m (atAddr live pad) (fun s y => (match at_ s y with | .ok .. => true | _ => false) && windowOf (y.readS 2) != .global) = true ∧
     meets m (atAddr (flying (req .stS) (recorded 1)) 0x10000) (fun s y => at_ s y == .ok 0x10000 (some page0) && !s.allPerformed s.cur s.serial true) = true ∧
     meets m (atAddr { recorded 1 with eccBad := [0x10000] } 0x10000) (fun s y => at_ s y == .ok 0x10000 (some page0) &&
       s.allPerformed s.cur s.serial true && s.eccAt 0x10000) = true ∧
     meets m (atAddr ((recorded 1).writeMem 0x10028 8 0x20000) 0x10000) (fun s y =>
       s.divMiss? s.cur y ((s.recordWords .plain 0x10000).getD 5 0) == some 0x20000 && !s.full 0x10000) = true ∧
     -- a word of the record, or of the tensor descriptor it names, held by an atomic; an error in its last word
     meets m (atAddr { recorded 1 with holds := [⟨0x10038, 9, []⟩] } 0x10000) (fun s y => at_ s y == .ok 0x10000 (some page0) &&
       s.allPerformed s.cur s.serial true && s.held 0x10038) = true ∧
     meets m (atAddr { (recorded 1).writeMem 0x10028 8 0x10400 with holds := [⟨0x10400, 9, []⟩] } 0x10000) (fun s y => ready s y &&
       !s.full 0x10000 && (s.divKeys s.cur y ((s.recordWords .plain 0x10000).getD 5 0)).any s.held) = true ∧
     meets m (atAddr { recorded 1 with eccBad := [0x10030] } 0x10000) (fun s y => at_ s y == .ok 0x10000 (some page0) &&
       s.allPerformed s.cur s.serial true && (List.range 6).all (fun i => !s.eccAt (0x10000 + 8 * i)) && s.eccAt 0x10030) = true) ∧
    meets m (atAddr run 8) (fun _ y => (y.readS 2).toNat % 64 != 0) = true ∧
    meets m (atAddr (recorded 1 true) 0x10000) (fun s y => ready s y && s.full 0x10000) = true ∧
    meets m (atAddr (recorded 2) 0x10000) (fun s y => ready s y && !s.full 0x10000 && reason s != 0) = true ∧
    meets m (atAddr (recorded 1) 0x10000) (fun s y => ready s y && !s.full 0x10000 && reason s == 0) = true := by decide +kernel

/-- The launch of that record, which may hold idempotent regions. -/
def launch0 (ended next : Nat) : Launch :=
  ⟨0, 0, { LaunchRec.parse [1 + 2 ^ 11, 0x400] 0x10038 [] with idem := true }, next, ended, none, false, false, []⟩
def launched (l : Launch) (s : State := live) : State := { s with launches := [l] }

theorem witness_DrainEvents_tile :
    let s : State := { launched (launch0 0 1) with bands := [bandOf .running] }
    s.band? (draining 8 0).band = some (bandOf .running) ∧ s.launch? 0 0 = some (launch0 0 1) ∧ (bandOf .running).cores.contains 0 = true := by
  decide +kernel

/-- The thread with the address of a descriptor at 0x100 of the scratchpad. -/
def window (base size : Nat) (s : State := live) : State :=
  atAddr ((s.writeMem (scratchKey 0 0x100) 8 base).writeMem (scratchKey 0 0x108) 8 size) (pad + 0x100)

theorem witness_GoAndRegions :
    let mg := { Meta.scalar [2] [] with notMast := true, leaveOff := true }
    let m := Meta.scalar (2 :: range 1 15) []
    let go (s : State) (y : Thread) (b : Bool) : Bool := y.handler == none && windowOf (y.readS 2) != .fabric &&
      (match s.resolve s.cur y (y.readS 2) accGo (.thread s.cur) with | .ok k _ => (s.arrival? s.cur y (y.readS 2) k).isSome == b | _ => false)
    let desc (s : State) (y : Thread) (a b : Word) : Bool := match s.sendWords s.cur y (y.readS 2) 2 with | .ok l => l == [a, b] | _ => false
    meets mg (atAddr (live.modCore 1 fun c => { c with grants := [{ grant0 with base := 0 }] }) 0xFFFE000000040000) (fun s y => go s y true) = true ∧
    meets mg (atAddr live pad) (fun s y => go s y false) = true ∧
    meets mg (atAddr wired 0xFF80000000000000) (fun s y => y.handler == none && (s.fabWindow? y.ctx (y.readS 2) 0).isSome) = true ∧
    meets mg (atAddr live 0xFF80000000000000) (fun s y => y.handler == none && (s.fabWindow? y.ctx (y.readS 2) 0).isNone) = true ∧
    meets mg (put (fun th => { th with handler := some ⟨true, 0⟩ }) live) (fun _ y => y.handler != none) = true ∧
    meets mg (atAddr live 0x80000000000000) (fun s y => match s.resolve s.cur y (y.readS 2) accGo (.thread s.cur) with | .fault .. => true | _ => false) = true ∧
    meets mg (atAddr live 0x20000) (fun s y => s.resolve s.cur y (y.readS 2) accGo (.thread s.cur) == .miss) = true ∧
    meets m (atAddr live 0x20000) (fun s y => match s.sendWords s.cur y (y.readS 2) 2 with | .error r => r == .miss 0x20000 0 | _ => false) = true ∧
    meets m (window 1 (2 ^ 55)) (fun s y => desc s y 1 (2 ^ 55)) = true ∧
    meets m (atAddr run 4) (fun _ y => (y.readS 2).toNat % 8 != 0) = true ∧
    (windowBad 0x10000 0x100 = false ∧ windowBad 0 (2 ^ 55) = false ∧ windowBad 1 (2 ^ 55) = true) ∧
    meets m (window 0x10000 0x100 (launched (launch0 0 1))) (fun s y => desc s y 0x10000 0x100 && s.idemLaunch y) = true ∧
    meets m (window 0x10000 0x100) (fun s y => desc s y 0x10000 0x100 && !s.idemLaunch y) = true ∧
    meets .plain run (fun _ _ => true) = true := by decide +kernel

/-- The thread departs for core 1; its packet; a core 1 with packets. -/
def leaving : State := put (fun th => { th with wait := some ⟨.depart 1 0x404 0, 0, 0⟩ }) live
def packet0 : Packet := { packetFrom run r0 ((run.thread? r0).getD Thread.blank) 1 0x404 0 with id := 0 }
def bound (queue ring : List Packet) : State :=
  { (live.modCore 1 fun c => { c with arrivals := queue }).modDie 0 fun d => { d with ring := ring, ringN := 16, ringPages := [0] } with packets := [packet0] }

theorem witness_Migration :
    (let s := { leaving with bands := [bandOf .saving] }
     ∃ th, s.thread? r0 = some th ∧ th.wait = some ⟨.depart 1 0x404 0, 0, 0⟩ ∧ s.undelivered r0 = false ∧ s.savingBand th = true) ∧
    (∃ th, leaving.thread? r0 = some th ∧ leaving.undelivered r0 = false ∧ leaving.savingBand th = false ∧ leaving.departReady r0 th = true ∧
      leaving.queueRoom 1 = true) ∧
    (((bound [] []).core 1).arrivals.length < 16 ∧ (bound [] []).ringFor 1 = [] ∧ ((bound [] []).packets.find? fun x => x.id == 0) = some packet0) ∧
    (((bound (List.replicate 16 packet0) []).core 1).arrivals.length = 16 ∧ ((bound [] [packet0]).die 0).nextEntry? = some 1 ∧
      ((bound [] []).die 0).entryMapped 1 = true ∧
      (((bound [] []).modDie 0 fun d => { d with ringPages := [] }).die 0).entryMapped 1 = false) ∧
    (((bound [] [packet0]).die 0).ring.find? fun x => decide (((bound [] [packet0]).core x.dest).arrivals.length < 16)) = some packet0 ∧
    (((bound [packet0] []).core 1).arrivals = [packet0] ∧ ((bound [packet0] []).core 1).installAt ≠ some 0 ∧
      (bound [packet0] []).arrivalSlot 1 0 0 = true) := by
    refine ⟨⟨(({ leaving with bands := [bandOf .saving] } : State).thread? r0).getD Thread.blank, ?_⟩,
      ⟨(leaving.thread? r0).getD Thread.blank, ?_⟩, ?_⟩ <;> and_intros <;> decide +kernel

/-- A package that has come up, with a record that the host posts. -/
def upState (s : State) : State := { s with bootStage := 4 }

theorem witness_LaunchEvents :
    (live.postCheck 0 0x10000 = .bad 1 ∧ (upState (recorded 1 true)).postCheck 0 0x10000 = .bad 3 ∧ live.powered = true) ∧
    ((match (upState (recorded 1)).postCheck 0 0x10000 with | .ok k _ => k == 0x10000 | _ => false) = true ∧ (0x10000 : Nat) % 64 = 0) ∧
    (upState (recorded 2)).postCheck 0 0x10000 = .refused 0x10000 1 ∧ (upState live).postCheck 0 0x20000 = .wait ∧
    (let x : Posted := ⟨0, (launch0 0 0).rec_, some r0⟩
     let s := { put (fun th => { th with wait := some ⟨.launch 0x10000 5, 0, 0⟩ }) live with posted := [x] }
     s.posted.find? (fun p => !s.atCapacity p.ctx) = some x ∧ ((s.thread? r0).bind Thread.wait) = some ⟨.launch 0x10000 5, 0, 0⟩) ∧
    (let s := (launched (launch0 0 0) (live.dropThread r0)).modDie 0 fun d => { d with released := true }
     (match s.nextMove with | some (.place ..) => true | _ => false) = true) ∧
    (let s := { launched (launch0 0 1) with bands := [bandOf .placed] }
     s.band? band0 = some (bandOf .placed) ∧ s.launch? 0 0 = some (launch0 0 1) ∧ (bandOf .placed).slots.Nodup ∧ ∀ r ∈ (bandOf .placed).slots, r.slot < 8) ∧
    (let s := { launched (launch0 0 1) (put (fun th => { th with halted := true }) live) with bands := [bandOf .running] }
     s.band? band0 = some (bandOf .running) ∧ s.bandDone (bandOf .running) = true) ∧
    (let s := launched (launch0 1 1)
     s.launch? 0 0 = some (launch0 1 1) ∧ (launch0 1 1).code? = some 1 ∧ s.bandsOf ⟨0, 0⟩ = [] ∧ s.held (launch0 1 1).rec_.status = false) := by
  decide +kernel

/-- A TLBW of s2 and s3 by the thread in control mode; a pinned page; a miss that waits. -/
def tlbw (a b : Word) (s : State := live ctl) : State := s.modThread r0 (regs [(2, a), (3, b)])
def pinned : State := { live ctl with flights := [{ req .ldW with stage := .queued none }] }

theorem witness_TranslationWrites :
    let m := { Meta.scalar [2, 3] [] with priv := true }
    let ok (s : State) (y : Thread) : Bool := !tlbInvalid (roleOf s.cur.core) (y.readS 2) (y.readS 3)
    let g (y : Thread) := tlbTarget (y.readS 2)
    let moves (s : State) (y : Thread) := s.movesPinned (unitOf s.cur.core) (g y) (tlbEntry (g y) (y.readS 3))
    meets m (tlbw 0x0100000000000000 0) (fun s y => !ok s y) = true ∧
    meets m (tlbw 0x10000 0x0200003 pinned) (fun s y => ok s y && moves s y) = true ∧
    meets m (tlbw 0x10000 0x0200003) (fun s y => ok s y && !moves s y && wbits (y.readS 2) 1 0 == 0) = true ∧
    meets m (tlbw 0x10002 3) (fun s y => ok s y && wbits (y.readS 2) 1 0 == 2) = true ∧
    meets m (tlbw 0x10001 0) (fun s y => ok s y && !s.pinnedIn (g y) && !s.usesRange [unitOf s.cur.core] (g y)) = true ∧
    meets m (tlbw 0x10001 0 { live ctl with flights := [req (.load 8 false)] }) (fun s y =>
      ok s y && !s.pinnedIn (g y) && s.usesRange (tlbUnits s.cur.core 1) (g y)) = true ∧
    meets m (tlbw 0x3 0 pinned) (fun s y => ok s y && s.pinnedIn (g y) && y.wait == none) = true := by decide +kernel

theorem witness_RegistersAndPorts :
    (run.thread? r0).any (fun th => !th.inEn && !th.outEn && { th with portCfg := 3 }.inEn && { th with portCfg := 3 }.outEn) = true ∧
    (let m := Meta.scalar [2] []
     let q : List PortWord := [⟨0, 0, 0⟩]
     meets m (atAddr live 0x100000003) (fun s y => (s.coreNamed? y.ctx 0).isSome && (s.coreNamed? y.ctx 1).isSome && y.outq == []) = true ∧
     meets m (atAddr live 0x100000002 fun th => { th with outq := q }) (fun s y => (s.coreNamed? y.ctx 1).isSome && y.outq == q && wbits y.portCfg 49 32 == 0) = true ∧
     meets m (atAddr live 0x401) (fun s y => (s.coreNamed? y.ctx 4).isNone && wbits (y.readS 2) 22 8 == 4) = true ∧
     meets m (atAddr live 0x400000002) (fun s y => (s.coreNamed? y.ctx 4).isNone && wbits (y.readS 2) 46 32 == 4) = true) := by decide +kernel

/-- The word of MTS (0x21) or MFS (0x20) of register n with s2, about to be issued by a thread in a mode. -/
def sreg (maj n : Nat) (mode : Mode) : State :=
  let w := 15 * 2 ^ 27 + maj * 2 ^ 20 + 2 * 2 ^ 15 + n
  { live (State.reset.withFetchWord 32 w) with ir := BitVec.ofNat 32 w }.modThread r0 fun th => { th with mode := mode }
def writing (n : Nat) (mode : Mode) (s : State := sreg 0x21 n mode) : Bool :=
  s.fetchFor r0 == .word s.ir && s.atSreg r0 0x21 n == some 2 && meets (mtsMeta 2 (BitVec.ofNat 15 n)) s fun _ y => y.readS 2 == 0

theorem witness_RegisterEvents :
    writing 0x028 .run = true ∧ writing 0x024 .run = true ∧ writing 0x4001 .control = true ∧ writing 0x4003 .control = true ∧
    writing 0x062 .run ((sreg 0x21 0x062 .run).modCore 0 fun c => { c with mboxSize := 64 }) = true ∧
    (let s := sreg 0x20 0x4051 .control
     s.atSreg r0 0x20 0x4051 = some 2 ∧ meets { Meta.scalar [] [2] with priv := true } s (fun _ _ => true) = true) ∧
    (let c := (live.modCore 0 fun c => { c with mboxPend := [(true, 64)] }).core 0
     c.mboxPend = [(true, 64)] ∧ c.deliveries = []) := by decide +kernel

theorem witness_ImageRestores :
    (run.thread? r0).any (fun th => th.rng != 0 && decide (th.heldTakes.length ≤ 4) && decide (th.inq.length ≤ 8) && th.region == none &&
      scopeOk th.scopeD && decide (th.outs.length ≤ 4) && decide (th.outq.length ≤ 8) && !th.privileged && th.mode != .control) = true ∧
    (ctl.thread? r0).any (fun th => th.privileged && th.mode == .control) = true ∧
    ((put fun th => { th with outs := [⟨1, .f, 31, 15, 0, 0, 0, .pending⟩], heldTakes := [pad] }).thread? r0).any (fun th =>
      th.outs.all (fun o => decide (o.reg < 32) && decide (o.left < 16)) && th.heldTakes.all fun a => a.toNat % 8 == 0) = true ∧
    ∃ q : Region, q.s.length = 15 ∧ q.f.length = 12 := by
  refine ⟨?_, ?_, ?_, ⟨0, List.replicate 15 0, List.replicate 12 0, 0, 0⟩, ?_⟩ <;> decide +kernel

/-- One die, of one core in the table of context 0, on which a band of priority 0 runs while a band of all eight slots at
priority 1 is pending. -/
def crowded : State :=
  { (live.modDie 0 fun d => { d with released := true }) with
    contexts := [{ ctx0 with coreTab := [(0, 0)] }], bands := [bandOf .running]
    launches := [launch0 0 1, ⟨0, 1, LaunchRec.parse [1 + 2 ^ 8 + 7 * 2 ^ 40, 0x400] 0x20038 [], 0, 0, none, false, false, []⟩] }

/-- What a saved band of that core holds, its record at 0x100000 with or without its versions. -/
def savedBand : SavedBand := ⟨0x100000, 0x40000, 0, [(0, r0, Thread.blank)], [], [], [], [], [], [], [], []⟩
def kept (ok : Bool) : State :=
  let x := { bandOf .saved with saved := some savedBand }
  let s := { (crowded.dropThread r0).modCore 0 fun c => { c with grants := [{ grant0 with saved := true }] } with bands := [x], launches := [launch0 0 1] }
  if ok then (s.writeWord 0x100000 bandVersion).writeWord (0x100000 + (planOf x 0 (s.savedSections x savedBand)).b4) imageVersion else s

theorem witness_BandsSave :
    (State.boundary { crowded with cycle := 1 } = false ∧ crowded.boundary = true ∧ crowded.nextMove = none ∧ (crowded.bands.any fun b => b.state == .saving) = false ∧
      [7, 6, 5, 4, 3, 2, 1, 0].findSome? crowded.victimAt = some (bandOf .running) ∧
      crowded.closedSet (bandOf .running) = [bandOf .running] ∧
      crowded.canTake (bandOf .running) = true ∧ crowded.discards (bandOf .running) = false ∧
      priorities.findSome? (fun p => (crowded.victimAt p).filter crowded.canTake) = some (bandOf .running) ∧
      (let s := { crowded with contexts := [{ ctx0 with saveSz := 0, coreTab := [(0, 0)] }] }
       priorities.findSome? (fun p => (s.victimAt p).filter s.canTake) = none ∧ priorities.findSome? s.victimAt = some (bandOf .running))) ∧
    (let s := { crowded with bands := [bandOf .saving] }
     s.band? band0 = some (bandOf .saving) ∧ s.groupOf (bandOf .saving) = [bandOf .saving] ∧ s.bandRests (bandOf .saving) = true ∧
     s.launch? 0 0 = some (launch0 0 1) ∧ s.discarding (bandOf .saving) = false ∧ s.flights = [] ∧
     (freePart? { ctx0 with saveSz := 0 } [] (planOf (bandOf .saving) 0 (s.sections (bandOf .saving))).bytes).isSome = false ∧
     (freePart? ctx0 (s.savedParts ctx0) (planOf (bandOf .saving) 0 (s.sections (bandOf .saving))).bytes).isSome = true) ∧
    (let x := { bandOf .saving with discard := true }
     let s := put (fun th => { th with region := some ⟨0, List.replicate 15 0, List.replicate 12 0, 0, 0⟩ }) { crowded with bands := [x] }
     s.band? band0 = some x ∧ s.discarding x = true ∧ s.bandRests x = true) ∧
    (let x := { bandOf .saved with saved := some savedBand }
     (kept false).nextMove = some (.resume band0) ∧ (kept false).band? band0 = some x ∧ (kept false).groupOf x = [x] ∧
     (kept false).versionsOk x savedBand (planOf x 0 ((kept false).savedSections x savedBand)) = false ∧
     (kept true).nextMove = some (.resume band0) ∧
     (kept true).versionsOk x savedBand (planOf x 0 ((kept true).savedSections x savedBand)) = true ∧ (kept true).recordSpoilt savedBand = false ∧
     State.recordSpoilt { kept true with eccBad := [0x100000] } savedBand = true ∧
     (kept true).parkedIn ((kept true).savedSections x savedBand) = [] ∧
     (savedBand.threads.map fun q => q.2.1).Nodup ∧ ∀ q ∈ savedBand.threads, q.2.1.slot < 8) ∧
    (let x := { bandOf .saved with saved := some savedBand }
     let s := { kept true with feReports := [1] }
     s.feReports = [1] ∧ s.bandPrio x.ref = 0 ∧ s.resumable x = true ∧ s.wanted (s.bandPrio x.ref) savedBand = false) := by
  and_intros <;> decide +kernel

theorem witness_RotationTurns :
    State.powered { run with powered := false } = false ∧ State.reset.beatRuns = false ∧ run.overdue = true ∧
    (let s := put fun th => { th with issued := true }
     s.powered = true ∧ s.beatRuns = true ∧ s.overdue = false) ∧
    (run.thread? r0).any (fun th => th.bornAt != some run.beat && th.live && !th.issued) = true ∧
    ((put fun th => { th with halted := true }).thread? r0).any (fun th => !th.live) = true ∧
    ((member live).thread? r0).any (fun th => th.member && th.subBuf.any fun e => decide (e.rot + th.sqDepth ≤ 2)) = true ∧
    (run.slot ⟨0, 1⟩).thread = none := by decide +kernel

/-- The thread waits in its slot for something of its channel. -/
def waitFor (k : WaitKind) (s : State := live) : State := s.modThread r0 fun th => { th with wait := some ⟨k, 0, 0⟩ }
/-- A thread of core 1 subscribes to core 0's channel, which is free. -/
def subscriber : State := (waitFor (.pub 2)).setThread ⟨1, 0⟩ { Thread.blank with wait := some ⟨.sub 0, 0, 0⟩ }

theorem witness_ChannelEvents :
    ((member live).thread? r0).any (fun th => th.subBuf[th.subDue]? == some ⟨0, 0x40, 0, false⟩ && th.member && decide (0 + th.sqDepth ≤ 2)) = true ∧
    ((waitFor (.pub 2)).core 0).pub = none ∧ exhausted 0 0 0 = false ∧ exhausted 0 (BitVec.allOnes 64) 9 = false ∧
    (∃ x, subscriber.thread? ⟨1, 0⟩ = some x ∧ x.wait = some ⟨.sub 0, 0, 0⟩ ∧ subscriber.physical? x.ctx 0 = some 0 ∧
      roleOf 1 = .compute ∧ distance 0 1 ≤ 2) ∧
    (∀ k ∈ [WaitKind.rdv 3, .chSync], exhausted 0 2 2 = false ∧ ∃ p, ((waitFor k publisher).core 0).pub = some p ∧ 0 + p.depth ≤ 2 ∧
      State.syncMet { waitFor k publisher with beat := 2 } p 0 = true ∧ (((waitFor k publisher).core 0).away[3]?).getD 0 = 0) ∧
    (∀ k ∈ [WaitKind.chSync, .pub 2, .sub 1, .rdv 3, .join 0, .join 31],
      ((waitFor k).thread? r0).any (fun th => th.wait == some ⟨k, 0, 0⟩) = true ∧ (0 : Word) ≠ BitVec.allOnes 64 ∧ 0 + (0 : Word).toNat < 1) ∧
    (let goes (s : State) : Bool := (s.thread? r0).any fun x => x.endAt == some 0x800 && x.member && x.subBuf == [] && x.busy == 0 && x.wait == none &&
       x.killAt == none && !x.halted && s.physical? x.ctx x.sqCh == some 1
     goes (member live fun th => { th with subBuf := [], endAt := some 0x800 }) = true ∧
     goes (member live fun th => { th with subBuf := [], endAt := some 0x800, wait := some ⟨.work .drain, 0, 0⟩ }) = false) := by
  refine ⟨by decide +kernel, by decide +kernel, by decide +kernel, by decide +kernel,
    ⟨{ Thread.blank with wait := some ⟨.sub 0, 0, 0⟩ }, by decide +kernel⟩, ?_, by decide +kernel, by decide +kernel⟩
  intro k hk
  simp only [List.mem_cons, List.not_mem_nil, or_false] at hk
  rcases hk with rfl | rfl <;> exact ⟨by decide +kernel, { pub1 [] with serial := 3 }, by decide +kernel⟩

theorem witness_MessageEvents :
    (let s := { (put fun th => { th with killAt := some 2 }) with beat := 2 }
     (s.thread? r0).any (fun th => th.killAt == some 2 && !th.halted && th.busy == 0 && th.wait == none && !th.member) = true ∧
     (let u := s.setThread ⟨1, 0⟩ { Thread.blank with wait := some ⟨.sqkill 0 1 (some [r0]), 0, 0⟩ }
      ((u.thread? ⟨1, 0⟩).bind Thread.wait) = some ⟨.sqkill 0 1 (some [r0]), 0, 0⟩)) ∧
    (let s := (put (fun th => { th with portCfg := 0x100000002, outq := [⟨7, 1, 0⟩] }) live).setThread ⟨1, 0⟩ { Thread.blank with portCfg := 1 }
     (s.thread? r0).any (fun th => s.physical? th.ctx (wbits th.portCfg 46 32) == some 1 && wbits th.portCfg 49 47 == 0) = true ∧
     (s.thread? ⟨1, 0⟩).any (fun x => !x.halted && x.ctx == 0 && x.inEn && wbits x.portCfg 22 8 == s.idCore 0 0 && wbits x.portCfg 25 23 == 0 &&
       decide (x.inq.length < 8)) = true) ∧
    (let s := (live.setThread ⟨1, 0⟩ { Thread.blank with portCfg := 1 }).modCore 0 fun c => { c with left := [(0, 0, 0x100000002, [⟨7, 1, 0⟩])] }
     (s.core 0).left = [(r0.slot, 0, 0x100000002, ⟨7, 1, 0⟩ :: [])] ∧ s.portTaker? r0 0 0x100000002 = some ⟨1, 0⟩) ∧
    (let s := waitFor (.send 0 2 (pad + 0x100) 0x101) (posting 0)
     s.heldBy 0 0 = true ∧ (s.thread? r0).any (fun th => match s.sendWords r0 th (pad + 0x108) 1 with | .ok l => l.length == 1 | _ => false) = true ∧
     ((s.core 0).reserve? (s.core 0).mboxHead 2).isSome = true) ∧
    (let d : Delivery := ⟨[(0, 0x55)], 0, some r0, 0, 0x400, [0, 0, 0, 0]⟩
     let s := live.modCore 0 fun c => { c with mboxSize := 64, deliveries := [d] }
     (s.core 0).deliveries = [d] ∧ s.held (scratchKey 0 0) = false ∧ s.eccAt (scratchKey 0 0) = false ∧ s.flights = [] ∧ s.queues = [] ∧ s.allPerformed r0 0 true = true) ∧
    (let m : Miss := ⟨0, 2, 0, 0x20000, r0, false, [.thread r0], none⟩
     let s := (live.modUnit 0 fun u => { u with misses := [m] }).modCore tsvcBase fun c => { c with mboxSize := 4096 }
     ((s.unit 0).misses.find? fun x => !x.sent && x.failed.isNone) = some m ∧ ((s.core tsvcBase).reserve? (s.core tsvcBase).mboxHead 3).isSome = true) := by
  decide +kernel

/-- An entry of the store queue, and one outstanding result. -/
def entry (a : Word) (left : Option Nat) : StoreEntry := ⟨0, [(a, 8, 7)], false, 0x400, 0, left, none, false, [none]⟩
def out (cls : RegClass) (v : OutValue) : Out := ⟨0, cls, 5, 0, 0, pad, 0, v⟩

theorem witness_ThreadEvents :
    (let s := put (fun th => { th with pc := 0x10004 }) live
     (s.thread? r0).any (fun th => th.live && !th.member && th.wait == none && (s.nextWord? r0 th).isNone && !s.stopping th &&
       s.resolve r0 th th.pc accFetch (.thread r0) == .ok 0x10004 (some page0) && !s.eccAt 0x10004 && !s.held 0x10004) = true) ∧
    (let s := put (fun th => { th with pc := 0x80000000000000 }) live
     (s.thread? r0).any (fun th => (s.nextWord? r0 th).isNone && s.resolve r0 th th.pc accFetch (.thread r0) == .fault .access 0 && s.canIssue r0) = true) ∧
    (faulted.canIssue r0 = true ∧ faulted.inTurn r0 = true ∧ (faulted.thread? r0).any (fun th => !th.trapDue && th.settled && th.wait == none && th.mode != .trap) = true ∧
      faulted.storeFaultPending r0 = true ∧ (faulted.recordsOf r0).length = 1 ∧ ctx0.trace = false) ∧
    (let e := entry pad none
     let s := { put (fun th => { th with storeQ := [e] }) live with beat := 1 }
     (s.thread? r0).any (fun th => th.storeQ == [e]) = true ∧ e.at_ < s.beat ∧ ∀ x ∈ [e], x.leftAt ≠ some s.beat) ∧
    (let e := entry pad (some 0)
     let s := { put (fun th => { th with storeQ := [e] }) live with beat := 10 }
     (s.thread? r0).any (fun th => match s.checkPiece r0 th e pad 8 with
       | .ok k c => !s.held k && !s.grantSaved th.ctx k && !s.blockedBy r0 e.id k false true false && isClear s c k 8 | _ => false) = true) ∧
    (let s := { live.modUnit 0 fun u => { u with tlb := [{ page0 with key := 3 }] } with keys := [(3, true, 1)] }
     (s.thread? r0).any (fun th => s.checkPiece r0 th (entry 0x10000 (some 0)) 0x10000 8 == .ok 0x10000 (.sealed 3)) = true) ∧
    (let e := entry 0x80000000000000 (some 0)
     let s := put (fun th => { th with storeQ := [e] }) live
     (s.thread? r0).any (fun th => s.checkPiece r0 th e 0x80000000000000 8 == .bad .access && !th.halted) = true ∧ s.freeRecord? 0 = some 0) ∧
    (∀ o ∈ [out .s (.word 9), out .v (.lanes [(31, 5)]), out .s (.fault .access pad 0), { out .v (.fault .align pad 0) with issued := 3 }],
      ((put fun th => { th with outs := [o] }).thread? r0).any (fun th => (th.outs.find? fun x => x.id == 0) == some o && th.trapPend == none &&
        th.mode != .trap && !th.engaged) = true ∧ o.due ≤ run.beat ∧ o.reg ≠ 31 ∧ run.flight? 0 = none) ∧
    (let o := { out .s (.word 9) with reg := 31 }
     (put fun th => { th with outs := [o], portCfg := 2 }).thread? r0).any (fun th => th.outEn && th.outs.length == 1) = true := by
  and_intros <;> decide +kernel

/-- A copy of each mode whose next word lies at pad + 0x100, full or empty, its other end at pad. -/
def copying (mode : Nat) (full : Bool) : State :=
  (live.modCore 0 fun c => { c with copies := [{ aCopy with mode := mode, id := 4 }] }).setFull (scratchKey 0 0x100) full

theorem witness_CopyMoves :
    (∀ mode ∈ [0, 1, 2, 3, 4], let s := copying mode true
      let c := { aCopy with mode := mode, id := 4 }
      ((s.core 0).copies.find? fun x => x.id == 4) = some c ∧ (s.core 0).copyTurn c = true ∧ c.record = none ∧ s.full (scratchKey 0 0x100) = true ∧
      s.flights = [] ∧ s.queues = [] ∧ s.held (scratchKey 0 0) = false ∧
      s.engineResolve r0 (engineThread 0 false) (pad + 0x100) (accEngineFe false) true 4 = .ok (scratchKey 0 0x100) none ∧
      s.engineResolve r0 (engineThread 0 false) pad (accEngineFe true) false 4 = .ok (scratchKey 0 0) none ∧
      isClear s (copyKeying false (s.cipherFor (engineThread 0 false) none) (s.cipherFor (engineThread 0 false) none)).2 (scratchKey 0 0) 8 = true) ∧
    ((copying 3 false).full (scratchKey 0 0x100) = false ∧ (copying 3 false).freeRecord? 0 = some 0) := by decide +kernel

/-! ## Witnesses: the fabric, tensor transfers and gangs -/

/-- Port 0, up, with two flits not yet acknowledged and some transactions received. -/
def link0 (txs : List FabTx) : Link :=
  { Link.blank with up := true, replay := [(7, []), (8, [])], recvSeq := 3, received := txs.flatMap txFlits }
def linked (l : Link) (s : State := live) : State := { s with links := [(0, l)] }

theorem witness_FabricLinks :
    ((linked Link.blank).powered = true ∧ ((linked Link.blank).link 0).up = false) ∧
    (let l := link0 []
     (linked l).link 0 = l ∧ l.nakSent = false ∧ flitGood [] = false ∧ l.replay = [(7, [])] ++ (8, []) :: [] ∧
       (linked l).fabOut = [] ∧ l.progressAt + 2 ^ 20 ≤ ({ linked l with beat := 2 ^ 20 } : State).beat) ∧
    (linked { link0 [] with nakSent := true }).link 0 = { link0 [] with nakSent := true } ∧
    (let f := mkFlit 3 1 8 (8 :: List.replicate 55 0)
     flitGood f = true ∧ flitKind f = 1 ∧ flitSeq f = 3 ∧ ([(f.drop 4).take 56].head?.all fun g => (opClass (headOp g)).isSome) = true) ∧
    (flitGood (mkFlit 4 1 8 []) = false ∧ flitGood (mkFlit 4 1 8 (List.replicate 56 0)) = true ∧
      flitSeq (mkFlit 4 1 8 (List.replicate 56 0)) ≠ (link0 []).recvSeq) ∧
    (let f := bareFlit 2 8
     flitGood f = true ∧ flitKind f = 2 ∧ flitAck f = 8) ∧
    (let f := bareFlit 0 8
     flitGood f = true ∧ flitKind f = 0 ∧ flitAck f = 8) := by decide +kernel

/-- A transaction of package 5, its context 0, for the word at 0x10000 of context 0. -/
def opTx (op : Nat) (operand : Nat := 3) (payload : List Word := []) (addr : Word := 0x10000) : FabTx :=
  ⟨BitVec.ofNat 6 op, 5, 0, 0, BitVec.ofNat 8 operand, 1, 0, 0, addr, payload⟩

/-- Context 0 with fabric tables, whose only inbound grant gives package 5 everything; port 0 and I/O die 0's unit hold the
page; one transaction has come. -/
def hooked (tx : FabTx) (grant : Nat := 0x1F0000005) : State :=
  linked { Link.blank with up := true, received := txFlits tx }
    (((({ live with contexts := [{ ctx0 with fwin := 0x200000 }] }).writeMem 0x200000 8 0x100).writeMem 0x200040 8 grant).modUnit 384
      fun u => { u with tlb := [page0] })

/-- The request of package 5 stands at the head, has not been performed, and finds its word with nobody there. -/
def homed (tx : FabTx) (bit : Nat) (a : Acc) (full : Bool := true) : Bool :=
  let s := (hooked tx).setFull 0x10000 full
  let s1 := (s.consume 0 tx).freeReplies tx
  s.headOf tx == some 0 && s1.doneReply? tx == none && s.homeReqs == [] && s.flights == [] && s.queues == [] && !s.held 0x10000 &&
    (match s.homeResolve 0 tx.addr tx bit a with
     | .ok k e => k == 0x10000 && e == some page0 && s.full k == full && isClear s (s.cipherFor (homeThread tx) e) k 8 && !s.grantSaved 0 k
     | _ => false) &&
    (match (hooked tx 0).homeResolve 0 tx.addr tx bit a with | .bad c => c == .access && (hooked tx 0).headOf tx == some 0 | _ => false) &&
    (s.thread? ⟨coreCount + s.serial, 0⟩).isNone

/-- What a thread, or nobody, waits for remotely: the request of a flight. -/
def asked (flight : Option Nat) (expired : Nat) : FabReq :=
  { FabReq.mk' 0 (opTx 1) ⟨0, none, 5, 0, 0x10000, 1⟩ flight none (some r0) 0xFF80000000000000 0x400 with expired := expired }

/-- Package 0 waits for the reply tx, which has come. -/
def awaiting (k : ReqKind) (tx : FabTx) (r : FabReq := asked (some 0) 0) (f : Thread → Thread := id) : State :=
  { (flying { req k with stage := .remote } (hooked tx)).modThread r0 f with fabReqs := [r], beat := 5 }

theorem witness_FabricRequests :
    homed (opTx 1) 28 (accLoad 8) = true ∧ homed (opTx 2 2 [7]) 29 (accStore 4) = true ∧ homed (opTx 3) 30 accFeRead = true ∧
    homed (opTx 4) 30 accFeTake = true ∧ homed (opTx 5 3 [7]) 30 accFeWrite false = true ∧ homed (opTx 6 3 [7]) 30 accFeWrite = true ∧
    homed (opTx 7) 30 accFeTake = true ∧ homed (opTx 8) 30 accFeRead = true ∧ homed (opTx 9 9 [7, 8]) 30 accFeWrite = true ∧
    homed (opTx 10 1 [7]) 30 accFeWrite = true ∧
    (let tx := opTx 1
     let s := { hooked tx with fabDone := [(5, 0, 1, opTx 16)] }
     s.headOf tx = some 0 ∧ ((s.consume 0 tx).freeReplies tx).doneReply? tx = some (opTx 16)) ∧
    (let tx := opTx 11
     let s := { hooked tx with fabDone := [(5, 0, 1, opTx 16)] }
     s.headOf tx = some 0 ∧ (s.consume 0 tx).doneReply? tx = some (opTx 16) ∧ ((hooked tx).consume 0 tx).doneReply? tx = none) ∧
    (let tx := opTx 11
     let f := { req .ldW with stage := .queued none, thread := ⟨coreCount, 0⟩ }
     let s := { flying f (hooked tx) with homeReqs := [⟨opTx 3, 0, 0, none⟩] }
     s.headOf tx = some 0 ∧ (s.consume 0 tx).doneReply? tx = none ∧ s.flight? 0 = some f) ∧
    (∀ k ∈ [ReqKind.load 4 true, .ldW, .feProbe, .ldT, .stS, .feClr, .red 0], ∀ st ∈ [0, 3, 4, 7, 16, 255],
      let tx := opTx 16 st [9]
      let s := awaiting k tx
      s.headOf tx = some 0 ∧ (s.reqOf tx).isSome = true ∧ (s.reqOf tx).all (fun r => r.flight == some 0 && r.xfer == none) = true ∧
        (s.flight? 0).any (fun f => !f.orphan && f.detached == none && !f.home) = true ∧ (s.thread? r0).isSome = true) ∧
    (∀ k ∈ [ReqKind.stF, .amo 0], ∀ st ∈ [0, 3],
     let tx := opTx 16 st [9]
     let s := awaiting k tx (asked (some 0) 0) fun th => { th with wait := some ⟨.fill 0, 0, 0⟩ }
     s.headOf tx = some 0 ∧ (s.thread? r0).any (fun th => th.wait.map Wait.kind == some (.fill 0) && th.mode != .trap && th.outs.isEmpty) = true) ∧
    (let r := { asked none 0 with store := some r0 }
     let s := awaiting .stS (opTx 16 3) r
     s.reqOf (opTx 16 3) = some r ∧ (s.thread? r0).all (fun th => !th.halted) = true ∧
       (s.writeRecord 0 0 3 0 false 3 0x400 0xFF80000000000000 7).isSome = true ∧ (s.writeRecord 0 0 3 1 false 3 0x400 0x10000 7).isSome = true) ∧
    (let s := awaiting .stS (opTx 16 0) (asked none 0)
     s.reqOf (opTx 16 0) = some (asked none 0)) ∧
    (∀ e ∈ [0, 1], let s := awaiting (.load 8 false) (opTx 16) (asked (some 0) e)
      (s.fabReqs.find? fun x => x.id == 0 && decide (x.sentAt + x.tmo < s.beat)) = some (asked (some 0) e)) := by
  and_intros <;> decide +kernel

/-- A descriptor that moves one word from 0x10400 to 0x10800: word 0, its counts, FADDR and FVAL. -/
def desc (w0 : Word := 0x23440003) (count : Word := 1) (faddr : Word := 0) : List Word :=
  [w0, 0x10400, 0x10800, faddr, 9] ++ List.replicate 5 count ++ List.replicate 14 0

/-- The transfer of a descriptor in the engine of I/O die 0. -/
def xfer0 (ws : List Word) : Xfer := { Thread.blank.newXfer run 0 ws with id := 0 }

/-- The thread with that descriptor at 0x10000. -/
def described (ws : List Word) (s : State := live) : State :=
  atAddr ((ws.zipIdx).foldl (fun a p => a.writeMem (0x10000 + 8 * p.2) 8 p.1.toNat) s) 0x10000

/-- Transfers in the engine, whose I/O die's unit holds the page. -/
def moving (x : Xfer) : State := { hooked (opTx 16) with xfers := [x], serial := 1 }

/-- The page after it as well, in another frame. -/
def twoPages (s : State) : State := s.modUnit 384 fun u => { u with tlb := [page0, { page0 with vpn := 2, frame := 5 }] }

/-- A bulk transaction whose word lies in one place at its home. -/
def placed (tx : FabTx) (a : Acc) : Bool :=
  (hooked tx).places (fun va => (hooked tx).homeResolve 0 va tx 31 a) ((hooked tx).cipherFor (homeThread tx)) tx.addr 8
    == .ok [(0x10000, 8, .under 0)]

theorem witness_Transfers :
    (let read (b : State) (y : Thread) : Bool := y.readS 2 == 0x10000 &&
       (match b.xfResolve b.cur y 0x10000 (xfParts 0x10000) with
        | .ok ks => ks == [(0x10000, .under 0), (0x10040, .under 0), (0x10080, .under 0)] | _ => false) && b.eccBad == []
     let ks : List (Nat × Keying) := [(0x10000, .under 0), (0x10040, .under 0), (0x10080, .under 0)]
     let m := Meta.scalar [2] []
     meets m (atAddr run 8) (fun _ y => decide ((y.readS 2).toNat % 64 ≠ 0)) = true ∧
     meets m (atAddr live 0x20000) (fun b y => match b.xfResolve b.cur y 0x20000 (xfParts 0x20000) with | .error r => r == .miss 0x20000 0 | _ => false) = true ∧
     meets m (described desc { live with eccBad := [0x10040] }) (fun b y =>
       (match b.xfResolve b.cur y 0x10000 (xfParts 0x10000) with | .ok l => l == ks | _ => false) &&
       ((xfAddrs 0x10000 ks).find? fun q => b.eccAt q.2) == some (0x10040, 0x10040)) = true ∧
     meets m (described (desc 0x20)) (fun b y => read b y && b.xfReason y.ctx (b.xfWords ks) == 1) = true ∧
     meets m (described (desc 0x23440003 0)) (fun b y => read b y && b.xfReason y.ctx (b.xfWords ks) == 2) = true ∧
     meets m (described (desc 3)) (fun b y => read b y && b.xfReason y.ctx (b.xfWords ks) == 3) = true ∧
     meets m (described desc) (fun b y => read b y && b.xfReason y.ctx (b.xfWords ks) == 0 && b.xfers == []) = true ∧
     meets m (described desc { live with xfers := List.replicate 64 (xfer0 desc) }) (fun b y => read b y &&
       b.xfReason y.ctx (b.xfWords ks) == 0 && (b.xfers.filter fun z => z.ctx == y.ctx && z.engine == b.xfEngine b.cur.core y.ctx (b.xfWords ks)).length == 64) = true) ∧
    (∀ mode ∈ [0, 1, 2],
      let x := xfer0 (desc (ofN (0x23440003 + 8 * mode)))
      let s := moving x
      s.xferHeld x = false ∧ { s with xfers := [x, { x with id := 1 }] }.xferHeld { x with id := 1 } = true ∧ xfMode (x.word 0) = mode ∧ xfQuant (x.word 0) = false ∧ xfLg (x.word 0) = 3 ∧ x.next < x.total ∧ x.srcAt 0 = 0x10400 ∧ x.dstAt 0 = 0x10800 ∧
      s.xferPlaces x (xfReadAcc mode) 0x10400 3 = .ok [(0x10400, 8, .under 0)] ∧
      s.xferPlaces x (xfWriteAcc (mode == 1 || mode == 2)) 0x10800 3 = .ok [(0x10800, 8, .under 0)] ∧
      s.holds = [] ∧ s.eccBad = [] ∧ s.queues = [] ∧ s.flights = [] ∧ isClear s (.under 0) 0x10800 8 = true) ∧
    (let x := xfer0 [0x3, 0x10400, 0x1FFFC]
     (twoPages (moving x)).xferPlaces x (xfWriteAcc false) 0x1FFFC 3 = .ok [(0x1FFFC, 4, .under 0), (0x50000, 4, .under 0)] ∧
       isClear (twoPages (moving x)) (.under 0) 0x50000 4 = true) ∧
    -- a source in the FABRIC window, within it and past its end
    (∀ a ∈ [0x40, 0xFFFC], let x := xfer0 (desc.set 1 (ofN (0xFF80000000000000 + a)))
     let s := { (wired.writeMem 0x200040 8 0x5001F).writeMem 0x200050 8 0x10000 with xfers := [x] }
     x.next < x.total ∧ windowOf (x.srcAt 0) = .fabric ∧ s.xferHeld x = false ∧
       (s.fabWindow? 0 (x.srcAt 0) 4).any (fun w => !s.streamFull w.port &&
         s.beyondWindow? 0 w (x.srcAt 0) 8 == if a = 0x40 then none else some 0xFF80000000010000) = true) ∧
    (let x := { xfer0 desc with next := 1 }
     x.total ≤ x.next ∧ xfFlag (x.word 0) = false) ∧
    (let x := { xfer0 (desc 0x23440043 1 0x10C00) with next := 1 }
     let s := moving x
     x.total ≤ x.next ∧ xfFlag (x.word 0) = true ∧ windowOf (x.word 3) ≠ .fabric ∧
       s.engineResolve x.seat x.agent (x.word 3) (accEngineFe true) false 0 = .ok 0x10C00 (some page0) ∧ s.holds = [] ∧ s.queues = []) ∧
    (let x := { xfer0 desc with failed := some (0, 3, 0x10400) }
     let s := { moving x with contexts := [{ ctx0 with fq := 0x300000, fqN := 4 }] }.setFull 0x300000 false
     xfFlag (x.word 0) = false ∧ (s.xfers.find? fun y => y.id == 0) = some x ∧ s.full 0x300000 = false ∧ s.held 0x300000 = false) ∧
    homed (opTx 20 3 [7]) 31 (xfWriteAcc false) = true ∧ homed (opTx 20 27 [7]) 31 (xfWriteAcc true) = true ∧
    homed (opTx 21) 31 (xfReadAcc 0) = true ∧ homed (opTx 21 11) 31 (xfReadAcc 1) = true ∧
    placed (opTx 20 3 [7]) (xfWriteAcc false) = true ∧ placed (opTx 20 27 [7]) (xfWriteAcc true) = true ∧
    placed (opTx 21) (xfReadAcc 0) = true ∧ placed (opTx 21 11) (xfReadAcc 1) = true ∧
    (let x := { xfer0 desc with waiting := some 0 }
     let r := { asked none 0 with xfer := some 0 }
     let s := { moving x with fabReqs := [r] }
     s.reqOf (opTx 22 0 [7, 1]) = some r ∧ (hooked (opTx 22 0 [7, 1])).headOf (opTx 22 0 [7, 1]) = some 0) := by
  and_intros <;> decide +kernel

/-- Context 0 up, with its fabric tables at 0x200000; a launch record at 0x10000 and its addresses in MHPOST and GPOST. -/
def posts (gang : List Nat) : State :=
  let s := (((({ recorded 1 with bootStage := 4, contexts := [{ ctx0 with fwin := 0x200000 }] }).writeMem 0x200000 8 1).writeMem 0x200010 8 1).writeMem
    0x200018 8 0x10000).writeMem 0x200008 8 0x10400
  ((gang.zipIdx).foldl (fun a p => a.writeMem (0x10400 + 8 * p.2) 8 p.1) (s.writeMem 0x200040 8 0x5000F)).writeMem 0x200050 8 0x1000000

def member0 (ack : Option Nat := none) : GangMember := ⟨0, 0x10000, ack, false, 0⟩

/-- A gang that package 0 leads, all of its members in window 0; DECISION at 0x10410. -/
def gang0 (ms : List GangMember) (d : Option Word := none) : Gang := ⟨0, 0, 0x10400, 1, 0, ms, 0, some 0, d⟩
def led (g : Gang) (tx : FabTx := opTx 25 0 [0, 0] 0) : State :=
  let s := hooked tx
  { (((s.writeMem 0x200000 8 0x101).writeMem 0x200060 8 0x1F0000005).writeMem 0x200040 8 0x5000F).writeMem 0x200050 8 0x1000000 with gangs := [g], beat := 5 }

/-- DECISION can be filled. -/
def decidable (s : State) : Bool :=
  s.deviceKey? 0 0x10410 .wr == some 0x10410 && !s.held 0x10410 && s.queues == [] && s.flights == [] && s.prepared == []

/-- A record that package 0 keeps for package 5. -/
def kept0 (answer : Nat) (decided : Option Nat) : Prepared := ⟨5, 0, 0, 0, 0, 0x10000, 1, 0, answer, decided⟩
def keeps (p : List Prepared) (tx : FabTx) : State := { hooked tx with prepared := p, beat := 5, bootStage := 4 }

theorem witness_Gangs :
    (let s := posts []
     s.full 0x200018 = true ∧ s.holds = [] ∧ s.queues = [] ∧ s.flights = [] ∧ s.readWord 0x200018 = 0x10000 ∧
       (match s.postCheck 0 0x10000 with | .ok k r => k == 0x10000 && !s.mastheadBad 0 r | _ => false) = true) ∧
    (let s := posts [0x101, 5, 0, 0, 0, 0, 0, 0, 0, 0x10000]
     s.full 0x200008 = true ∧ s.readWord 0x200008 = 0x10400 ∧ s.deviceKey? 0 0x10400 .wr = some 0x10400 ∧ s.gangBad 0 0x10400 = false ∧ s.gangMiss? 0 0x10400 = none ∧ s.gangGone 0 0x10400 = false ∧ s.gangKeys 0 0x10400 ≠ [] ∧ s.gangWord 0 0x10400 3 = 0 ∧
       s.readWord 0x10418 = 0 ∧ s.gangMembers 0 0x10400 = [member0] ∧ s.gangs = [] ∧ s.holds = [] ∧ s.bootStage = 4) ∧
    (let s := { posts [] with contexts := [{ ctx0 with fwin := 0x200000 }] }.writeMem 0x200018 8 0x20000
     s.postCheck 0 (s.readWord 0x200018) = .wait ∧ s.memberWaits 0 0x20000 = true) ∧
    (let s := (posts []).writeMem 0x200008 8 0x20000
     (s.readWord 0x200008).toNat % 64 = 0 ∧ s.gangMiss? 0 (s.readWord 0x200008) = some 0x20000) ∧
    (let g := gang0 [member0]
     g.startedAt + g.timeout < (led g).beat ∧ { led g with beat := 1 }.beat ≤ g.startedAt + g.timeout ∧ g.failure? = none ∧ g.allOk = false ∧ decidable (led g) = true) ∧
    (∀ ms ∈ [[member0], [member0, member0]], ∀ r ∈ [0, 7],
      let tx := opTx 25 r [0, 0] 0
      let s := led (gang0 ms) tx
      s.headOf tx = some 0 ∧ s.gangOf tx.addr = some (gang0 ms) ∧ decidable s = true ∧
      { s with beat := 1 }.headOf tx = some 0 ∧ decidable { s with beat := 1 } = true) ∧
    ((gang0 [member0 (some 0)]).allOk = true ∧ (gang0 [member0 (some 0), member0]).allOk = false ∧
      (gang0 [member0 (some 0), member0]).failure? = none) ∧
    (∀ tx ∈ [opTx 25 0 [0, 1] 0, opTx 28 0 [0] 0], (led (gang0 [member0]) tx).headOf tx = some 0 ∧
      (led (gang0 [member0]) tx).gangOf tx.addr = some (gang0 [member0])) ∧
    (let g := gang0 [member0] (some 1)
     g.decision = some 1 ∧ (member0).told = false ∧ (member0).sentAt + g.timeout < (led g).beat ∧ ((led g).gangWindow? 0 0).isSome = true) ∧
    (let tx := opTx 24 0 [0x10000, 1, 0] 0x500000000
     let s := keeps [] tx
     s.headOf tx = some 0 ∧ s.inbound tx 29 = true ∧ (hooked tx 0).inbound tx 29 = false ∧ s.preparedOf tx 0 = none ∧ s.queues = [] ∧
       s.flights = [] ∧ (keeps [kept0 0 none] tx).preparedOf tx 0 = some (kept0 0 none)) ∧
    (∀ op ∈ [26, 27], ∀ p ∈ [kept0 0 (some 1), kept0 9 none, kept0 0 none],
      let tx := opTx op 0 [0] 0x500000000
      let s := keeps [p] tx
      s.headOf tx = some 0 ∧ s.preparedOf tx 0 = some p ∧ (keeps [] tx).preparedOf tx 0 = none ∧ s.deviceKey? 0 0x10000 .wr = some 0x10000 ∧
        s.holds = [] ∧ s.queues = [] ∧ s.flights = [] ∧ s.memberReady 0 0x10000 = true) ∧
    (∀ d ∈ [1280, 1, 2], let tx := opTx 29 0 [0, ofN d] 0x500000000
      (keeps [kept0 9 none] tx).headOf tx = some 0 ∧ (keeps [kept0 9 none] tx).preparedOf tx 0 = some (kept0 9 none) ∧
        (keeps [kept0 0 none] tx).preparedOf tx 0 = some (kept0 0 none) ∧ (keeps [kept0 0 none] tx).queues = [] ∧
        (keeps [kept0 0 none] tx).deviceKey? 0 0x10000 .wr = some 0x10000) ∧
    (hooked (opTx 30)).headOf (opTx 30) = some 0 ∧
    (let p := kept0 0 none
     let s := keeps [p] (opTx 30)
     p.leader ≠ s.fabricId ∧ p.since + p.timeout < s.beat) := by
  and_intros <;> decide +kernel

/-! ## Witnesses: the package and the whole machine -/

/-- Context 0 has an entry at 0x400000, its only core physical core 5; ctx.act is being carried out. -/
def entered (w0 : Nat) (act : Word) : State :=
  { ((((run.writeMem 0x400000 8 w0).writeMem 0x400008 8 0).writeMem 0x400010 8 0x410000).writeMem 0x410000 2 0x8005) with
    ctxBase := 0x400000, ctxActBusy := some act }

theorem witness_ContextsAndPower :
    (∀ w ∈ [0, 1, 3], let s := entered w 0x8000000000000000
      s.ctxActBusy.all (fun v => wbit v 63 && wbits v 11 0 == 0) = true ∧ wbit (s.entryWord 0 0) 0 = (w != 0) ∧
        s.activation (s.readContext 0) = (if w = 3 then 3 else 0)) ∧
    (let s := entered 1 0x8000000000000000
     (s.readContext 0).coreTab = [(0, 5)] ∧ ∀ i ∈ List.range 8, (s.slot ⟨5, i⟩).ctx = none) ∧
    (let s := { live with ctxActBusy := some 0 }
     s.ctxActBusy.all (fun v => !wbit v 63) = true ∧ s.bands = [] ∧ ∃ b, ({ s with bands := [bandOf .saving] } : State).bands = [b] ∧ b.ref.ctx = 0) ∧
    (let s := { run.modSlot r0 (fun x => { x with timer := 1 }) with beat := 1 }
     (s.slot r0).timer ≠ 0 ∧ (s.slot r0).timer.toNat ≤ s.beat ∧ (s.slot r0).timerFired = false) ∧
    (let s := { run with fstepPend := some 3 }
     s.fstepPend = some 3 ∧ s.boundary = true) ∧
    (run.powered = true ∧ run.beat % 1024 = 0 ∧ run.powerAt ≠ some run.beat ∧ run.boundary = true ∧ run.pwrLimit < 9601 ∧ 0 < run.fstep) ∧
    920 ≤ ({ run with pwrTemp := 920 } : State).pwrTemp ∧
    (∀ k ∈ ({ run with eccSoft := [8, 2 ^ 52, 3 * 2 ^ 52] } : State).eccSoft, k % 8 = 0) ∧ run.beat % 65536 = 0 ∧
    (State.launches { live with launches := [launch0 1 1] }).length = 1 ∧
    (∀ c ∈ [4, 5], let s := { run with keyBusy := true, keyCmd := BitVec.ofNat 64 c }
      s.keyBusy = true ∧ wbits s.keyCmd 1 0 = c - 4) := by
  refine ⟨?_, ?_, ⟨?_, ?_, bandOf .saving, ?_⟩, ?_⟩ <;> and_intros <;> decide +kernel

/-- Which images are signed is a constant of the configuration that nothing evaluates: one whose key and signature are
the vendor's is good, and so are 52 of them, and one without a signature is not. -/
theorem witness_ResetsAndBringUp :
    run.powered = true ∧ (∀ d ∈ [0, 23], (run.die d).released = false ∧ (run.die d).fenced = false ∧
      ((run.modDie d fun x => { x with released := true }).die d).released = true) ∧ run.flights = [] ∧ run.bands = [] ∧
    (∀ b ∈ [0, 1, 2, 3], ({ run with bootStage := b } : State).bootStage = b) ∧ imageOk ⟨[], [], [], 0⟩ = false ∧
    ∀ x : BootImage, Config.shake256 x.key = Config.fusedKeyHash → x.sig.length = 114 → Config.ed448Valid x.key x.image x.sig = true →
      x.rollback = Config.fusedRollback → imageOk x = true ∧ 52 ≤ (List.replicate 52 x).length ∧
        ((List.replicate 52 x).take 52).all imageOk = true := by
  refine ⟨by decide +kernel, by decide +kernel, by decide +kernel, by decide +kernel, by decide +kernel, by simp [imageOk], ?_⟩
  intro x hk hs hv hr
  have h : imageOk x = true := by simp [imageOk, hk, hs, hv, hr]
  exact ⟨h, by simp, by simp [h]⟩

/-- A session that has stopped the thread of r0; a package whose aperture shows the frame of 0x10000 at its beginning. -/
def stoppedBy (c : Context) (b : Bool) : State := put (fun th => { th with stopped := b }) { live with contexts := [c] }
def shown : State := { live with aperture := [(0, 1)], apertureSize := 0x20000 }

theorem witness_HostAndDebug :
    (shown.powered = true ∧ shown.apertureKey? 0 = some 0x10000 ∧ shown.apertureKey? 0xFFFF = some 0x1FFFF ∧ shown.apertureKey? 0x10000 = none ∧
      isClear shown (shown.hostKeying 0x10000) 0x10000 8 = true ∧ isClear shown (shown.hostKeying 0x1FFFF) 0x1FFFF 1 = true ∧
      shown.apertureKeys 0 2 = [0x10000, 0x10001] ∧
      ({ shown with keys := [(3, true, 1)], unitKeys := [(0x400, 3, 2)] } : State).hostKeying 0x10000 = .sealed 3 ∧ shown.hostFree 0 8 = true ∧ shown.held 0x10000 = false ∧
      shown.queues = [] ∧ shown.flights = [] ∧ ([1, 2, 3, 4, 5, 6, 7, 8] : List Byte).length = 8) ∧
    (let s := { run with challenge := some [] }
     s.challenge = some [] ∧ ([] : List Byte).length ≠ 114 ∧ (List.replicate 114 (0 : Byte)).length = 114) ∧
    ((live.thread? r0).isSome = true ∧ live.context? 0 = some ctx0 ∧ ctx0.kdbg = false ∧ (ctl.thread? r0).any (fun th => th.privileged) = true) ∧
    (let s := put (fun th => { th with stopped := true, halted := true }) session
     (s.thread? r0).any (fun th => th.stopped && th.halted && (s.band? th.bandRef).isNone) = true) ∧
    (∀ conf ∈ [false, true], ∀ b ∈ [false, true],
      let c := { ctx0 with kdbg := true, conf := conf }
      let s := stoppedBy c b
      s.context? 0 = some c ∧ (s.thread? r0).any (fun th => th.ctx == 0 && th.stopped == b && !th.halted && th.busy == 0 && th.trapPend.isNone &&
        th.wait.isNone && th.settled && th.storeQ == [] && th.pending == 0) = true) := by
  and_intros <;> decide +kernel

/-- The thread of r0 issues next: the word placed for it, a word that is none, no word, a store's trap, a breakpoint, a trap
that waits, a spoilt word of its channel; and a slot whose cycle has passed, or must wait for a lower one. -/
theorem witness_StepRunsDecoded :
    (let s := { run with agenda := [] }
     run.agenda = [.issue r0] ∧ s.inTurn r0 = true ∧ (s.turnTo r0).fetchFor r0 = .word 0x7A200007 ∧ decode 0x7A200007 = some (.nop .always) ∧
       s.canIssue r0 = true ∧ s.storeFaultPending r0 = false ∧
       (s.thread? r0).any (fun th => !th.trapDue && !th.member && !s.breakAt th && th.fetched.isNone && (s.core 0).icache == [(th.ctx, th.pc, 0x7A200007)]) = true) ∧
    (let s := put (fun th => { th with fetched := none, pc := pad + 8 }) { run with agenda := [] }
     (s.turnTo r0).fetchFor r0 = .missing (pad + 8) ∧
       ((s.modCore 0 fun c => { c with icache := [(0, pad + 8, 0x7A200007)] }).turnTo r0).fetchFor r0 = .word 0x7A200007) ∧
    decode 0 = none ∧ run.fetchFor ⟨1, 0⟩ = .idle ∧ run.inTurn ⟨1, 0⟩ = true ∧ run.inTurn ⟨0, 1⟩ = false ∧ (run.turnTo r0).inTurn r0 = false ∧
    ((session.modThread r0 fun th => { th with pc := 0x40, fetched := none }).turnTo r0).fetchFor r0 = .breakpoint ∧
    ((lateFault 0).turnTo r0).fetchFor r0 = .trap ∧
    ((member (onAir [r0]) fun th => { th with subBuf := [⟨0, 0x40, 0, true⟩], subDue := 1 }).turnTo r0).fetchFor r0 = .spoiled ∧
    ((run.writeRecord 0 0 9 0 false 3 0x400 0x10000 0).any fun s => (s.modCore 0 fun c => { c with recNew := [] }).fetchFor r0 == .storeFault) = true ∧
    (encode (.timer r0) = none ∧ encode (.nop .always) = some 0x7A200007) ∧
    (State.reset.firstEffect State.reset.internal = none ∧ State.reset.nextSlot? = none) ∧ run.nextSlot? = some r0 := by
  and_intros <;> decide +kernel

theorem witness_DecodeEncode : wf (.nop .always) = true ∧ encode (.nop .always) = some 0x7A200007 ∧ wf (.tlbwInvalidatePage .always 16 17) = true ∧
    encode (.tlbwInvalidatePage .always 16 17) = some 0x7A204225 ∧
    canon (.tlbwInvalidatePage .always 16 17) = .tlbwWriteEntry .always 16 17 ∧ decode 0x7A204225 = some (.tlbwWriteEntry .always 16 17) := by decide +kernel

/-- A state with the invariant whose next step is an instruction. -/
theorem witness_StepKeepsInv : Inv run ∧ ∃ t, step run = .next t := by
  refine ⟨show Memory.wf run.mem = true by decide +kernel, ?_⟩
  have h : (match step run with | .next _ => true | _ => false) = true := by decide +kernel
  split at h
  · rename_i t e
    exact ⟨t, e⟩
  · exact absurd h (by decide)

/-! ## One step -/

/-- A step that issues the word, with -1 in s1 and 3 in s2, leaves a thread of which this holds. -/
noncomputable def after (w : Nat) (p : Thread → Bool) : Bool :=
  match step ((State.reset.withFetchWord 32 w).modThread r0 (regs [(1, 0xFFFFFFFFFFFFFFFF), (2, 3)])) with
  | .next t => (t.thread? r0).any p
  | _ => false

/-- R63, R106: ADD s3, s1, s2 wraps at 64 bits, and with D = s0 its result is discarded. -/
theorem test_step_add : after 0x78118440 (fun th => th.readS 3 == 2 && th.pc == pad + 4) = true ∧
    after 0x78100440 (fun th => th.readS 0 == 0 && th.readS 3 == 0 && th.pc == pad + 4) = true := by decide +kernel
/-- R39, R75, R77: a word that is no instruction traps with itself in trap.info. -/
theorem test_step_ill : after 0x7A20000F (fun th => th.mode == .trap && th.trapPc == pad && th.trapInfo == 0x7A20000F) = true := by
  decide +kernel

/-- DRAIN.ST with a store queued issues and waits at itself; once the queue is empty the thread's cycle ends it. -/
theorem test_drain_waits :
    (match execDrainSt .always storing with
     | .next s => (s.thread? r0).any fun th => th.wait.map Wait.kind == some (.work .drain) && th.issued && th.pc == pad
     | _ => false) = true := by decide +kernel
theorem test_drain_ends : (((atWork .drain).endWork r0).thread? r0).any (fun th => th.pc == pad + 4 && th.wait.isNone) = true := by decide +kernel

end Sys2Proof.Tests
end

section
/-! The end of a rotation: what each shared operation of it does, and the statement on it (O44). -/

namespace Sys2Proof.Machine

/-! ## The classes of a thread (R157) -/

namespace State

theorem classOf_of_issued (s : State) (t : ThreadRef) {th : Thread} (h : th.issued = true) : s.classOf t th = .issued := by
  simp [classOf, h]

theorem classOf_of_not_live (s : State) (t : ThreadRef) {th : Thread} (hi : th.issued = false) (hl : th.live = false) :
    s.classOf t th = .vacant := by
  simp [classOf, hi, hl]

theorem classOf_of_busy (s : State) (t : ThreadRef) {th : Thread} (hl : th.live = true) (hb : th.busy ≠ 0) :
    s.classOf t th = .issued := by
  simp [classOf, hl, hb]

/-- A choice between two of the classes of a thread that is not ready is one of them. -/
theorem notReady_ite {p : Prop} [Decidable p] {c d : Class} (hc : c = .memory ∨ c = .message) (hd : d = .memory ∨ d = .message) :
    (if p then c else d) = .memory ∨ (if p then c else d) = .message := by
  by_cases h : p
  · simpa only [if_pos h] using hc
  · simpa only [if_neg h] using hd

/-- A live thread that has not issued and is not busy is not ready, on memory or on a message. -/
theorem classOf_of_not_ready (s : State) (t : ThreadRef) {th : Thread} (hi : th.issued = false) (hl : th.live = true)
    (hb : th.busy = 0) : s.classOf t th = .memory ∨ s.classOf t th = .message := by
  simp only [classOf, hi, hl, hb, Bool.not_true, Bool.false_eq_true, bne_self_eq_false, if_false]
  cases th.wait with
  | some w => exact notReady_ite (.inr rfl) (.inl rfl)
  | none => exact notReady_ite (.inl rfl) (notReady_ite (.inr rfl) (notReady_ite (.inr rfl) (notReady_ite (.inr rfl) (.inl rfl))))

theorem classOf_eq_issued_iff (s : State) (t : ThreadRef) {th : Thread} (hl : th.live = true) :
    s.classOf t th = .issued ↔ th.issued = true ∨ th.busy ≠ 0 := by
  by_cases hi : th.issued = true
  · simp [classOf_of_issued s t hi, hi]
  by_cases hb : th.busy = 0
  · obtain h | h := classOf_of_not_ready s t (by simpa using hi) hl hb <;> simp [h, hi, hb]
  · simp [classOf_of_busy s t hl hb, hb]

theorem classOf_ne_vacant (s : State) (t : ThreadRef) {th : Thread} (hl : th.live = true) : s.classOf t th ≠ .vacant := by
  by_cases h : th.issued = true ∨ th.busy ≠ 0
  · simp [(classOf_eq_issued_iff s t hl).2 h]
  · obtain ⟨hi, hb⟩ := not_or.1 h
    obtain e | e := classOf_of_not_ready s t (Bool.not_eq_true _ ▸ hi) hl (Decidable.not_not.1 hb) <;> simp [e]

end State

/-! ## Counting a rotation (R65, R157) -/

namespace Thread

section
variable {th : Thread} {beat : Nat} (c : Class) (h : th.bornAt ≠ some beat)
include h

theorem count_rotIssued : (th.count beat c).rotIssued = th.rotIssued + if c = .issued then 1 else 0 := by
  cases c <;> simp [count, h]

theorem count_rotMem : (th.count beat c).rotMem = th.rotMem + if c = .memory then 1 else 0 := by
  cases c <;> simp [count, h]

theorem count_rotMsg : (th.count beat c).rotMsg = th.rotMsg + if c = .message then 1 else 0 := by
  cases c <;> simp [count, h]

theorem count_rotVacant : (th.count beat c).rotVacant = th.rotVacant + if c = .vacant then 1 else 0 := by
  cases c <;> simp [count, h]

/-- A rotation is counted once, whatever its class. -/
theorem count_sum : (th.count beat c).rotIssued + (th.count beat c).rotMem + (th.count beat c).rotMsg + (th.count beat c).rotVacant =
    th.rotIssued + th.rotMem + th.rotMsg + th.rotVacant + 1 := by
  rw [count_rotIssued c h, count_rotMem c h, count_rotMsg c h, count_rotVacant c h]
  cases c <;> simp only [reduceCtorEq, if_true, if_false] <;> omega

end

/-- Counting changes nothing of a thread but its counters. -/
theorem count_eq (th : Thread) (beat : Nat) (c : Class) : ∃ i m g v,
    th.count beat c = { th with rotIssued := i, rotMem := m, rotMsg := g, rotVacant := v } := by
  unfold count
  split
  · exact ⟨_, _, _, _, rfl⟩
  · cases c <;> exact ⟨_, _, _, _, rfl⟩

@[simp] theorem count_pc (th : Thread) (beat : Nat) (c : Class) : (th.count beat c).pc = th.pc := by
  obtain ⟨_, _, _, _, h⟩ := th.count_eq beat c; rw [h]

@[simp] theorem count_s (th : Thread) (beat : Nat) (c : Class) : (th.count beat c).s = th.s := by
  obtain ⟨_, _, _, _, h⟩ := th.count_eq beat c; rw [h]

@[simp] theorem count_member (th : Thread) (beat : Nat) (c : Class) : (th.count beat c).member = th.member := by
  obtain ⟨_, _, _, _, h⟩ := th.count_eq beat c; rw [h]; rfl

@[simp] theorem count_holds (th : Thread) (beat : Nat) (c : Class) (b : Nat) : (th.count beat c).holds b = th.holds b := by
  obtain ⟨_, _, _, _, h⟩ := th.count_eq beat c; rw [h]; rfl

/-! ## A thread at the end of a rotation (R74, R174) -/

@[simp] theorem turn_issued (th : Thread) (beat : Nat) : (th.turn beat).issued = false := rfl
@[simp] theorem turn_pc (th : Thread) (beat : Nat) : (th.turn beat).pc = th.pc := rfl
@[simp] theorem turn_s (th : Thread) (beat : Nat) : (th.turn beat).s = th.s := rfl
@[simp] theorem turn_rotIssued (th : Thread) (beat : Nat) : (th.turn beat).rotIssued = th.rotIssued := rfl
@[simp] theorem turn_rotMem (th : Thread) (beat : Nat) : (th.turn beat).rotMem = th.rotMem := rfl
@[simp] theorem turn_rotMsg (th : Thread) (beat : Nat) : (th.turn beat).rotMsg = th.rotMsg := rfl
@[simp] theorem turn_rotVacant (th : Thread) (beat : Nat) : (th.turn beat).rotVacant = th.rotVacant := rfl

theorem holds_iff {th : Thread} {beat : Nat} (h : th.member = true) :
    th.holds beat = true ↔ ∃ e ∈ th.subBuf, e.rot + th.sqDepth ≤ beat := by
  simp [holds, h]

theorem turn_sq_eq_held_iff {th : Thread} {beat : Nat} (h : th.member = true) :
    (th.turn beat).sq = .held ↔ th.holds beat = true := by
  simp [turn, h]

end Thread

/-! ## Slots, cores and the package (R155-R158) -/

namespace State

theorem turnSlot_of_thread (s : State) (n i : Nat) {sl : Slot} {th : Thread} (h : sl.thread = some th) :
    (s.turnSlot n (sl, i)).thread = some ((th.count s.beat (s.classOf ⟨n, i⟩ th)).turn s.beat) := by
  simp [turnSlot, h]

theorem turnSlot_of_no_thread (s : State) (n i : Nat) {sl : Slot} (h : sl.thread = none) :
    s.turnSlot n (sl, i) = { sl with vacantCount := sl.vacantCount + (if sl.used then 0 else 1), used := false } := by
  simp [turnSlot, h]

theorem issuedSlots_le (s : State) (n : Nat) : s.issuedSlots n ≤ 8 :=
  Nat.le_trans (List.length_filter_le _ _) (Nat.le_of_eq List.length_range)

/-- Of the nine counters of a core, the one for the number of its slots that issued counts the rotation (R158). -/
theorem turnCore_rotHist (s : State) (n : Nat) (c : Core) {k : Nat} (hk : k < 9) :
    (s.turnCore n c).rotHist[k]? = some ((c.rotHist[k]?).getD 0 + if k = s.issuedSlots n then 1 else 0) := by
  have hn : s.issuedSlots n < 9 := Nat.lt_succ_of_le (s.issuedSlots_le n)
  simp only [turnCore, Vector.getElem?_setIfInBounds]
  by_cases e : s.issuedSlots n = k
  · subst e; simp [hn]
  · simp [e, Ne.symm e, hk]

end State

theorem execRotation_of_standing {s : State} (h : s.powered = false ∨ s.beatRuns = false ∨ s.overdue = true) :
    execRotation s = .next s := by
  obtain h | h | h := h <;> simp [execRotation, h]

theorem execRotation_of_over {s : State} (hp : s.powered = true) (hr : s.beatRuns = true) (ho : s.overdue = false) :
    execRotation s = .next (State.beginRotation
      { s with cores := s.cores.map fun p => (p.1, s.turnCore p.1 p.2), beat := s.beat + 1, cycle := 0, turned := [] }) := by
  simp [execRotation, hp, hr, ho]

/-- Settles O44: each clause is what one operation of the rotation's end does, and a slot's class decides its counter. -/
theorem rotationTurns : Obligations.RotationTurns := by
  unfold Obligations.RotationTurns
  refine ⟨fun s h => (exec_rotation s).trans (execRotation_of_standing h),
    fun s hp hr ho => (exec_rotation s).trans (execRotation_of_over hp hr ho), ?_,
    fun s n i sl h => s.turnSlot_of_no_thread n i h, fun s n c => ⟨s.issuedSlots_le n, fun k hk => s.turnCore_rotHist n c hk⟩⟩
  intro s n i sl th hth born
  refine ⟨_, s.turnSlot_of_thread n i hth, rfl, by simp, by simp, Thread.count_sum _ born, fun hi => ?issued,
    fun hi hl => ?vacant, fun hl => ⟨?issuedIff, ?notVacant⟩, fun hm => ?held⟩
  case issued => simp [Thread.count_rotIssued _ born, State.classOf_of_issued s _ hi]
  case vacant => simp [Thread.count_rotVacant _ born, State.classOf_of_not_live s _ hi hl]
  case issuedIff =>
    rw [← State.classOf_eq_issued_iff s ⟨n, i⟩ hl, Thread.turn_rotIssued, Thread.count_rotIssued _ born]
    simp
  case notVacant => simp [Thread.count_rotVacant _ born, State.classOf_ne_vacant s _ hl]
  case held => rw [Thread.turn_sq_eq_held_iff (by simpa using hm), Thread.count_holds, Thread.holds_iff hm]

end Sys2Proof.Machine
end

section
/-! Scalar floating point and vector moves: instructions on their own thread go on at the next instruction, and have the
shapes in which the statements on them (O4, O7) are written. -/

namespace Sys2Proof.Machine

/-! ## No register write moves the PC -/

namespace Thread

@[simp] theorem writeS_pc (th : Thread) (r : Nat) (w : Word) (avail : Nat) : (th.writeS r w avail).pc = th.pc := by
  simp only [writeS, apply_ite Thread.pc, ite_self]

@[simp] theorem writeCmp_pc (th : Thread) (d : Reg) (c : Bool) : (th.writeCmp d c).pc = th.pc := rfl
@[simp] theorem orFlags_pc (th : Thread) (fl : Nat) : (th.orFlags fl).pc = th.pc := rfl
@[simp] theorem setLanes_pc (th : Thread) (d : Nat) (m : Lane) (g : Nat → Lane) : (th.setLanes d m g).pc = th.pc := rfl

@[simp] theorem stepRng_pc (th : Thread) (field : Nat) : (th.stepRng field).pc = th.pc := by
  simp only [stepRng, apply_ite Thread.pc, ite_self]

end Thread

@[simp] theorem State.unwritten_pc (s : State) (d : Nat) (th : Thread) : (s.unwritten d th).pc = th.pc := by
  simp only [State.unwritten, apply_ite Thread.pc, Thread.writeS_pc, ite_self]

/-! ## Signs of floating-point words (R111) -/

theorem ofN_mod_two_pow (x : Word) {n : Nat} (h : n ≤ 64) : ofN (x.toNat % 2 ^ n) = x &&& ofN (2 ^ n - 1) := by
  have hn : 2 ^ n ≤ 2 ^ 64 := Nat.pow_le_pow_right (by decide) h
  have hm : (2 ^ n - 1) % 2 ^ 64 = 2 ^ n - 1 := Nat.mod_eq_of_lt (by have := Nat.two_pow_pos n; omega)
  apply BitVec.eq_of_toNat_eq
  have hx : x.toNat % 2 ^ n % 2 ^ 64 = x.toNat % 2 ^ n :=
    Nat.mod_eq_of_lt (Nat.lt_of_lt_of_le (Nat.mod_lt _ (Nat.two_pow_pos n)) hn)
  rw [BitVec.toNat_and, ofN, ofN, BitVec.toNat_ofNat, BitVec.toNat_ofNat, hm, hx, Nat.and_two_pow_sub_one_eq_mod]

end Sys2Proof.Machine

namespace Sys2Proof

open Machine

/-! ## Scalar shapes (R103, R110-R116) -/

theorem unary_of_unOp {c : Pred → Reg → Reg → Instr} {f g : Word → Word}
    (he : ∀ p d a s, exec (c p d a) s = unOp p d a s f) (hg : ∀ x, f x = g x) : Unary c g :=
  funext hg ▸ fun p d a => local_issueLocal (he p d a) fun _ _ => Thread.writeS_pc ..

/-- A floating-point form that writes s(d) and ORs its flags into fp.flags. -/
theorem local_of_fpOp {i : Instr} {p : Pred} {d : Reg} {rd : List Nat} {occ : Nat} {f : Thread → Nat × Nat}
    (he : ∀ s, exec i s = fpOp p d rd occ s f) :
    Local i { Meta.scalar rd [d.toNat] with occ := occ } p fun s th =>
      (th.orFlags (f th).2).writeS d.toNat (ofN (f th).1) s.beat :=
  local_issueLocal he fun _ _ => by simp only [Thread.writeS_pc, Thread.orFlags_pc]

section
variable {c : Pred → Reg → Reg → Reg → Instr} {fm : Fmt}

theorem floatBinary_of_fpOp {occ : Nat} {f : RMode → Bool → Nat → Nat → Nat × Nat}
    (he : ∀ p d a b s, exec (c p d a b) s = fpOp p d [a.toNat, b.toNat] occ s fun th =>
      f th.rm th.ftz (th.fpS fm a) (th.fpS fm b)) : FloatBinary c fm occ f :=
  fun p d a b => local_of_fpOp (he p d a b)

theorem floatUnary_of_fpOp {u : Pred → Reg → Reg → Instr} {occ : Nat} {f : RMode → Bool → Nat → Nat × Nat}
    (he : ∀ p d a s, exec (u p d a) s = fpOp p d [a.toNat] occ s fun th => f th.rm th.ftz (th.fpS fm a)) :
    FloatUnary u fm occ f :=
  fun p d a => local_of_fpOp (he p d a)

theorem floatFused_of_fpFused {sub : Bool} (he : ∀ p d a b s, exec (c p d a b) s = fpFused p fm sub d a b s) :
    FloatFused c fm sub :=
  fun p d a b => local_of_fpOp (he p d a b)

theorem floatCompares_of_fpCmpOp {k : FCond} (he : ∀ p d a b s, exec (c p d a b) s = fpCmpOp p fm k d a b s) :
    FloatCompares c fm k :=
  fun p d a b => local_issueLocal (he p d a b) fun _ _ => by simp only [Thread.writeCmp_pc, Thread.orFlags_pc]

theorem converts_of_cvtOp {f : RMode → Bool → Word → Nat × Nat}
    (he : ∀ p d a r s, exec (c p d a r) s = cvtOp p d a r s f) : Converts c f :=
  fun p d a r => local_issueLocal (he p d a r) fun _ _ => by
    simp only [Thread.writeS_pc, Thread.orFlags_pc, Thread.stepRng_pc]

end

/-- Settles O4: exec gives each form one of the scalar shapes, and the sign forms clear or flip the sign bit. -/
theorem scalarFloat : Obligations.ScalarFloat := by
  unfold Obligations.ScalarFloat
  refine ⟨⟨floatBinary_of_fpOp @exec_faddD, floatBinary_of_fpOp @exec_fsubD, floatBinary_of_fpOp @exec_fmulD,
    floatBinary_of_fpOp @exec_fdivD, floatUnary_of_fpOp @exec_fsqrtD, floatBinary_of_fpOp @exec_fminD,
    floatBinary_of_fpOp @exec_fmaxD, unary_of_unOp @exec_fabsD fun x => ofN_mod_two_pow x (by decide),
    unary_of_unOp @exec_fnegD fun _ => rfl,
    floatBinary_of_fpOp @exec_faddF, floatBinary_of_fpOp @exec_fsubF, floatBinary_of_fpOp @exec_fmulF,
    floatBinary_of_fpOp @exec_fdivF, floatUnary_of_fpOp @exec_fsqrtF, floatBinary_of_fpOp @exec_fminF,
    floatBinary_of_fpOp @exec_fmaxF, unary_of_unOp @exec_fabsF fun x => ofN_mod_two_pow x (by decide),
    unary_of_unOp @exec_fnegF fun x => congrArg (· ^^^ _) (ofN_mod_two_pow x (by decide)),
    floatFused_of_fpFused @exec_fmaD, floatFused_of_fpFused @exec_fmsD, floatFused_of_fpFused @exec_fmaF,
    floatFused_of_fpFused @exec_fmsF,
    floatCompares_of_fpCmpOp @exec_fcmpEqD, floatCompares_of_fpCmpOp @exec_fcmpLtD,
    floatCompares_of_fpCmpOp @exec_fcmpLeD, floatCompares_of_fpCmpOp @exec_fcmpUnD,
    floatCompares_of_fpCmpOp @exec_fcmpEqF, floatCompares_of_fpCmpOp @exec_fcmpLtF,
    floatCompares_of_fpCmpOp @exec_fcmpLeF, floatCompares_of_fpCmpOp @exec_fcmpUnF,
    unary_of_unOp @exec_fclassD fun _ => rfl, unary_of_unOp @exec_fclassF fun _ => rfl⟩,
    converts_of_cvtOp @exec_cvtFD, fun _ _ _ => local_of_fpOp exec_cvtDF,
    converts_of_cvtOp @exec_cvtDS64, converts_of_cvtOp @exec_cvtDZ64, converts_of_cvtOp @exec_cvtFS64,
    converts_of_cvtOp @exec_cvtFZ64, converts_of_cvtOp @exec_cvtS64D, converts_of_cvtOp @exec_cvtZ64D,
    converts_of_cvtOp @exec_cvtS64F, converts_of_cvtOp @exec_cvtZ64F⟩

/-! ## Vector shapes (R17, R141-R143) -/

theorem masked_of_vecOp {i : Instr} {m : Meta} {p : Pred} {f : State → Thread → Lane → Thread}
    (he : ∀ s, exec i s = vecOp p m s (f s)) (hpc : ∀ s th l, (f s th l).pc = th.pc) : Masked i m p f :=
  local_issueLocal he fun s th => hpc s th _

theorem reduces_of_vecRed {c : Pred → Reg → Reg → Instr} {ident : Nat} {sgn : Bool}
    {op : RMode → Bool → Nat → Nat → Nat × Nat}
    (he : ∀ p d a s, exec (c p d a) s = vecRed p d a ident sgn s fun th => op th.rm th.ftz) : Reduces c ident sgn op :=
  fun p d a => masked_of_vecOp (he p d a) fun _ _ _ => by
    simp only [Thread.writeS_pc, Thread.orFlags_pc]

/-- The first lane of a mask is the lowest one that it enables (R142). -/
theorem head?_lanesOf (m : Lane) : (lanesOf m).head? = (List.range 32).find? fun i => m.getLsbD i :=
  List.head?_filter

/-- V.ROT counts its rotation modulo 32 (R141). -/
theorem masked_vRot (p : Pred) (d a b : Reg) : Masked (.vRot p d a b) (.vec [d.toNat, a.toNat] [b.toNat] [] 1) p
    fun _ th m => th.setLanes d.toNat m fun i => th.readLane a.toNat ((i + (th.readS b.toNat).toNat) % 32) :=
  masked_of_vecOp (fun s => by simp only [exec_vRot, execVRot, Nat.add_mod_mod]) fun _ _ _ => Thread.setLanes_pc ..

/-- Settles O7: exec gives each form the shape of a vector instruction on its own thread; a rotation is counted modulo 32,
and V.FIRST takes the lowest lane of the mask. -/
theorem vectorMovesAndReductions : Obligations.VectorMovesAndReductions := by
  unfold Obligations.VectorMovesAndReductions
  refine ⟨fun p d a => masked_of_vecOp exec_vMov fun _ _ _ => Thread.setLanes_pc ..,
    fun p d a => masked_of_vecOp exec_vBcast fun _ _ _ => Thread.setLanes_pc ..,
    fun p d a b => masked_of_vecOp exec_vPerm fun _ _ _ => Thread.setLanes_pc ..,
    fun p d a => masked_of_vecOp exec_vRev fun _ _ _ => Thread.setLanes_pc .., masked_vRot,
    fun p d a b => masked_of_vecOp exec_vIns fun _ _ _ => Thread.setLanes_pc ..,
    fun p d a b => masked_of_vecOp exec_vExt fun s th m => ?ext,
    fun p d a => masked_of_vecOp (fun s => ?first) fun _ _ _ => Thread.writeS_pc ..,
    reduces_of_vecRed @exec_vRsumF, reduces_of_vecRed @exec_vRsumS32, reduces_of_vecRed @exec_vRminF,
    reduces_of_vecRed @exec_vRmaxF, reduces_of_vecRed @exec_vRminS32, reduces_of_vecRed @exec_vRmaxS32,
    reduces_of_vecRed @exec_vRand, reduces_of_vecRed @exec_vRbor, reduces_of_vecRed @exec_vRxor⟩
  case ext => simp only [apply_ite Thread.pc, Thread.writeS_pc, State.unwritten_pc, ite_self]
  case first =>
    rw [exec_vFirst, execVFirst]
    congr 1
    funext th m
    rw [← head?_lanesOf m]
    cases lanesOf m <;> rfl

end Sys2Proof
end

section
/-! Scalar integer instructions: what the bit counts and reversals compute, and the shapes of integer arithmetic and bit
operations (O1, O2). -/

namespace Sys2Proof.Machine

@[simp] theorem ofN_toNat (x : Word) : ofN x.toNat = x := by
  rw [ofN, BitVec.ofNat_toNat, BitVec.setWidth_eq]

/-! ## What the counts count (R106) -/

theorem leadingZeros_of_ne {n x : Nat} (h : x ≠ 0) : leadingZeros n x = n - 1 - x.log2 := if_neg h

theorem trailingZeros_zero (n : Nat) : trailingZeros n 0 = n := by
  induction n with
  | zero => rfl
  | succ n ih => simp [trailingZeros, ih, Nat.add_comm]

theorem testBit_of_lt_trailingZeros {n x i : Nat} (h : i < trailingZeros n x) : x.testBit i = false := by
  induction n generalizing x i with
  | zero => exact absurd h (Nat.not_lt_zero i)
  | succ n ih =>
    by_cases hx : x % 2 = 1
    · simp [trailingZeros, hx] at h
    · cases i with
      | zero => simp [Nat.testBit_zero, hx]
      | succ i =>
        rw [Nat.testBit_succ]
        rw [trailingZeros, if_neg hx] at h
        exact ih (by omega)

/-- The bit above the counted zeros is a one. -/
theorem testBit_trailingZeros {n x : Nat} (h0 : x ≠ 0) (hn : x < 2 ^ n) : x.testBit (trailingZeros n x) = true := by
  induction n generalizing x with
  | zero => omega
  | succ n ih =>
    by_cases hx : x % 2 = 1
    · simp [trailingZeros, hx]
    · rw [trailingZeros, if_neg hx, Nat.add_comm, Nat.testBit_succ]
      exact ih (by omega) (by omega)

theorem popCount_eq_length_filter (n x : Nat) : popCount n x = ((List.range n).filter fun i => x.testBit i).length := by
  induction n generalizing x with
  | zero => rfl
  | succ n ih =>
    have hs : (fun i => x.testBit i) ∘ Nat.succ = fun i => (x / 2).testBit i := funext fun i => Nat.testBit_succ x i
    have h0 : x.testBit 0 = decide (x % 2 = 1) := Nat.testBit_zero x
    rw [popCount, ih, List.range_succ_eq_map, List.filter_cons, List.filter_map, hs, h0]
    obtain h | h := Nat.mod_two_eq_zero_or_one x <;> simp [h, Nat.add_comm]

/-! ## What the reversals reverse (R106) -/

/-- The bits of x in reverse stand below those of acc. -/
theorem testBit_reverseBits (n x acc i : Nat) :
    (reverseBits n x acc).testBit i = if i < n then x.testBit (n - 1 - i) else acc.testBit (i - n) := by
  induction n generalizing x acc with
  | zero => rfl
  | succ n ih =>
    rw [reverseBits, ih]
    obtain h | rfl | h := Nat.lt_trichotomy i n
    · rw [if_pos h, if_pos (by omega), ← Nat.testBit_succ]
      congr 1; omega
    · have hx : (2 * acc + x % 2) % 2 = x % 2 := by omega
      rw [if_neg (Nat.lt_irrefl i), if_pos (Nat.lt_succ_self i), Nat.sub_self, Nat.add_sub_cancel, Nat.sub_self,
        Nat.testBit_zero, Nat.testBit_zero, hx]
    · have hi : i - n = i - (n + 1) + 1 := by omega
      rw [if_neg (by omega), if_neg (by omega), hi, Nat.testBit_succ]
      congr 1; omega

theorem getElem?_leBytes {n i : Nat} (x : Nat) (h : i < n) : (leBytes n x)[i]? = some (BitVec.ofNat 8 (x / 2 ^ (8 * i))) := by
  induction n generalizing x i with
  | zero => exact absurd h (Nat.not_lt_zero i)
  | succ n ih =>
    cases i with
    | zero => simp [leBytes]
    | succ i =>
      have e : 256 * 2 ^ (8 * i) = 2 ^ (8 * (i + 1)) := by rw [Nat.mul_succ, Nat.pow_add, Nat.mul_comm]
      rw [leBytes, List.getElem?_cons_succ, ih _ (Nat.lt_of_succ_lt_succ h), Nat.div_div_eq_div_mul, e]

/-- Byte i of a little-endian value (R4). -/
theorem ofLeBytes_div_mod (bs : List Byte) (i : Nat) : ofLeBytes bs / 2 ^ (8 * i) % 256 = ((bs[i]?).getD 0).toNat := by
  induction bs generalizing i with
  | nil => simp [ofLeBytes]
  | cons b bs ih =>
    have hb : b.toNat < 256 := b.isLt
    cases i with
    | zero => simp [ofLeBytes, hb]
    | succ i =>
      have e : 2 ^ (8 * (i + 1)) = 256 * 2 ^ (8 * i) := by rw [Nat.mul_succ, Nat.pow_add, Nat.mul_comm]
      have hd : (b.toNat + 256 * ofLeBytes bs) / 256 = ofLeBytes bs := by omega
      rw [ofLeBytes, e, ← Nat.div_div_eq_div_mul, hd, ih, List.getElem?_cons_succ]

theorem wbits_byte_ofN (x : Nat) {i : Nat} (h : i < 8) : wbits (ofN x) (8 * i + 7) (8 * i) = x / 2 ^ (8 * i) % 256 := by
  have e : 8 * i + 7 + 1 - 8 * i = 8 := by omega
  have hp : 2 ^ 64 = 2 ^ (8 * i) * (256 * 2 ^ (8 * (7 - i))) := by
    rw [show 256 = 2 ^ 8 from rfl, ← Nat.pow_add, ← Nat.pow_add]; congr 1; omega
  rw [wbits, bits, ofN, BitVec.toNat_ofNat, e, hp, Nat.mod_mul_right_div_self]
  exact Nat.mod_mul_right_mod ..

/-- Byte i of a word in reversed byte order. -/
theorem wbits_reverse_leBytes (x : Word) {i : Nat} (h : i < 8) :
    wbits (ofN (ofLeBytes (leBytes 8 x.toNat).reverse)) (8 * i + 7) (8 * i) = wbits x (8 * (7 - i) + 7) (8 * (7 - i)) := by
  have hr : (leBytes 8 x.toNat).reverse[i]? = some (BitVec.ofNat 8 (x.toNat / 2 ^ (8 * (7 - i)))) := by
    rw [List.getElem?_reverse (by rw [length_leBytes]; exact h), length_leBytes]
    exact getElem?_leBytes _ (by omega)
  have hx : x = ofN x.toNat := (ofN_toNat x).symm
  rw [wbits_byte_ofN _ h, ofLeBytes_div_mod, hr, hx, wbits_byte_ofN _ (by omega : 7 - i < 8), ← hx]
  exact BitVec.toNat_ofNat ..

/-! ## Extensions (R106) -/

theorem sext_toNat (n : Nat) (x : Word) : sext n x.toNat = (x.setWidth n).signExtend 64 := by
  rw [sext, BitVec.ofNat_toNat]

theorem ofN_mod_eq_setWidth (x : Word) (n : Nat) : ofN (x.toNat % 2 ^ n) = (x.setWidth n).setWidth 64 :=
  BitVec.eq_of_toNat_eq (by simp [ofN])

end Sys2Proof.Machine

namespace Sys2Proof

open Machine

/-! ## Scalar shapes (R104-R107) -/

theorem binary_of_binOp {c : Pred → Reg → Reg → Reg → Instr} {occ : Nat} {f g : Word → Word → Word}
    (he : ∀ p d a b s, exec (c p d a b) s = binOp p d a b occ s f) (hg : ∀ x y, f x y = g x y) : Binary c occ g :=
  funext (fun x => funext (hg x)) ▸ fun p d a b => local_issueLocal (he p d a b) fun _ _ => Thread.writeS_pc ..

/-- The instructions given by one equation, with no other spelling of their value. -/
theorem binary_of_exec {c : Pred → Reg → Reg → Reg → Instr} {occ : Nat} {f : Word → Word → Word}
    (he : ∀ p d a b s, exec (c p d a b) s = binOp p d a b occ s f) : Binary c occ f :=
  binary_of_binOp he fun _ _ => rfl

theorem unary_of_exec {c : Pred → Reg → Reg → Instr} {f : Word → Word}
    (he : ∀ p d a s, exec (c p d a) s = unOp p d a s f) : Unary c f :=
  unary_of_unOp he fun _ => rfl

/-- A choice by a signed compare is one by the order of the integers. -/
theorem ite_slt {α : Sort _} (x y : Word) (a b : α) : (if x.slt y then a else b) = if x.toInt < y.toInt then a else b := by
  simp only [BitVec.slt_iff_toInt_lt]

theorem ite_ult {α : Sort _} (x y : Word) (a b : α) : (if x.ult y then a else b) = if x.toNat < y.toNat then a else b := by
  simp only [BitVec.ult_iff_lt, BitVec.lt_def]

/-- Settles O1: exec gives each form the shape of a binary operation; a signed compare orders the integers, an unsigned one
the naturals, and the remainders are those of the truncating division. -/
theorem integerArithmetic : Obligations.IntegerArithmetic := by
  unfold Obligations.IntegerArithmetic
  refine ⟨binary_of_exec @exec_add, binary_of_exec @exec_sub, binary_of_exec @exec_and, binary_of_exec @exec_or,
    binary_of_exec @exec_xor, binary_of_exec @exec_andn, binary_of_exec @exec_shl, binary_of_exec @exec_shr,
    binary_of_exec @exec_sar, binary_of_exec @exec_ror,
    binary_of_binOp @exec_minS64 fun x y => ite_slt x y x y, binary_of_binOp @exec_minZ64 fun x y => ite_ult x y x y,
    binary_of_binOp @exec_maxS64 fun x y => ite_slt y x x y, binary_of_binOp @exec_maxZ64 fun x y => ite_ult y x x y,
    binary_of_exec @exec_addsS64, binary_of_exec @exec_subsS64,
    binary_of_exec @exec_mul, binary_of_exec @exec_mulhS64, binary_of_exec @exec_mulhZ64,
    binary_of_exec @exec_divS64, binary_of_binOp @exec_divZ64 fun x y => ?divZ,
    binary_of_binOp @exec_remS64 fun x y => ?remS, binary_of_binOp @exec_remZ64 fun x y => ?remZ⟩
  case divZ => rw [← BitVec.toNat_udiv, ofN_toNat]
  case remS => rw [← Int.tmod_def]
  case remZ => rw [← Nat.mod_eq_sub_mul_div, ← BitVec.toNat_umod, ofN_toNat]

/-- CLZ, CTZ, POPC, BREV and BSWAP compute what they are named for (R106). -/
theorem bitCounts (x : Word) :
    (∀ i, 64 - leadingZeros 64 x.toNat ≤ i → x.getLsbD i = false) ∧
    (x ≠ 0 → x.getLsbD (63 - leadingZeros 64 x.toNat) = true) ∧
    (∀ i, i < trailingZeros 64 x.toNat → x.getLsbD i = false) ∧
    (x ≠ 0 → x.getLsbD (trailingZeros 64 x.toNat) = true) ∧
    (x = 0 → leadingZeros 64 x.toNat = 64 ∧ trailingZeros 64 x.toNat = 64) ∧
    popCount 64 x.toNat = ((List.range 64).filter fun i => x.getLsbD i).length ∧
    (∀ i, i < 64 → (ofN (reverseBits 64 x.toNat 0)).getLsbD i = x.getLsbD (63 - i)) ∧
    ∀ i, i < 8 → wbits (ofN (ofLeBytes (leBytes 8 x.toNat).reverse)) (8 * i + 7) (8 * i) =
      wbits x (8 * (7 - i) + 7) (8 * (7 - i)) := by
  have hn : x ≠ 0 → x.toNat ≠ 0 := fun h e => h (BitVec.eq_of_toNat_eq e)
  have hlog : x ≠ 0 → x.toNat.log2 < 64 := fun h => (Nat.log2_lt (hn h)).2 x.isLt
  refine ⟨fun i h => ?above, fun h => ?highest, fun i h => testBit_of_lt_trailingZeros h,
    fun h => testBit_trailingZeros (hn h) x.isLt, ?zero, popCount_eq_length_filter 64 x.toNat, fun i h => ?brev,
    fun i => wbits_reverse_leBytes x⟩
  case above =>
    by_cases h0 : x = 0
    · simp [h0]
    · have hl := hlog h0
      rw [leadingZeros_of_ne (hn h0)] at h
      refine Nat.testBit_lt_two_pow (Nat.lt_of_lt_of_le Nat.lt_log2_self (Nat.pow_le_pow_right (by decide) ?_))
      omega
  case highest =>
    have hl := hlog h
    have e : 63 - (64 - 1 - x.toNat.log2) = x.toNat.log2 := by omega
    rw [leadingZeros_of_ne (hn h), e]
    exact Nat.testBit_log2 (hn h)
  case zero => rintro rfl; exact ⟨rfl, trailingZeros_zero 64⟩
  case brev =>
    rw [ofN, BitVec.getLsbD_ofNat, testBit_reverseBits, if_pos h, decide_eq_true h, Bool.true_and]
    rfl

/-- Settles O2: exec gives each form its scalar shape, and the extensions are those of the low bits. -/
theorem bitOperations : Obligations.BitOperations := by
  unfold Obligations.BitOperations
  exact ⟨bitCounts, unary_of_exec @exec_clz, unary_of_exec @exec_ctz, unary_of_exec @exec_popc, unary_of_exec @exec_brev,
    unary_of_exec @exec_bswap, unary_of_unOp @exec_extS8 (sext_toNat 8), unary_of_unOp @exec_extS16 (sext_toNat 16),
    unary_of_unOp @exec_extS32 (sext_toNat 32), unary_of_unOp @exec_extZ8 (ofN_mod_eq_setWidth · 8),
    unary_of_unOp @exec_extZ16 (ofN_mod_eq_setWidth · 16), unary_of_unOp @exec_extZ32 (ofN_mod_eq_setWidth · 32),
    binary_of_exec @exec_bfxZ, binary_of_exec @exec_bfxS,
    fun p d a b => local_issueLocal (exec_bfi (p := p) (d := d) (a := a) (b := b)) fun _ _ => Thread.writeS_pc ..⟩

end Sys2Proof
end

section
/-! Control transfers (R117-R119, O10): what the checks of a target answer, and the shape of an instruction that makes one. -/

namespace Sys2Proof

open Machine

/-! ## The checks of a target (R117, R118) -/

section
variable {th : Thread} {target : Word} (aligned : Bool) (s : State)

theorem transferTo_of_member (h : th.member = true) : transferTo th target aligned s = .jump s target := by
  simp only [transferTo, h, if_true]

variable (hm : th.member = false)
include hm

theorem transferTo_of_not_canonical (hc : canonical target = false) :
    transferTo th target aligned s = .trap .access target 0 := by
  simp [transferTo, hm, hc]

variable (hc : canonical target = true)
include hc

theorem transferTo_of_misaligned (ha : wbits target 1 0 ≠ 0) : transferTo th target true s = .trap .align target 0 := by
  simp [transferTo, hm, hc, ha]

theorem transferTo_of_ok (ha : aligned = true → wbits target 1 0 = 0) :
    transferTo th target aligned s = .jump s target := by
  cases aligned <;> simp_all [transferTo]

end

/-! ## Instructions that make a transfer -/

/-- What a transfer does: its effect on the state, and then, if it is taken, the transfer to its target. -/
def transferBody (taken : Thread → Bool) (aligned : Bool) (target : Thread → Word) (eff : State → Thread → State)
    (s : State) (th : Thread) : Res :=
  if taken th then transferTo th (target th) aligned (eff s th) else .done (eff s th)

/-- An instruction with that body, whose effect changes its own thread by f. -/
theorem transfers_of_transferBody {i : Instr} {m : Meta} {p : Pred} {taken : Thread → Bool} {aligned : Bool}
    {f : State → Thread → Thread} {target : Thread → Word} {eff : State → Thread → State}
    (he : ∀ s, exec i s = issue m p s (transferBody taken aligned target eff))
    (hf : ∀ s th, s.thread? s.cur = some th → ∀ g, (eff (begun m s th) (th.begin_ m.occ)).modThread s.cur g =
      (begun m s th).setThread s.cur (g (f s (th.begin_ m.occ))))
    (hpc : ∀ s th, (f s th).pc = th.pc) (hal : aligned = true → ∀ th, taken th = true) :
    Transfers i m p taken aligned f target := by
  have jump {s : State} {th : Thread} (h : Ready m p s th) (t : Word) :
      finish m s s.cur th (.jump (eff (begun m s th) (th.begin_ m.occ)) t) = (begun m s th).setThread s.cur
        { (f s (th.begin_ m.occ)).pop m th with pc := if th.member then nextPc (th.begin_ m.occ).pc else t } := by
    have hs := State.slot_lt_of_thread? h.here
    simp only [finish, State.transfer, hf s th h.here]
    split <;> rw [State.modThread_setThread_self hs]
    rw [pop_pc, hpc]
  refine ⟨localTo_of_setThread (body := fun _ => transferBody taken aligned target eff) he ?taken,
    localTo_of_setThread (body := fun _ => transferBody taken aligned target eff) he ?next,
    traps_of_trap (body := fun _ => transferBody taken aligned target eff) he ?access,
    fun ha => traps_of_trap (body := fun _ => transferBody taken aligned target eff) he ?align⟩
  case taken =>
    rintro s th h ⟨hm, ht, hc, ha⟩
    have hm' : th.member = false := hm
    rw [transferBody, if_pos ht, transferTo_of_ok _ _ hm hc ha, jump h, hm']; rfl
  case next =>
    intro s th h hn
    rw [transferBody]
    split
    next ht =>
      have hm : (th.begin_ m.occ).member = true := hn.resolve_right (by rw [ht]; decide)
      have hm' : th.member = true := hm
      rw [transferTo_of_member _ _ hm, jump h, hm']; rfl
    next =>
      simp only [finish, hf s th h.here, hpc]
  case access =>
    rintro s th h ⟨hm, ht, hc⟩
    rw [transferBody, if_pos ht, transferTo_of_not_canonical _ _ hm hc]
  case align =>
    rintro s th h ⟨hm, hc, hw⟩
    rw [transferBody, if_pos (hal ha _), ha, transferTo_of_misaligned _ hm hc hw]

/-- One that writes no register. -/
theorem transfers_of_branch {i : Instr} {m : Meta} {p : Pred} {taken : Thread → Bool} {aligned : Bool} {target : Thread → Word}
    (he : ∀ s, exec i s = issue m p s (transferBody taken aligned target fun s1 _ => s1))
    (hal : aligned = true → ∀ th, taken th = true) : Transfers i m p taken aligned (fun _ th => th) target :=
  transfers_of_transferBody he (fun _ _ h g => begun_modThread h g) (fun _ _ => rfl) hal

/-- One that writes s(d): a link register, or a count (R119). -/
theorem transfers_of_link {i : Instr} {m : Meta} {p : Pred} {taken : Thread → Bool} {aligned : Bool} {target : Thread → Word}
    {d : Nat} {val : Thread → Word}
    (he : ∀ s, exec i s = issue m p s (transferBody taken aligned target fun s1 th =>
      s1.modThread s1.cur fun x => x.writeS d (val th) s1.beat))
    (hal : aligned = true → ∀ th, taken th = true) :
    Transfers i m p taken aligned (fun s th => th.writeS d (val th) s.beat) target := by
  refine transfers_of_transferBody he (fun s th h g => ?_) (fun _ _ => Thread.writeS_pc ..) hal
  rw [begun_cur, begun_beat, begun_modThread h, State.modThread_setThread_self (State.slot_lt_of_thread? h)]

/-- Settles O10: each transfer has the shape of its link or count write and its condition; the checks of the target are those
of transferTo. -/
theorem controlTransfers : Obligations.ControlTransfers := by
  unfold Obligations.ControlTransfers
  refine ⟨fun p i => transfers_of_branch exec_br fun _ _ => rfl, fun p i => transfers_of_link exec_call fun _ _ => rfl,
    fun p a => transfers_of_branch exec_jmp fun _ _ => rfl, fun p d a => transfers_of_link exec_callr fun _ _ => rfl,
    fun p d i => transfers_of_link (fun s => (exec_loop s).trans ?loop) nofun,
    fun p g i => transfers_of_branch (fun s => (exec_bany s).trans ?bany) nofun,
    fun p g i => transfers_of_branch (fun s => (exec_ball s).trans ?ball) nofun⟩
  case loop =>
    refine congrArg (issue _ p s) (funext fun s1 => funext fun th => ?_)
    simp only [transferBody, bne_iff_ne, ne_eq, ite_not]; rfl
  case bany =>
    refine congrArg (issue _ p s) (funext fun s1 => funext fun th => ?_)
    simp only [transferBody, bne_iff_ne, ne_eq, ite_not]; rfl
  case ball =>
    refine congrArg (issue _ p s) (funext fun s1 => funext fun th => ?_)
    simp only [transferBody, beq_iff_eq]; rfl

end Sys2Proof
end

section
/-! TLBW (R128, R281-R284, O39): what its operations do to a translation unit and to the micro-TLBs it serves, and what the
instruction answers by the OP of its target. -/

namespace Sys2Proof.Machine

/-! ## Micro-TLBs and translation units (R282) -/

theorem lookupD_map {α : Type} (f : Nat → α → α) (l : List (Nat × α)) (k : Nat) (d : α) (h : f k d = d) :
    lookupD (l.map fun p => (p.1, f p.1 p.2)) k d = f k (lookupD l k d) := by
  induction l with
  | nil => exact h.symm
  | cons p r ih =>
    rw [List.map_cons, lookupD_cons, ih, show p :: r = (p.1, p.2) :: r from rfl, lookupD_cons]
    split
    next e => rw [e]
    next => rfl

/-- Core n after the entries of the target's range have left unit u: its micro-TLB holds none of them if the unit serves it. -/
def Core.dropEntries (u : Nat) (g : TlbTarget) (n : Nat) (c : Core) : Core :=
  if unitOf n = u then { c with utlb := c.utlb.filter fun e => !g.overlaps e } else c

@[simp] theorem Core.dropEntries_slots (u : Nat) (g : TlbTarget) (n : Nat) (c : Core) :
    (c.dropEntries u g n).slots = c.slots := by
  unfold dropEntries; split <;> rfl

theorem Core.dropEntries_utlb {u n : Nat} (g : TlbTarget) (c : Core) (h : unitOf n = u) :
    (c.dropEntries u g n).utlb = c.utlb.filter fun e => !g.overlaps e := by
  rw [dropEntries, if_pos h]

namespace State

@[simp] theorem unit_modUnit_self (s : State) (u : Nat) (f : XlatUnit → XlatUnit) : (s.modUnit u f).unit u = f (s.unit u) :=
  lookupD_insertKey_self ..

theorem core_removeEntries (s : State) (u : Nat) (g : TlbTarget) (n : Nat) :
    (s.removeEntries u g).core n = (s.core n).dropEntries u g n := by
  have hm : (s.removeEntries u g).cores = s.cores.map fun p => (p.1, Core.dropEntries u g p.1 p.2) := by
    refine List.map_congr_left fun p _ => ?_
    unfold Core.dropEntries; split <;> rfl
  rw [core, hm, lookupD_map]
  · rfl
  · unfold Core.dropEntries; split <;> rfl

@[simp] theorem unit_removeEntries (s : State) (u : Nat) (g : TlbTarget) :
    (s.removeEntries u g).unit u = { s.unit u with tlb := (s.unit u).tlb.filter fun e => !g.overlaps e } :=
  unit_modUnit_self s u fun x => { x with tlb := x.tlb.filter fun e => !g.overlaps e }

@[simp] theorem thread?_modUnit (s : State) (u : Nat) (f : XlatUnit → XlatUnit) (r : ThreadRef) :
    (s.modUnit u f).thread? r = s.thread? r := rfl

@[simp] theorem thread?_removeEntries (s : State) (u : Nat) (g : TlbTarget) (r : ThreadRef) :
    (s.removeEntries u g).thread? r = s.thread? r := by
  simp only [thread?, slot, core_removeEntries, Core.dropEntries_slots]

theorem unit_tlbWrite (s : State) (u : Nat) (g : TlbTarget) (e : TlbEntry) : (s.tlbWrite u g e).unit u =
    { tlb := e :: ((s.unit u).tlb.filter fun x => !g.overlaps x).take 4095
      misses := (s.unit u).misses.filter fun m => !(m.failed.isNone && m.ctx == g.ctx && g.within (m.vpn * 2 ^ 16)) } := by
  rw [tlbWrite, unit_modUnit_self, unit_removeEntries]

theorem unit_tlbFail (s : State) (u : Nat) (g : TlbTarget) (c : Cause) : (s.tlbFail u g c).unit u =
    { s.unit u with
      misses := ((s.unit u).misses.map (Miss.failFor g c)).filter fun m => m.failed.isNone || !m.waiters.isEmpty } := by
  rw [tlbFail, unit_modUnit_self]

@[simp] theorem thread?_tlbWrite (s : State) (u : Nat) (g : TlbTarget) (e : TlbEntry) (r : ThreadRef) :
    (s.tlbWrite u g e).thread? r = s.thread? r := by
  rw [tlbWrite, thread?_modUnit, thread?_removeEntries]

end State

/-- A miss of the target's page has failed once the page's misses are failed. -/
theorem Miss.failFor_failed {g : TlbTarget} {c : Cause} {m : Miss} (hc : (m.failFor g c).ctx = g.ctx)
    (hp : (m.failFor g c).vpn = g.va / 2 ^ 16) : (m.failFor g c).failed ≠ none := by
  unfold failFor at hc hp ⊢
  split
  next => exact nofun
  next h =>
    rw [if_neg h] at hc hp
    intro hn
    exact h (by simp [hn, hc, hp])

/-! ## A popped port word (R64) -/

/-- All that a pop changes of a thread: its inbound queue and ITAG (R64). -/
theorem Thread.pop_eq (th : Thread) (m : Meta) (was : Thread) :
    ∃ q tag, th.pop m was = { th with inq := q, portTag := tag } := by
  simp only [pop]; split
  · split
    · exact ⟨_, _, rfl⟩
    · exact ⟨_, _, rfl⟩
  · exact ⟨_, _, rfl⟩

@[simp] theorem Thread.pop_s (th : Thread) (m : Meta) (was : Thread) : (th.pop m was).s = th.s := by
  obtain ⟨q, tag, e⟩ := th.pop_eq m was; rw [e]

@[simp] theorem Thread.pop_rng (th : Thread) (m : Meta) (was : Thread) : (th.pop m was).rng = th.rng := by
  obtain ⟨q, tag, e⟩ := th.pop_eq m was; rw [e]

@[simp] theorem Thread.pop_portCfg (th : Thread) (m : Meta) (was : Thread) : (th.pop m was).portCfg = th.portCfg := by
  obtain ⟨q, tag, e⟩ := th.pop_eq m was; rw [e]

end Sys2Proof.Machine

namespace Sys2Proof

open Machine

/-! ## The state an instruction retires in -/

/-- An instruction whose effect leaves its own thread as it is gives what holds of every state with the parts of the effect's
and of every thread that goes on at the next instruction with the same registers. -/
theorem gives_of_runs {i : Instr} {m : Meta} {p : Pred} {pre : State → Thread → Prop} {eff : State → Thread → State}
    {post : State → Thread → State → Thread → Prop} (h : Runs i m p pre eff)
    (hcur : ∀ b z, (eff b z).cur = b.cur) (hthread : ∀ b z, (eff b z).thread? b.cur = b.thread? b.cur)
    (hpost : ∀ b z t w, pre b z → MemoryKept (eff b z) t → (∀ n, t.unit n = (eff b z).unit n) →
      (∀ n, (t.core n).still = ((eff b z).core n).still) → w.pc = nextPc z.pc → w.s = z.s → post b z t w) :
    Gives i m p pre post := by
  refine ⟨h.1, fun s th hr hp => ?_⟩
  have hc : (eff (begun m s th) (th.begin_ m.occ)).cur = s.cur := (hcur _ _).trans (begun_cur m s th)
  have ht : (eff (begun m s th) (th.begin_ m.occ)).thread? s.cur = some (th.begin_ m.occ) := by
    rw [← begun_cur m s th, hthread, begun_cur, begun_thread? hr.here]
  have hrest := State.modThread_eq (eff (begun m s th) (th.begin_ m.occ)) s.cur fun y => { y.pop m th with pc := nextPc y.pc }
  refine ⟨_, _, h.2 s th hr hp, State.thread?_modThread_self ht _, hpost _ _ _ _ hp ?_ (fun n => ?_) ?_ rfl ?_⟩
  · rw [retired, hrest]; exact ⟨rfl, rfl, rfl⟩
  · rw [retired, hrest]; rfl
  · rw [retired, ← hc]; exact (Elsewhere.modThread_cur ..).core
  · exact Thread.pop_s ..

theorem runs_congr {i : Instr} {m : Meta} {p : Pred} {pre pre' : State → Thread → Prop} {eff eff' : State → Thread → State}
    (h : Runs i m p pre eff) (hp : ∀ b z, pre' b z → pre b z ∧ eff b z = eff' b z) : Runs i m p pre' eff' :=
  ⟨h.1, fun s th hr hp' => (hp _ _ hp').2 ▸ h.2 s th hr (hp _ _ hp').1⟩

/-! ## TLBW by its operation (R281, R282) -/

section
variable {a b : Reg}

/-- The encoding of TLBW: s(A) and s(B), control privilege. -/
def tlbwMeta (a b : Reg) : Meta := { Meta.scalar [a.toNat, b.toNat] [] with priv := true }

/-- The target of a TLBW that a thread executes. -/
def tlbwTarget (a : Reg) (z : Thread) : TlbTarget := tlbTarget (z.readS a.toNat)

/-- The entry that OP 0 writes. -/
def tlbwEntry (a b : Reg) (z : Thread) : TlbEntry := tlbEntry (tlbwTarget a z) (z.readS b.toNat)

/-- The target and the entry are valid for the core (R282). -/
def tlbwValid (a b : Reg) (s : State) (z : Thread) : Prop :=
  tlbInvalid (roleOf s.cur.core) (z.readS a.toNat) (z.readS b.toNat) = false

/-- OP 1 or OP 3: entries are removed. -/
def tlbwRemoves (a : Reg) (z : Thread) : Prop := (tlbwTarget a z).op = 1 ∨ (tlbwTarget a z).op = 3

/-- The units that the thread's core acts on by its OP. -/
def tlbwUnits (a : Reg) (s : State) (z : Thread) : List Nat := tlbUnits s.cur.core (tlbwTarget a z).op

/-- The thread waits for older accesses: OP 1 or OP 3 has begun. -/
def removalBegun (s : State) : Bool :=
  match s.thread? s.cur with | some t => t.wait.map Wait.kind == some .older | none => false

/-- What TLBW answers, s being the state in which its thread meets it and s1 the one in which it has begun. -/
def tlbwBody (a b : Reg) (s s1 : State) (z : Thread) : Res :=
  if tlbInvalid (roleOf s1.cur.core) (z.readS a.toNat) (z.readS b.toNat) then .trap .access (z.readS a.toNat) 0x100
  else match (tlbwTarget a z).op with
  | 0 =>
    if s1.movesPinned (unitOf s1.cur.core) (tlbwTarget a z) (tlbwEntry a b z) then .trap .access (z.readS a.toNat) 0x200
    else .done (s1.tlbWrite (unitOf s1.cur.core) (tlbwTarget a z) (tlbwEntry a b z))
  | 2 => .done (s1.tlbFail (unitOf s1.cur.core) (tlbwTarget a z) (if z.readS b.toNat = 3 then .access else .unmapped))
  | _ =>
    if !removalBegun s && s1.pinnedIn (tlbwTarget a z) then .trap .access (z.readS a.toNat) 0x200
    else if s1.usesRange (tlbwUnits a s1 z) (tlbwTarget a z) then
      .hold (((tlbwUnits a s1 z).foldl (fun t u => t.removeEntries u (tlbwTarget a z)) s).await s.cur .older)
    else .done ((tlbwUnits a s1 z).foldl (fun t u => t.removeEntries u (tlbwTarget a z)) s1)

theorem tlbwForm_eq (p : Pred) (s : State) : tlbwForm p a b s = issue (tlbwMeta a b) p s (tlbwBody a b s) := rfl

section
variable {s s1 : State} {z : Thread}

theorem tlbwBody_of_invalid (h : ¬tlbwValid a b s1 z) : tlbwBody a b s s1 z = .trap .access (z.readS a.toNat) 0x100 :=
  if_pos (Bool.not_eq_false _ ▸ h)

variable (h : tlbwValid a b s1 z)
include h

theorem tlbwBody_of_write (hop : (tlbwTarget a z).op = 0) : tlbwBody a b s s1 z =
    if s1.movesPinned (unitOf s1.cur.core) (tlbwTarget a z) (tlbwEntry a b z) then .trap .access (z.readS a.toNat) 0x200
    else .done (s1.tlbWrite (unitOf s1.cur.core) (tlbwTarget a z) (tlbwEntry a b z)) := by
  rw [tlbwBody, if_neg (Bool.not_eq_true _ ▸ h), hop]; rfl

theorem tlbwBody_of_fail (hop : (tlbwTarget a z).op = 2) : tlbwBody a b s s1 z =
    .done (s1.tlbFail (unitOf s1.cur.core) (tlbwTarget a z) (if z.readS b.toNat = 3 then .access else .unmapped)) := by
  rw [tlbwBody, if_neg (Bool.not_eq_true _ ▸ h), hop]; rfl

theorem tlbwBody_of_removes (hop : tlbwRemoves a z) : tlbwBody a b s s1 z =
    if !removalBegun s && s1.pinnedIn (tlbwTarget a z) then .trap .access (z.readS a.toNat) 0x200
    else if s1.usesRange (tlbwUnits a s1 z) (tlbwTarget a z) then
      .hold (((tlbwUnits a s1 z).foldl (fun t u => t.removeEntries u (tlbwTarget a z)) s).await s.cur .older)
    else .done ((tlbwUnits a s1 z).foldl (fun t u => t.removeEntries u (tlbwTarget a z)) s1) := by
  rw [tlbwBody, if_neg (Bool.not_eq_true _ ▸ h)]
  obtain hop | hop := hop <;> rw [hop] <;> rfl

end

section
variable {i : Instr} {p : Pred} (he : ∀ s, exec i s = tlbwForm p a b s)
include he

theorem tlbw_traps_of_invalid :
    Traps i (tlbwMeta a b) p (fun s z => ¬tlbwValid a b s z) .access (fun z => z.readS a.toNat) fun _ => 0x100 :=
  traps_of_trap he fun _ _ _ hv => tlbwBody_of_invalid hv

theorem tlbw_traps_of_movesPinned :
    Traps i (tlbwMeta a b) p (fun s z => tlbwValid a b s z ∧ (tlbwTarget a z).op = 0 ∧
      s.movesPinned (unitOf s.cur.core) (tlbwTarget a z) (tlbwEntry a b z) = true) .access (fun z => z.readS a.toNat)
      fun _ => 0x200 :=
  traps_of_trap he fun _ _ _ ⟨hv, hop, hm⟩ => (tlbwBody_of_write hv hop).trans (if_pos hm)

theorem tlbw_runs_write :
    Runs i (tlbwMeta a b) p (fun s z => tlbwValid a b s z ∧ (tlbwTarget a z).op = 0 ∧
      s.movesPinned (unitOf s.cur.core) (tlbwTarget a z) (tlbwEntry a b z) = false)
      fun s z => s.tlbWrite (unitOf s.cur.core) (tlbwTarget a z) (tlbwEntry a b z) :=
  runs_of_done he fun _ _ _ ⟨hv, hop, hm⟩ => (tlbwBody_of_write hv hop).trans (if_neg (by rw [hm]; decide))

theorem tlbw_runs_fail :
    Runs i (tlbwMeta a b) p (fun s z => tlbwValid a b s z ∧ (tlbwTarget a z).op = 2)
      fun s z => s.tlbFail (unitOf s.cur.core) (tlbwTarget a z) (if z.readS b.toNat = 3 then .access else .unmapped) :=
  runs_of_done he fun _ _ _ ⟨hv, hop⟩ => tlbwBody_of_fail hv hop

theorem tlbw_runs_remove :
    Runs i (tlbwMeta a b) p (fun s z => tlbwValid a b s z ∧ tlbwRemoves a z ∧ s.pinnedIn (tlbwTarget a z) = false ∧
        s.usesRange (tlbwUnits a s z) (tlbwTarget a z) = false)
      fun s z => (tlbwUnits a s z).foldl (fun t u => t.removeEntries u (tlbwTarget a z)) s :=
  runs_of_done he fun _ _ _ ⟨hv, hop, hp, hu⟩ => (tlbwBody_of_removes hv hop).trans (by simp [hp, hu])

variable {s : State} {th : Thread} (hr : Ready (tlbwMeta a b) p s th)
  (hv : tlbwValid a b (begun (tlbwMeta a b) s th) (th.begin_ 1)) (hop : tlbwRemoves a (th.begin_ 1))
include hr hv hop

/-- While the units' threads still use the range, the entries are gone and the thread waits. -/
theorem tlbw_waits_of_used (hp : (begun (tlbwMeta a b) s th).pinnedIn (tlbwTarget a (th.begin_ 1)) = false)
    (hu : (begun (tlbwMeta a b) s th).usesRange (tlbwUnits a s (th.begin_ 1)) (tlbwTarget a (th.begin_ 1)) = true) :
    exec i s = .next (((tlbwUnits a s (th.begin_ 1)).foldl (fun t u => t.removeEntries u (tlbwTarget a (th.begin_ 1))) s).await
      s.cur .older) := by
  have hc : tlbwUnits a (begun (tlbwMeta a b) s th) (th.begin_ 1) = tlbwUnits a s (th.begin_ 1) := by
    rw [tlbwUnits, begun_cur]; rfl
  rw [he, tlbwForm_eq, issue_of_ready hr, show (tlbwMeta a b).occ = 1 from rfl, tlbwBody_of_removes hv hop, hc]
  simp [hp, hu, finish]

theorem tlbw_trap_of_pinned (hw : th.wait = none)
    (hp : (begun (tlbwMeta a b) s th).pinnedIn (tlbwTarget a (th.begin_ 1)) = true) :
    exec i s = .next ((s.forgetFailures s.cur).raise s.cur .access ((th.begin_ 1).readS a.toNat) 0x200 th.ipc) := by
  have hb : removalBegun s = false := by simp [removalBegun, hr.here, hw]
  rw [he, tlbwForm_eq, issue_of_ready hr, show (tlbwMeta a b).occ = 1 from rfl, tlbwBody_of_removes hv hop]
  simp [hp, hb, finish]

end

/-! ## What TLBW leaves in the translation unit (R282) -/

section
variable {i : Instr} {p : Pred} (he : ∀ s, exec i s = tlbwForm p a b s)
include he

theorem tlbw_gives_write :
    Gives i (tlbwMeta a b) p (fun s z => tlbwValid a b s z ∧ (tlbwTarget a z).op = 0 ∧
        s.movesPinned (unitOf s.cur.core) (tlbwTarget a z) (tlbwEntry a b z) = false)
      fun s z t w => MemoryKept s t ∧ w.pc = nextPc z.pc ∧ w.s = z.s ∧
        (t.unit (unitOf s.cur.core)).tlb.head? = some (tlbwEntry a b z) ∧
        (∀ e ∈ (t.unit (unitOf s.cur.core)).tlb.tail,
          e ∈ (s.unit (unitOf s.cur.core)).tlb ∧ (tlbwTarget a z).overlaps e = false) ∧
        ∀ q, q ∈ (t.unit (unitOf s.cur.core)).misses ↔ q ∈ (s.unit (unitOf s.cur.core)).misses ∧
          ¬(q.failed = none ∧ q.ctx = (tlbwTarget a z).ctx ∧ (tlbwTarget a z).within (q.vpn * 2 ^ 16) = true) := by
  refine gives_of_runs (tlbw_runs_write he) (fun _ _ => rfl) (fun _ _ => State.thread?_tlbWrite ..) ?_
  intro s z t w _ hmem hunit _ hpc hs
  have hu := (hunit (unitOf s.cur.core)).trans (State.unit_tlbWrite s ..)
  rw [hu]
  refine ⟨hmem, hpc, hs, rfl, fun e h => ?_, fun q => ?_⟩
  · simpa using List.mem_of_mem_take h
  · rw [List.mem_filter]
    refine and_congr_right fun _ => ?_
    cases q.failed <;> simp [Decidable.imp_iff_not_or]

theorem tlbw_gives_fail :
    Gives i (tlbwMeta a b) p (fun s z => tlbwValid a b s z ∧ (tlbwTarget a z).op = 2)
      fun s z t w => MemoryKept s t ∧ w.pc = nextPc z.pc ∧ w.s = z.s ∧
        (t.unit (unitOf s.cur.core)).tlb = (s.unit (unitOf s.cur.core)).tlb ∧
        ∀ q ∈ (t.unit (unitOf s.cur.core)).misses, q.ctx = (tlbwTarget a z).ctx → q.vpn = (tlbwTarget a z).va / 2 ^ 16 →
          q.failed ≠ none := by
  refine gives_of_runs (tlbw_runs_fail he) (fun _ _ => rfl) (fun _ _ => State.thread?_modUnit ..) ?_
  intro s z t w _ hmem hunit _ hpc hs
  have hu := (hunit (unitOf s.cur.core)).trans (State.unit_tlbFail s ..)
  rw [hu]
  refine ⟨hmem, hpc, hs, rfl, fun q h => ?_⟩
  obtain ⟨m, _, rfl⟩ := List.mem_map.1 (List.mem_filter.1 h).1
  exact Miss.failFor_failed

/-- A core that is no die control core acts on its own unit alone. -/
theorem tlbw_runs_removeOwn :
    Runs i (tlbwMeta a b) p (fun s z => tlbwValid a b s z ∧ tlbwRemoves a z ∧ s.pinnedIn (tlbwTarget a z) = false ∧
        roleOf s.cur.core ≠ .dieCtl ∧ s.usesRange [unitOf s.cur.core] (tlbwTarget a z) = false)
      fun s z => s.removeEntries (unitOf s.cur.core) (tlbwTarget a z) := by
  refine runs_congr (tlbw_runs_remove he) fun s z ⟨hv, hop, hp, hd, hu⟩ => ?_
  have hus : tlbwUnits a s z = [unitOf s.cur.core] := if_neg fun h => hd h.1
  rw [hus]; exact ⟨⟨hv, hop, hp, hu⟩, rfl⟩

theorem tlbw_gives_remove :
    Gives i (tlbwMeta a b) p (fun s z => tlbwValid a b s z ∧ tlbwRemoves a z ∧ s.pinnedIn (tlbwTarget a z) = false ∧
        roleOf s.cur.core ≠ .dieCtl ∧ s.usesRange [unitOf s.cur.core] (tlbwTarget a z) = false)
      fun s z t w => MemoryKept s t ∧ w.pc = nextPc z.pc ∧ w.s = z.s ∧
        (t.unit (unitOf s.cur.core)).tlb =
          (s.unit (unitOf s.cur.core)).tlb.filter (fun e => !(tlbwTarget a z).overlaps e) ∧
        ∀ n, unitOf n = unitOf s.cur.core → ∀ e ∈ (t.core n).utlb, (tlbwTarget a z).overlaps e = false := by
  refine gives_of_runs (tlbw_runs_removeOwn he) (fun _ _ => rfl) (fun _ _ => State.thread?_removeEntries ..) ?_
  intro s z t w _ hmem hunit hstill hpc hs
  have hu := (hunit (unitOf s.cur.core)).trans (State.unit_removeEntries s ..)
  refine ⟨hmem, hpc, hs, by rw [hu], fun n hn e h => ?_⟩
  have hc : (t.core n).utlb = ((s.removeEntries (unitOf s.cur.core) (tlbwTarget a z)).core n).utlb :=
    (congrArg Core.utlb (hstill n) :)
  rw [hc, State.core_removeEntries, Core.dropEntries_utlb _ _ hn] at h
  simpa using (List.mem_filter.1 h).2

end
end

/-- Settles O39: each clause is what tlbwBody answers by the OP of the target, on the unit's second level, its misses and the
micro-TLBs that it serves. -/
theorem translationWrites : Obligations.TranslationWrites := by
  unfold Obligations.TranslationWrites
  intro p a b m x y u valid op g inPage tlbw
  have h (i : Instr) (he : ∀ s, exec i s = tlbwForm p a b s) : tlbw i :=
    ⟨tlbw_traps_of_invalid he, tlbw_traps_of_movesPinned he, tlbw_gives_write he, tlbw_gives_fail he, tlbw_gives_remove he,
      tlbw_runs_remove he, fun s th hr hv hop => tlbw_waits_of_used he hr hv hop,
      fun s th hr hw hv hop => tlbw_trap_of_pinned he hr hv hop hw⟩
  exact ⟨h _ exec_tlbwWriteEntry, h _ exec_tlbwInvalidatePage, h _ exec_tlbwFailMiss, h _ exec_tlbwInvalidateContext⟩

end Sys2Proof
end

section
/-! Rows that name one effect of an MTS or MFS (R120, R179, R182, R334, O41): each takes place as that instruction's own step. -/

namespace Sys2Proof.Machine

/-- A register that is no port and not s0 reads what was written last (R63). -/
theorem Thread.readS_writeS_self {th : Thread} {r : Nat} (w : Word) (avail : Nat) (h0 : r ≠ 0) (h30 : r ≠ 30) (h31 : r ≠ 31)
    (h : r < 32) : (th.writeS r w avail).readS r = w := by
  simp [readS, writeS, h0, h30, h31, h]

/-- A pop changes no register but the port's. -/
theorem Thread.readS_pop {th : Thread} (m : Meta) (was : Thread) {r : Nat} (h : r ≠ 30) : (th.pop m was).readS r = th.readS r := by
  obtain ⟨q, tag, e⟩ := th.pop_eq m was
  rw [e]
  simp only [readS, h, outEn, false_and, if_false]; rfl

namespace State

/-- The state in which the slot of r executes the word w in its cycle. -/
def inCycle (s : State) (r : ThreadRef) (w : BitVec 32) : State := { s.turnTo r with cur := r, ir := w }

@[simp] theorem die_modDie_self (s : State) (n : Nat) (f : Die → Die) : (s.modDie n f).die n = f (s.die n) :=
  lookupD_insertKey_self ..

theorem die_modThread (s : State) (r : ThreadRef) (f : Thread → Thread) (n : Nat) : (s.modThread r f).die n = s.die n := by
  rw [modThread_eq]; rfl

theorem atSreg_lt {s : State} {r : ThreadRef} {maj n d : Nat} (h : s.atSreg r maj n = some d) : d < 32 := by
  simp only [atSreg] at h
  split at h
  · split at h
    · cases h; exact Nat.mod_lt _ (by decide)
    · cases h
  · cases h

theorem slot_modThread_bare (s : State) (r q : ThreadRef) (f : Thread → Thread) :
    ((s.modThread r f).slot q).bare = (s.slot q).bare := by
  simp only [modThread]
  split
  · by_cases h : q = r
    · subst h
      by_cases h8 : q.slot < 8
      · rw [setThread, slot_modSlot_self _ _ h8]; rfl
      · rw [slot_of_ge _ (by omega), slot_of_ge _ (by omega)]
    · rw [setThread, slot_modSlot_ne _ _ h]
  · rfl

end State

end Sys2Proof.Machine

namespace Sys2Proof

open Machine

/-! ## The step of an MTS or MFS (R120, R155) -/

section
variable {s : State} {r : ThreadRef} {th : Thread} {w : BitVec 32} {d : Nat} {v : Word} {n : BitVec 15}

/-- An MTS row whose instruction is the thread's next, in its slot's cycle, runs that instruction. -/
theorem mtsRow_of_atSreg (hth : s.thread? r = some th) (hw : s.fetchFor r = .word w) (ht : s.inTurn r = true)
    (hd : s.atSreg r 0x21 n.toNat = some d) (hv : th.readS d = v) :
    mtsRow r n.toNat v s = execMts .always (.ofNat 5 d) n (s.inCycle r w) := by
  simp only [mtsRow, hd, hth, hw, hv, ht, and_self, if_true, BitVec.ofNat_toNat, BitVec.setWidth_eq]; rfl

/-- It ends as the write to the register does. -/
theorem mtsRow_of_done (hth : s.thread? r = some th) (hw : s.fetchFor r = .word w) (ht : s.inTurn r = true)
    (hd : s.atSreg r 0x21 n.toNat = some d ∧ th.readS d = v ∧ Ready (mtsMeta (.ofNat 5 d) n) .always (s.inCycle r w) th)
    {x : State}
    (hx : (begun (mtsMeta (.ofNat 5 d) n) (s.inCycle r w) th).writeSreg r (th.begin_ 1) n.toNat v = .done x) :
    mtsRow r n.toNat v s = .next (retired (mtsMeta (.ofNat 5 d) n) (s.inCycle r w) th x) := by
  obtain ⟨hat, hv, hr⟩ := hd
  have h5 : (BitVec.ofNat 5 d).toNat = d := (BitVec.toNat_ofNat ..).trans (Nat.mod_eq_of_lt (State.atSreg_lt hat))
  have hv' : (th.begin_ 1).readS (BitVec.ofNat 5 d).toNat = v := by rw [h5]; exact hv
  have hb : (begun (mtsMeta (.ofNat 5 d) n) (s.inCycle r w) th).writeSreg
      (begun (mtsMeta (.ofNat 5 d) n) (s.inCycle r w) th).cur (th.begin_ 1) n.toNat
      ((th.begin_ 1).readS (BitVec.ofNat 5 d).toNat) = .done x := by rw [begun_cur, hv']; exact hx
  rw [mtsRow_of_atSreg hth hw ht hat hv]
  exact (issue_of_ready hr fun s1 z => s1.writeSreg s1.cur z n.toNat (z.readS (BitVec.ofNat 5 d).toNat)).trans
    (congrArg (fun a => Host.Outcome.next (finish _ _ _ th a)) hb)

/-- The thread of a state in which its instruction has retired. -/
theorem retired_thread? {m : Meta} {x : State} {z : Thread} (hx : x.thread? s.cur = some z) :
    (retired m s th x).thread? s.cur = some { z.pop m th with pc := nextPc z.pc } :=
  State.thread?_modThread_self hx _

/-- What an instruction writes to its own slot beside its thread stands when it retires. -/
theorem retired_modSlot_bare (m : Meta) (th : Thread) (f : Slot → Slot) (h8 : s.cur.slot < 8) :
    ((retired m s th ((begun m s th).modSlot s.cur f)).slot s.cur).bare = (f ((begun m s th).slot s.cur)).bare := by
  rw [retired, State.slot_modThread_bare, State.slot_modSlot_self _ _ h8]

/-- What it writes to its core beside the threads stands. -/
theorem retired_modCore_still (m : Meta) (th : Thread) (f : Core → Core) :
    ((retired m s th ((begun m s th).modCore s.cur.core f)).core s.cur.core).still =
      (f ((begun m s th).core s.cur.core)).still := by
  have hc : ((begun m s th).modCore s.cur.core f).cur = s.cur := begun_cur ..
  have h := (Elsewhere.modThread_cur ((begun m s th).modCore s.cur.core f) fun y => { y.pop m th with pc := nextPc y.pc }).core
    s.cur.core
  rwa [hc, State.core_modCore_self] at h

end

/-- With both directions off and nothing to send, port.cfg is written at once (R179). -/
theorem portCfgOp_of_off (s : State) {th : Thread} {v : Word} (hv : v &&& 3 = 0) (hq : th.outq = []) :
    portCfgOp s th v = .done (s.modThread s.cur fun x => { x with portCfg := portCfgMask v }) := by
  have h0 : wbit (portCfgMask v) 0 = false := by simpa [wbit, portCfgMask] using congrArg (·.getLsbD 0) hv
  have h1 : wbit (portCfgMask v) 1 = false := by simpa [wbit, portCfgMask] using congrArg (·.getLsbD 1) hv
  simp [portCfgOp, h0, h1, hq]

/-- The mailbox head is written in the lowest slot that is about to (R182). -/
theorem execMboxHeadWrite_of_lowest {s : State} {r : ThreadRef} {th : Thread} {d : Nat} {v : Word} (hth : s.thread? r = some th)
    (h8 : r.slot < 8) (hd : s.atSreg r 0x21 0x062 = some d) (hv : th.readS d = v)
    (hlow : ∀ j, j < r.slot → s.atSreg ⟨r.core, j⟩ 0x21 0x062 = none) :
    execMboxHeadWrite r.core v s = mtsRow r 0x062 v s := by
  rw [execMboxHeadWrite, (List.find?_range_eq_some (i := r.slot)).2 ⟨?_, List.mem_range.2 h8, fun j hj => ?_⟩]
  · simp [hd, hth, hv]
  · simp [hlow j hj]

/-! ## Error counters (R334) -/

/-- The number of err.uncorr or of err.corr. -/
def errCounter (un : Bool) : BitVec 15 := if un then 0x4051 else 0x4050

theorem readSreg_errCounter (s : State) (r : ThreadRef) (th : Thread) (un : Bool) : s.readSreg r th (errCounter un).toNat =
    ofN (if un then (s.die (dieOf r.core)).errUncorr else (s.die (dieOf r.core)).errCorr) := by
  cases un <;> rfl

/-- A die with the counter that was read cleared. -/
def clearCounter (un : Bool) (q : Die) : Die := if un then { q with errUncorr := 0 } else { q with errCorr := 0 }

theorem clearOnRead_errCounter (s : State) (r : ThreadRef) (un : Bool) :
    s.clearOnRead r (errCounter un).toNat = s.modDie (dieOf r.core) (clearCounter un) := by
  cases un <;> rfl

/-- A read of an error counter whose instruction is the thread's next runs that instruction. -/
theorem execErrCountRead_of_atSreg {s : State} {r : ThreadRef} {w : BitVec 32} {un : Bool} {x : Reg}
    (hw : s.fetchFor r = .word w) (ht : s.inTurn r = true) (hd : s.atSreg r 0x20 (errCounter un).toNat = some x.toNat) :
    execErrCountRead r un x s = execMfs .always x (errCounter un) (s.inCycle r w) := by
  have hn : (if un then 0x4051 else 0x4050) = (errCounter un).toNat := by cases un <;> rfl
  simp only [execErrCountRead, hn, hd, hw, ht, and_self, if_true, BitVec.ofNat_toNat, BitVec.setWidth_eq]; rfl

/-- The encoding of an MFS of register n to s(d) (R31, R68). -/
def mfsMeta (d : Reg) (n : BitVec 15) : Meta :=
  { Meta.scalar [] [d.toNat] with priv := sregCtl n.toNat, trapOnly := sregK n.toNat }

/-- MFS writes what the register holds, and then clears a counter that reading clears (R120, R334). -/
theorem execMfs_of_ready {s : State} {th : Thread} {p : Pred} {d : Reg} {n : BitVec 15} (h : Ready (mfsMeta d n) p s th) :
    execMfs p d n s = .next (retired (mfsMeta d n) s th
      (((begun (mfsMeta d n) s th).modThread s.cur fun x =>
        x.writeS d.toNat ((begun (mfsMeta d n) s th).readSreg s.cur (th.begin_ 1) n.toNat) s.beat).clearOnRead s.cur n.toNat)) := by
  refine (issue_of_ready h fun s1 z => .done ((s1.modThread s1.cur fun x =>
    x.writeS d.toNat (s1.readSreg s1.cur z n.toNat) s1.beat).clearOnRead s1.cur n.toNat)).trans ?_
  simp only [begun_cur, begun_beat]; rfl

/-- A read of an error counter gives the count and clears it. -/
theorem execMfs_errCounter {s : State} {th : Thread} {p : Pred} {x : Reg} {un : Bool}
    (hr : Ready (mfsMeta x (errCounter un)) p s th) (h0 : x ≠ 0) (h30 : x ≠ 30) (h31 : x ≠ 31) :
    ∃ t z, execMfs p x (errCounter un) s = .next t ∧ t.thread? s.cur = some z ∧
      z.readS x.toNat = ofN (if un then (s.die (dieOf s.cur.core)).errUncorr else (s.die (dieOf s.cur.core)).errCorr) ∧
      t.die (dieOf s.cur.core) = clearCounter un (s.die (dieOf s.cur.core)) := by
  have num {k : Reg} (h : x ≠ k) : x.toNat ≠ k.toNat := fun e => h (BitVec.eq_of_toNat_eq e)
  have hdie (n : Nat) : (begun (mfsMeta x (errCounter un)) s th).die n = s.die n := by
    rw [(begun_elsewhere _ s th).rest]; rfl
  have he := execMfs_of_ready hr
  rw [clearOnRead_errCounter, readSreg_errCounter, hdie] at he
  refine ⟨_, _, he, retired_thread? (State.thread?_modThread_self (begun_thread? hr.here) _), ?_, ?_⟩
  · exact (Thread.readS_pop _ _ (num h30)).trans (Thread.readS_writeS_self _ _ (num h0) (num h30) (num h31) x.isLt)
  · rw [retired, State.die_modThread, State.die_modDie_self, State.die_modThread, hdie]

/-- A mailbox write that waited takes effect once nothing is being delivered (R182). -/
theorem execMboxBaseWrite_of_idle {s : State} {n : Nat} {x : Bool × Nat} {rest : List (Bool × Nat)}
    (hp : (s.core n).mboxPend = x :: rest) (hd : (s.core n).deliveries = []) :
    execMboxBaseWrite n s = .next (s.setCore n ({ s.core n with mboxPend := rest }.mboxSet x)) := by
  simp only [execMboxBaseWrite, hp, hd, List.isEmpty_nil, if_true]

theorem headWrite_mboxHead_of_lt {c : Core} {v : Word} (h : v.toNat < c.mboxSize) :
    (c.headWrite v).mboxHead = wbits v 17 3 * 8 := by
  rw [Core.headWrite, if_pos h]

/-- Settles O41: each row runs its instruction, whose write or read of the register gives the clause. -/
theorem registerEvents : Obligations.RegisterEvents := by
  unfold Obligations.RegisterEvents
  intro s r th w d v hth hw ht
  have h8 := State.slot_lt_of_thread? hth
  have begunTh (m : Meta) : (begun m (s.inCycle r w) th).thread? r = some (th.begin_ m.occ) :=
    begun_thread? (s := s.inCycle r w) hth
  refine ⟨fun h => ?rng, fun h hv hq => ?port, fun h => ?evpend, fun h => ?timer, fun h _ hlow hsize => ?mbox,
    fun x un hat hr h0 h30 h31 => ?errCount, fun n x rest hp hd => ?pending⟩
  case rng =>
    refine ⟨_, _, (exec_rngWrite s).trans (mtsRow_of_done (n := 0x028) hth hw ht h rfl),
      retired_thread? (State.thread?_modThread_self (begunTh _) _), ?_⟩
    exact Thread.pop_rng ..
  case port =>
    refine ⟨_, _, (exec_portCfgWrite s).trans (mtsRow_of_done (n := 0x024) hth hw ht h (portCfgOp_of_off _ hv hq)),
      retired_thread? (by rw [begun_cur]; exact State.thread?_modThread_self (begunTh _) _), ?_⟩
    exact Thread.pop_portCfg ..
  case evpend =>
    refine ⟨_, (exec_ctlEvpendClear s).trans (mtsRow_of_done (n := 0x4001) hth hw ht h rfl), ?_⟩
    have was := (begun_elsewhere (mtsMeta (.ofNat 5 d) 0x4001) (s.inCycle r w) th).slot r
    exact (congrArg Slot.evpend (retired_modSlot_bare (s := s.inCycle r w) _ _ _ h8) :).trans
      (congrArg (· &&& ~~~v) (congrArg Slot.evpend was :))
  case timer =>
    refine ⟨_, (exec_ctlTimerWrite s).trans (mtsRow_of_done (n := 0x4003) hth hw ht h rfl), ?_⟩
    have now := retired_modSlot_bare (s := s.inCycle r w) (mtsMeta (.ofNat 5 d) 0x4003) th
      (fun x => { x with timer := v, timerFired := false }) h8
    exact ⟨(congrArg Slot.timer now :), (congrArg Slot.timerFired now :)⟩
  case mbox =>
    refine ⟨_, (exec_mboxHeadWrite s).trans ((execMboxHeadWrite_of_lowest hth h8 h.1 h.2.1 hlow).trans
      (mtsRow_of_done (n := 0x062) hth hw ht h rfl)), ?_⟩
    have was := (begun_elsewhere (mtsMeta (.ofNat 5 d) 0x062) (s.inCycle r w) th).core r.core
    have hsize' : v.toNat < ((begun (mtsMeta (.ofNat 5 d) 0x062) (s.inCycle r w) th).core r.core).mboxSize :=
      Nat.lt_of_lt_of_eq hsize (congrArg Core.mboxSize was :).symm
    exact (congrArg Core.mboxHead (retired_modCore_still (s := s.inCycle r w) _ _ _) :).trans
      (headWrite_mboxHead_of_lt hsize')
  case errCount =>
    have hr' : Ready (mfsMeta x (errCounter un)) .always (s.inCycle r w) th := by cases un <;> exact hr
    obtain ⟨t, z, he, hz, hread, hclear⟩ := execMfs_errCounter hr' h0 h30 h31
    refine ⟨t, z, (exec_errCountRead s).trans ((execErrCountRead_of_atSreg hw ht hat).trans he), hz, hread,
      (congrArg Die.errUncorr hclear :).trans ?_, (congrArg Die.errCorr hclear :).trans ?_⟩ <;> cases un <;> rfl
  case pending =>
    refine ⟨_, (exec_mboxBaseWrite s).trans (execMboxBaseWrite_of_idle hp hd), ?_⟩
    rw [State.core_setCore_self]
    exact ⟨rfl, rfl, rfl, rfl, rfl⟩

end Sys2Proof
end

section
/-! Vector and flag instructions on their own thread (R133-R148, R153, R154): the shapes in which the statements on them
(O5, O6, O8, O9) are written. -/

namespace Sys2Proof.Machine

/-! ## No lane or flag write moves the PC -/

namespace Thread

@[simp] theorem writeCmpV_pc (th : Thread) (d : Reg) (m v : Lane) : (th.writeCmpV d m v).pc = th.pc := rfl
@[simp] theorem writeFlagM_pc (th : Thread) (d : Nat) (m x : Lane) : (th.writeFlagM d m x).pc = th.pc := rfl
@[simp] theorem fpLanes_pc (th : Thread) (d : Nat) (m : Lane) (g : Nat → Nat × Nat) : (th.fpLanes d m g).pc = th.pc := rfl
@[simp] theorem fpPairs_pc (th : Thread) (d : Nat) (m : Lane) (g : Nat → Nat × Nat) : (th.fpPairs d m g).pc = th.pc := rfl
@[simp] theorem addBlock_pc (th : Thread) (field d a b : Nat) : (th.addBlock field d a b).pc = th.pc := rfl

end Thread

/-! ## Halves of a lane (R132) -/

theorem half_zero (x : Lane) : half x 0 = x.toNat % 2 ^ 16 := by
  rw [half, Nat.mul_zero, Nat.pow_zero, Nat.div_one]

theorem half_one (x : Lane) : half x 1 = x.toNat / 2 ^ 16 :=
  Nat.mod_eq_of_lt (Nat.div_lt_of_lt_mul x.isLt)

end Sys2Proof.Machine

namespace Sys2Proof

open Machine

/-! ## Integer lanes (R133) and compares of lanes (R137) -/

section
variable {c : Pred → Reg → Reg → Reg → Instr} {u : Pred → Reg → Reg → Instr}

theorem lanewise_of_vecBin {f g : Lane → Lane → Lane} (he : ∀ p d a b s, exec (c p d a b) s = vecBin p d a b s f)
    (hg : ∀ x y, f x y = g x y) : Lanewise c g :=
  funext (fun x => funext (hg x)) ▸ fun p d a b => masked_of_vecOp (he p d a b) fun _ _ _ => Thread.setLanes_pc ..

/-- The instructions given by one equation, with no other spelling of their value. -/
theorem lanewise_of_exec {f : Lane → Lane → Lane} (he : ∀ p d a b s, exec (c p d a b) s = vecBin p d a b s f) :
    Lanewise c f :=
  lanewise_of_vecBin he fun _ _ => rfl

theorem lanewiseUnary_of_vecUn {f : Lane → Lane} (he : ∀ p d a s, exec (u p d a) s = vecUn p d a s f) :
    LanewiseUnary u f :=
  fun p d a => masked_of_vecOp (he p d a) fun _ _ _ => Thread.setLanes_pc ..

theorem lanewiseCompares_of_vecCmp {f g : Lane → Lane → Bool} (he : ∀ p d a b s, exec (c p d a b) s = vecCmp p d a b s f)
    (hg : ∀ x y, f x y = g x y) : LanewiseCompares c g :=
  funext (fun x => funext (hg x)) ▸ fun p d a b => masked_of_vecOp (he p d a b) fun _ _ _ => Thread.writeCmpV_pc ..

/-- A choice by a signed compare of lanes is one by the order of the integers. -/
theorem lane_ite_slt {α : Sort _} (x y : Lane) (t e : α) : (if x.slt y then t else e) = if x.toInt < y.toInt then t else e := by
  simp only [BitVec.slt_iff_toInt_lt]

theorem lane_ite_ult {α : Sort _} (x y : Lane) (t e : α) : (if x.ult y then t else e) = if x.toNat < y.toNat then t else e := by
  simp only [BitVec.ult_iff_lt, BitVec.lt_def]

/-- Settles O5: exec gives each form the shape of an operation or a compare of integer lanes; a signed compare orders the
integers, an unsigned one the naturals. -/
theorem vectorInteger : Obligations.VectorInteger := by
  unfold Obligations.VectorInteger
  exact ⟨lanewise_of_exec @exec_vAdd, lanewise_of_exec @exec_vSub, lanewise_of_exec @exec_vMul,
    lanewise_of_exec @exec_vMulhS32, lanewise_of_exec @exec_vMulhZ32, lanewise_of_exec @exec_vAnd,
    lanewise_of_exec @exec_vOr, lanewise_of_exec @exec_vXor, lanewise_of_exec @exec_vShl, lanewise_of_exec @exec_vShr,
    lanewise_of_exec @exec_vSar,
    lanewise_of_vecBin @exec_vMinS32 fun x y => lane_ite_slt y x y x,
    lanewise_of_vecBin @exec_vMinZ32 fun x y => lane_ite_ult y x y x,
    lanewise_of_vecBin @exec_vMaxS32 fun x y => lane_ite_slt x y y x,
    lanewise_of_vecBin @exec_vMaxZ32 fun x y => lane_ite_ult x y y x,
    lanewise_of_exec @exec_vAddsS32, lanewise_of_exec @exec_vSubsS32, lanewiseUnary_of_vecUn @exec_vAbsS32,
    lanewiseCompares_of_vecCmp @exec_vCmpEq fun _ _ => rfl, lanewiseCompares_of_vecCmp @exec_vCmpNe fun _ _ => rfl,
    lanewiseCompares_of_vecCmp @exec_vCmpLtS32 fun _ _ => BitVec.slt_eq_decide,
    lanewiseCompares_of_vecCmp @exec_vCmpLtZ32 fun _ _ => BitVec.ult_eq_decide,
    lanewiseCompares_of_vecCmp @exec_vCmpLeS32 fun _ _ => BitVec.sle_eq_decide,
    lanewiseCompares_of_vecCmp @exec_vCmpLeZ32 fun _ _ => BitVec.ule_eq_decide⟩

/-! ## Floating-point elements (R134-R137) -/

theorem lanewiseFloat_of_vecFp {occ : Nat} {f : RMode → Bool → Nat → Nat → Nat × Nat}
    (he : ∀ p d a b s, exec (c p d a b) s = vecFp p d a b occ s f) : LanewiseFloat c occ fun m z _ x y => f m z x y :=
  fun p d a b => masked_of_vecOp (he p d a b) fun _ _ _ => Thread.fpLanes_pc ..

theorem lanewiseFloat_of_vecFma {sub : Bool} (he : ∀ p d a b s, exec (c p d a b) s = vecFma p sub d a b s) :
    LanewiseFloat c 1 fun m z d x y => fpFma fp32 m z sub d x y :=
  fun p d a b => masked_of_vecOp (he p d a b) fun _ _ _ => Thread.fpLanes_pc ..

/-- A packed form works on the halves of its lanes, the high one above 2^16 (R132, R135). -/
theorem packed_of_vecPacked {f : RMode → Bool → Nat → Nat → Nat → Nat × Nat}
    (he : ∀ p d a b s, exec (c p d a b) s = vecPacked p d a b s f) : Packed c f :=
  fun p d a b => masked_of_vecOp (fun s => by rw [he]; simp only [vecPacked, half_zero, half_one])
    fun _ _ _ => Thread.fpLanes_pc ..

theorem pairwise64_of_vecD {occ : Nat} {f : RMode → Bool → Nat → Nat → Nat → Nat × Nat}
    (he : ∀ p d a b s, exec (c p d a b) s = vecD p d a b occ s f) : Pairwise64 c occ f :=
  fun p d a b => masked_of_vecOp (he p d a b) fun _ _ _ => Thread.fpPairs_pc ..

end

/-- A floating compare of lanes into a flag (R137). -/
theorem masked_of_vecFcmp {i : Instr} {p : Pred} {k : FCond} {d a b : Reg} (he : ∀ s, exec i s = vecFcmp p k d a b s) :
    Masked i (.vec [a.toNat, b.toNat] [] [] 1) p fun _ th m =>
      let r (i : Nat) := fpCmp fp32 th.ftz k (th.readLane a.toNat i).toNat (th.readLane b.toNat i).toNat
      (th.orFlags (unionFlags ((lanesOf m).map fun i => (r i).2))).writeCmpV d m (maskOf fun i => (r i).1) :=
  masked_of_vecOp he fun _ _ _ => by simp only [Thread.writeCmpV_pc, Thread.orFlags_pc]

/-! ## Lane conversions (R138-R140) -/

theorem lanewiseConverts_of_vecCvt {i : Instr} {p : Pred} {d a : Reg} {field k lanes occ : Nat}
    {f : Thread → RMode → Nat → Nat × Nat} (he : ∀ s, exec i s = vecCvt p d a field k lanes occ s f) :
    LanewiseConverts i p d a field k lanes occ f :=
  masked_of_vecOp he fun _ _ _ => by simp only [Thread.setLanes_pc, Thread.orFlags_pc]

/-- Settles O6: exec gives each form its shape, by lanes, halves of lanes or pairs of lanes. -/
theorem vectorFloat : Obligations.VectorFloat := by
  unfold Obligations.VectorFloat
  refine ⟨⟨lanewiseFloat_of_vecFp @exec_vFaddF, lanewiseFloat_of_vecFp @exec_vFsubF, lanewiseFloat_of_vecFp @exec_vFmulF,
    lanewiseFloat_of_vecFp @exec_vFdivF, fun p d a => masked_of_vecOp exec_vFsqrtF fun _ _ _ => Thread.fpLanes_pc ..,
    lanewiseFloat_of_vecFp @exec_vFminF, lanewiseFloat_of_vecFp @exec_vFmaxF,
    lanewiseUnary_of_vecUn @exec_vFabsF, lanewiseUnary_of_vecUn @exec_vFnegF,
    lanewiseFloat_of_vecFma @exec_vFmaF, lanewiseFloat_of_vecFma @exec_vFmsF,
    packed_of_vecPacked @exec_vFaddH, packed_of_vecPacked @exec_vFmulH, packed_of_vecPacked @exec_vFmaH,
    packed_of_vecPacked @exec_vFaddB, packed_of_vecPacked @exec_vFmulB, packed_of_vecPacked @exec_vFmaB,
    pairwise64_of_vecD @exec_vFaddD, pairwise64_of_vecD @exec_vFsubD, pairwise64_of_vecD @exec_vFmulD,
    pairwise64_of_vecD @exec_vFdivD, pairwise64_of_vecD @exec_vFmaD, pairwise64_of_vecD @exec_vFminD,
    pairwise64_of_vecD @exec_vFmaxD, fun p d a => masked_of_vecOp exec_vFsqrtD fun _ _ _ => Thread.fpPairs_pc ..,
    fun p d a b => ?compares⟩,
    fun p d a r => ⟨lanewiseConverts_of_vecCvt exec_vCvtFS32, lanewiseConverts_of_vecCvt exec_vCvtS32F,
      lanewiseConverts_of_vecCvt exec_vCvtHF, lanewiseConverts_of_vecCvt exec_vCvtBF,
      lanewiseConverts_of_vecCvt exec_vCvtE43F, lanewiseConverts_of_vecCvt exec_vCvtE52F,
      lanewiseConverts_of_vecCvt exec_vCvtFH, lanewiseConverts_of_vecCvt exec_vCvtFB,
      lanewiseConverts_of_vecCvt exec_vCvtFE43, lanewiseConverts_of_vecCvt exec_vCvtFE52,
      lanewiseConverts_of_vecCvt exec_vCvtFD, masked_of_vecOp exec_vCvtDF fun _ _ _ => Thread.fpPairs_pc ..⟩⟩
  case compares =>
    simp only [List.forall_mem_cons, List.not_mem_nil, false_imp_iff, implies_true, and_true]
    exact ⟨masked_of_vecFcmp exec_vFcmpEqF, masked_of_vecFcmp exec_vFcmpLtF, masked_of_vecFcmp exec_vFcmpLeF,
      masked_of_vecFcmp exec_vFcmpUnF⟩

/-! ## J4 blocks (R145, R147, R148) -/

/-- Settles O8: exec gives each form the shape of a vector instruction on its own thread, block by block. -/
theorem vectorBlocks : Obligations.VectorBlocks := by
  unfold Obligations.VectorBlocks
  refine ⟨fun p d a b => masked_of_vecOp exec_vJ4dec fun _ _ _ => Thread.fpLanes_pc ..,
    fun p d a b => masked_of_vecOp exec_vJ4enc fun s th m => ?enc,
    fun p d a r => masked_of_vecOp exec_vBaddq fun s th m => ?add⟩
  case enc =>
    simp only [apply_ite Thread.pc, State.unwritten_pc, Thread.writeS_pc, Thread.setLanes_pc, Thread.orFlags_pc, ite_self]
  case add =>
    refine List.foldlRecOn (motive := fun x : Thread => x.pc = th.pc) _ _ rfl fun x hx b _ => ?_
    rw [Thread.addBlock_pc]
    split
    next => exact hx
    next => exact hx

/-! ## Flag forms (R153, R154) -/

theorem flagBinary_of_flagBin {c : Pred → Reg → Reg → Reg → Instr} {f : Lane → Lane → Lane}
    (he : ∀ p d a b s, exec (c p d a b) s = flagBin p d a b s f) : FlagBinary c f :=
  fun p d a b => masked_of_vecOp (he p d a b) fun _ _ _ => Thread.writeFlagM_pc ..

/-- Settles O9: exec gives each form the shape of a vector instruction on its own thread; F.GET and F.POPC write s(D) whatever
the mask holds. -/
theorem flagForms : Obligations.FlagForms := by
  unfold Obligations.FlagForms
  exact ⟨flagBinary_of_flagBin @exec_fAnd, flagBinary_of_flagBin @exec_fOr, flagBinary_of_flagBin @exec_fXor,
    flagBinary_of_flagBin @exec_fAndn, fun p d a => masked_of_vecOp exec_fNot fun _ _ _ => Thread.writeFlagM_pc ..,
    fun p d a => masked_of_vecOp exec_fSet fun _ _ _ => Thread.writeFlagM_pc ..,
    fun p d a => masked_of_vecOp exec_fGet fun _ _ _ => Thread.writeS_pc ..,
    fun p d a => masked_of_vecOp exec_fPopc fun _ _ _ => Thread.writeS_pc ..⟩

end Sys2Proof
end

section
/-! Vector loads and stores (R149-R152, O21): what the body of each answers by its lanes, and what its thread and memory are
when it has issued. -/

namespace Sys2Proof.Machine

namespace Thread

@[simp] theorem pop_v (th : Thread) (m : Meta) (was : Thread) : (th.pop m was).v = th.v := by
  obtain ⟨q, tag, e⟩ := th.pop_eq m was; rw [e]

@[simp] theorem pop_outs (th : Thread) (m : Meta) (was : Thread) : (th.pop m was).outs = th.outs := by
  obtain ⟨q, tag, e⟩ := th.pop_eq m was; rw [e]

@[simp] theorem pop_storeQ (th : Thread) (m : Meta) (was : Thread) : (th.pop m was).storeQ = th.storeQ := by
  obtain ⟨q, tag, e⟩ := th.pop_eq m was; rw [e]

end Thread

/-! ## Effects on band.OUT (R308) -/

namespace State

theorem effectOut_eq (s : State) (th : Thread) : s.effectOut th = { s with bands := (s.effectOut th).bands } := by
  simp only [effectOut]; split <;> rfl

theorem effectRange_eq (s : State) (th : Thread) (a : Word) (n : Nat) :
    s.effectRange th a n = { s with bands := (s.effectRange th a n).bands } := by
  simp only [effectRange]
  split
  next => rfl
  next => split
          next => exact effectOut_eq s th
          next => rfl

/-- The lanes of a store change of the package the bands alone. -/
theorem foldl_effectRange_eq (s : State) (th : Thread) (n : Nat) (ls : List (Nat × Word)) :
    ∃ bs, ls.foldl (fun a l => a.effectRange th l.2 n) s = { s with bands := bs } := by
  induction ls generalizing s with
  | nil => exact ⟨s.bands, rfl⟩
  | cons l r ih =>
    obtain ⟨bs, e⟩ := ih (s.effectRange th l.2 n)
    rw [effectRange_eq] at e
    exact ⟨bs, (congrArg (r.foldl _) (effectRange_eq ..)).trans e⟩

end State

/-! ## The store queue (R204) -/

/-- The entry of a store at the tail of the queue. -/
def storeTail (s : State) (th : Thread) (pieces : List (Word × Nat × Word)) (vec : Bool) : StoreEntry :=
  ⟨s.serial, pieces, vec, th.pc, s.beat, none, none, false, pieces.map fun p => s.keyOf? s.cur th.ctx p.1⟩

/-- Neither the serial number nor the keys of an entry rest on the bands. -/
theorem storeTail_bands (s : State) (bs : List Band) (th : Thread) (pieces : List (Word × Nat × Word)) (vec : Bool) :
    storeTail { s with bands := bs } th pieces vec = storeTail s th pieces vec := rfl

section
variable (s : State) {th : Thread} (pieces : List (Word × Nat × Word)) (vec : Bool)

theorem storeEntry_of_full (h : 16 ≤ th.storeQ.length) : storeEntry s th pieces vec = .wait .room := if_pos h

theorem storeEntry_of_room (h : th.storeQ.length < 16) : storeEntry s th pieces vec =
    .done (s.tick.modThread s.cur fun x => { x with storeQ := x.storeQ ++ [storeTail s th pieces vec] }) :=
  if_neg (Nat.not_le.2 h)

end

/-! ## What a vector load answers (R150, R152) -/

/-- A lane of a load that has passed its checks: its number, its address, and the word to read. -/
abbrev LoadLane := Nat × Word × Nat × Keying

/-- The request of a vector load for its lanes. -/
def laneRequest (s : State) (th : Thread) (ls : List LoadLane) : Flight :=
  { id := s.serial, thread := s.cur, ctx := th.ctx, kind := .vload ls none, va := (ls.headD (0, 0, 0, .plain)).2.1
    key := (ls.headD (0, 0, 0, .plain)).2.2.1, data := 0, data2 := 0, issuedAt := s.beat, budget := th.feBudget
    pc := th.pc, scope := th.scopeD, stage := .sent, withdrawal := false, cipher := .plain, orphan := false
    detached := none }

/-- The state with the lanes asked for; no lane asks for nothing. -/
def State.askLanes (s : State) (th : Thread) (ls : List LoadLane) : State :=
  if ls = [] then s.tick else s.send (laneRequest s th ls)

/-- The thread with the window of a vector load open: without a lane its result has arrived. -/
def Thread.openLanes (s : State) (d la : Nat) (ls : List LoadLane) (th : Thread) : Thread :=
  th.openOut s.serial .v d la (if ls = [] then s.beat else s.beat + 2) (if ls = [] then .lanes [] else .pending)

/-- What a vector load names: its v destination, on which it opens a window, and its operands. -/
def loadMeta (d : Nat) (vs rd : List Nat) (occ : Nat) : Meta := { Meta.vec (d :: vs) rd [] occ with window := true }

/-- The body of a vector load. -/
def vecLoadBody (p : Pred) (d la : Nat) (addr : Thread → Nat → Word) (s : State) (th : Thread) : Res :=
  match s.checkLanes th (lanesAt (laneMask p th) (addr th)) with
  | .error r => r
  | .ok ls => .done ((s.askLanes th ls).modThread s.cur (Thread.openLanes s d la ls))

theorem vecLoad_eq (p : Pred) (d : Nat) (vs rd : List Nat) (la occ : Nat) (s : State) (addr : Thread → Nat → Word) :
    vecLoad p d vs rd la occ s addr =
      issue (loadMeta d vs rd occ) p s (vecLoadBody p d la addr) := by
  refine congrArg (issue _ p s) (funext fun s1 => funext fun th => ?_)
  simp only [vecLoadBody]
  cases s1.checkLanes th (lanesAt (laneMask p th) (addr th)) with
  | error r => rfl
  | ok ls => cases ls <;> rfl

section
variable {p : Pred} {d la : Nat} {addr : Thread → Nat → Word} {s : State} {th : Thread}

theorem vecLoadBody_of_error {r : Res} (h : s.checkLanes th (lanesAt (laneMask p th) (addr th)) = .error r) :
    vecLoadBody p d la addr s th = r := by
  rw [vecLoadBody, h]

theorem vecLoadBody_of_ok {ls : List LoadLane} (h : s.checkLanes th (lanesAt (laneMask p th) (addr th)) = .ok ls) :
    vecLoadBody p d la addr s th = .done ((s.askLanes th ls).modThread s.cur (Thread.openLanes s d la ls)) := by
  rw [vecLoadBody, h]

end

namespace State

@[simp] theorem askLanes_nil (s : State) (th : Thread) : s.askLanes th [] = s.tick := rfl

theorem askLanes_of_ne_nil (s : State) (th : Thread) {ls : List LoadLane} (h : ls ≠ []) :
    s.askLanes th ls = s.send (laneRequest s th ls) := if_neg h

@[simp] theorem askLanes_cores (s : State) (th : Thread) (ls : List LoadLane) : (s.askLanes th ls).cores = s.cores := by
  rw [askLanes]; split <;> rfl

@[simp] theorem askLanes_mem (s : State) (th : Thread) (ls : List LoadLane) : (s.askLanes th ls).mem = s.mem := by
  rw [askLanes]; split <;> rfl

@[simp] theorem askLanes_feFlips (s : State) (th : Thread) (ls : List LoadLane) : (s.askLanes th ls).feFlips = s.feFlips := by
  rw [askLanes]; split <;> rfl

end State

/-! ## What a vector store answers (R150, R152) -/

/-- A lane that a vector store may not name: misaligned, not canonical, or in the FABRIC window. -/
def laneOff (l : Nat × Word) : Bool := l.2.toNat % 4 != 0 || !canonical l.2 || windowOf l.2 == .fabric

theorem laneOff_eq_false_iff (l : Nat × Word) :
    laneOff l = false ↔ l.2.toNat % 4 = 0 ∧ canonical l.2 = true ∧ windowOf l.2 ≠ .fabric := by
  simp [laneOff, and_assoc]

/-- The pieces of a vector store's entry. -/
def lanePieces (d : Nat) (th : Thread) (ls : List (Nat × Word)) : List (Word × Nat × Word) :=
  ls.map fun l => (l.2, 4, (th.readLane d l.1).setWidth 64)

/-- The body of a vector store. -/
def vecStoreBody (p : Pred) (d : Nat) (addr : Thread → Nat → Word) (s : State) (th : Thread) : Res :=
  let ls := lanesAt (laneMask p th) (addr th)
  match ls.find? laneOff with
  | some l => if l.2.toNat % 4 ≠ 0 then .trap .align l.2 accVStore.info else .trap .access l.2 accVStore.info
  | none => storeEntry (ls.foldl (fun a l => a.effectRange th l.2 4) s) th (lanePieces d th ls) true

theorem vecStore_eq (p : Pred) (d : Nat) (vs rd : List Nat) (occ : Nat) (s : State) (addr : Thread → Nat → Word) :
    vecStore p d vs rd occ s addr = issue (Meta.vec (d :: vs) rd [] occ) p s (vecStoreBody p d addr) := rfl

section
variable {p : Pred} {d : Nat} {addr : Thread → Nat → Word} {s : State} {th : Thread}

theorem vecStoreBody_of_misaligned {x : Nat × Word} (h : (lanesAt (laneMask p th) (addr th)).find? laneOff = some x)
    (hx : x.2.toNat % 4 ≠ 0) : vecStoreBody p d addr s th = .trap .align x.2 1 := by
  simp only [vecStoreBody, h]
  exact if_pos hx

theorem vecStoreBody_of_aligned {x : Nat × Word} (h : (lanesAt (laneMask p th) (addr th)).find? laneOff = some x)
    (hx : x.2.toNat % 4 = 0) : vecStoreBody p d addr s th = .trap .access x.2 1 := by
  simp only [vecStoreBody, h]
  exact if_neg (not_not_intro hx)

variable (h : (lanesAt (laneMask p th) (addr th)).find? laneOff = none)
include h

theorem vecStoreBody_of_none : vecStoreBody p d addr s th =
    storeEntry ((lanesAt (laneMask p th) (addr th)).foldl (fun a l => a.effectRange th l.2 4) s) th
      (lanePieces d th (lanesAt (laneMask p th) (addr th))) true := by
  simp only [vecStoreBody, h]

/-- With room in the queue the entry joins it, and of the rest of the package the bands alone may change. -/
theorem vecStoreBody_of_room (hq : th.storeQ.length < 16) : ∃ bs, vecStoreBody p d addr s th =
    .done (({ s with bands := bs } : State).tick.modThread s.cur fun x => { x with
      storeQ := x.storeQ ++ [storeTail s th (lanePieces d th (lanesAt (laneMask p th) (addr th))) true] }) := by
  obtain ⟨bs, e⟩ := s.foldl_effectRange_eq th 4 (lanesAt (laneMask p th) (addr th))
  exact ⟨bs, by rw [vecStoreBody_of_none h, e, storeEntry_of_room _ _ _ hq, storeTail_bands]⟩

end

end Sys2Proof.Machine

namespace Sys2Proof

open Machine

/-! ## Instructions that end before or after their effect -/

section
variable {i : Instr} {m : Meta} {p : Pred} {body : State → Thread → Res}
  (he : ∀ s, exec i s = issue m p s body)
include he

theorem ends_of_body {pre : State → Thread → Res → Prop} (hb : ∀ s y r, pre s y r → body s y = r) : Ends i m p pre :=
  fun s th r h hp => by rw [he, issue_of_ready h, hb _ _ _ hp]

theorem waits_of_wait {pre : State → Thread → Prop} {k : WaitKind} (hb : ∀ s y, pre s y → body s y = .wait k) :
    Waits i m p pre k :=
  fun s th h hp => by rw [he, issue_of_ready h, hb _ _ hp]; rfl

/-- An instruction whose body changes no thread but its own, by f: that thread retires, and memory and requests are as the
body leaves them. -/
theorem issues_of_modThread {s x : State} {th : Thread} {f : Thread → Thread} (h : Ready m p s th)
    (hb : body (begun m s th) (th.begin_ m.occ) = .done (x.modThread (begun m s th).cur f))
    (hx : x.cores = (begun m s th).cores) :
    ∃ t, exec i s = .next t ∧
      t.thread? s.cur = some { (f (th.begin_ m.occ)).pop m th with pc := nextPc (f (th.begin_ m.occ)).pc } ∧
      MemoryKept x t ∧ OthersGoOn s t := by
  rw [begun_cur] at hb
  refine ⟨retired m s th (x.modThread s.cur f), by rw [he, issue_of_ready h, hb]; rfl, ?thread, ?kept, fun q hq => ?others⟩
  case thread =>
    exact retired_thread? (State.thread?_modThread_self ((State.thread?_congr hx _).trans (begun_thread? h.here)) f)
  case kept => rw [retired, State.modThread_eq, State.modThread_eq]; exact ⟨rfl, rfl, rfl⟩
  case others =>
    rw [retired, State.thread?_modThread_ne _ _ hq, State.thread?_modThread_ne _ _ hq, State.thread?_congr hx]
    exact (begun_elsewhere m s th).thread q hq

end

theorem begun_memoryKept (m : Meta) (s : State) (th : Thread) : MemoryKept s (begun m s th) := by
  rw [(begun_elsewhere m s th).rest]; exact ⟨rfl, rfl, rfl⟩

@[simp] theorem begun_serial (m : Meta) (s : State) (th : Thread) : (begun m s th).serial = s.serial := by
  rw [(begun_elsewhere m s th).rest]

/-- Settles O21: a vector load ends as the checks of its lanes do or opens its window, and a vector store ends at its first
lane that may not be named, waits for room, or joins the store queue. -/
theorem vectorMemoryIssues : Obligations.VectorMemoryIssues := by
  unfold Obligations.VectorMemoryIssues
  intro p d b sc k l o direct stride index lanes loads stores
  have load {i : Instr} {vs rd : List Nat} {occ : Nat} {at_ : Thread → Nat → Word}
      (hi : ∀ s, exec i s = vecLoad p d.toNat vs rd l.toNat occ s at_) : loads i vs rd occ at_ := by
    have he := fun s => (hi s).trans (vecLoad_eq ..)
    refine ⟨gated_of_issue he, ends_of_body he fun s y r => vecLoadBody_of_error, fun s th h ls hls => ?_⟩
    obtain ⟨bmem, bfe, bfl⟩ := begun_memoryKept (loadMeta d.toNat vs rd occ) s th
    obtain ⟨t, ht, hz, ⟨tmem, tfe, tfl⟩, ho⟩ := issues_of_modThread he h (vecLoadBody_of_ok hls) (State.askLanes_cores ..)
    rw [State.askLanes_mem] at tmem
    rw [State.askLanes_feFlips] at tfe
    refine ⟨t, _, ht, hz, tmem.trans bmem, tfe.trans bfe, ho, rfl, Thread.pop_v .., Thread.pop_s .., ?outs,
      fun hn => ?none, fun hn => ?some⟩
    case outs =>
      refine (Thread.pop_outs ..).trans ?_
      rw [Thread.openLanes, begun_serial, begun_beat]; rfl
    case none => rw [hn, State.askLanes_nil] at tfl; exact tfl.trans bfl
    case some =>
      rw [State.askLanes_of_ne_nil _ _ hn] at tfl
      exact ⟨_, tfl.trans (congrArg (· ++ _) bfl), begun_serial .., rfl, begun_cur ..⟩
  have store {i : Instr} {vs rd : List Nat} {occ : Nat} {at_ : Thread → Nat → Word}
      (hi : ∀ s, exec i s = vecStore p d.toNat vs rd occ s at_) : stores i vs rd occ at_ := by
    have he := fun s => (hi s).trans (vecStore_eq ..)
    refine ⟨gated_of_issue he,
      fun x => traps_of_trap (body := fun _ => vecStoreBody p d.toNat at_) he ?misaligned,
      fun x => traps_of_trap (body := fun _ => vecStoreBody p d.toNat at_) he ?aligned,
      waits_of_wait he fun _ _ ⟨hoff, hq⟩ => (vecStoreBody_of_none hoff).trans (storeEntry_of_full _ _ _ hq),
      fun s th h hls hq => ?entry⟩
    case misaligned => exact fun _ _ _ ⟨hoff, hx⟩ => vecStoreBody_of_misaligned hoff hx
    case aligned => exact fun _ _ _ ⟨hoff, hx⟩ => vecStoreBody_of_aligned hoff hx
    case entry =>
      have hoff : (lanes at_ (th.begin_ occ)).find? laneOff = none :=
        List.find?_eq_none.2 fun x hx => Bool.not_eq_true _ ▸ (laneOff_eq_false_iff x).2 (hls x hx)
      obtain ⟨bs, hb⟩ := vecStoreBody_of_room (d := d.toNat) (s := begun (Meta.vec (d.toNat :: vs) rd [] occ) s th) hoff hq
      obtain ⟨t, ht, hz, ⟨tmem, tfe, _⟩, ho⟩ := issues_of_modThread he h hb rfl
      obtain ⟨bmem, bfe, _⟩ := begun_memoryKept (Meta.vec (d.toNat :: vs) rd [] occ) s th
      refine ⟨t, _, ht, hz, tmem.trans bmem, tfe.trans bfe, ho, rfl, Thread.pop_v .., Thread.pop_s .., Thread.pop_outs .., ?_⟩
      refine (Thread.pop_storeQ ..).trans (congrArg (_ ++ [·]) ?_)
      simp only [storeTail, lanePieces, List.map_map, begun_serial, begun_beat, begun_cur]
      rfl
  exact ⟨load exec_vLd, store exec_vSt, load exec_vLds, store exec_vSts, load exec_vGather, store exec_vScatter⟩

end Sys2Proof
end
